-- ==== Sys2Proof/Word.lean ====
section
/-!
DEFINITION. Word.lean: the word types of the MB7160: registers are 32 bits wide and addressed by byte (R7).
-/
namespace Sys2Proof

/-- A byte. -/
abbrev Byte := BitVec 8

/-- A half word: a sample word, a bin word, a block descriptor (Tables 08-3 to 08-5), a stage-9 value word. -/
abbrev Half := BitVec 16

/-- A register of the register interface, or a word of the table region (R7). -/
abbrev Word := BitVec 32

end Sys2Proof
end

