-- ==== Sys2Proof/Syntax.lean ====
section
/-!
DEFINITION. Syntax.lean: the commands of the MB7160, one constructor of `Instr` per row of spec/opcode_table.json, with the
operands of each row: what the outside world brings with the command (a master and a write's data, a pin's event, a
measured value, a received frame). The table gives its rows no operands and no bits; the operands are this model's
(log entry 2). A Nat operand that numbers a thing (an engine, a lane, a channel) is held to its range by WellFormed.
-/
namespace Sys2Proof

/-- Sensing ports A and B (Table 00-2). -/
inductive Port where
  | A | B
deriving DecidableEq, Repr

/-- The two supply feeds VIN_A and VIN_B (R33). -/
inductive Feed where
  | VIN_A | VIN_B
deriving DecidableEq, Repr

/-- The two supply outputs of R38. -/
inductive Output where
  | VAUX12 | V33_OUT
deriving DecidableEq, Repr

/-- The masters of Table 04-1. A session is named by its slot; whether it is secure is state (R70). -/
inductive Master where
  | supervisor
  | spi
  | session (slot : Nat)
  | jewel (e : Nat)
deriving DecidableEq, Repr

/-- What a check of a Jewel finds (R259): a single-bit error of a memory, a double-bit error, or 10 µs without an issue. -/
inductive EngineCheck where
  | single | double | noIssue
deriving DecidableEq, Repr

/-- What a check has found of engine `engine` (R259). -/
structure EngineFinding where
  engine : Nat
  found  : EngineCheck
deriving DecidableEq, Repr

/-- What the start sequence senses as it begins: whether RESET_N is high (R42), and the die temperature in mK. -/
structure StartSense where
  resetN : Bool
  dieMk  : Int
deriving DecidableEq, Repr

/-- A port whose first beat is due, and whether its optics are connected (R1). -/
structure PortOptics where
  port   : Port
  optics : Bool
deriving DecidableEq, Repr

/-- An edge at an input of the TIS (R112): rising or falling. -/
structure TisEdge where
  input   : Nat
  falling : Bool
deriving DecidableEq, Repr

/-- What a faulty gate path of a port has added to the integral of R140, in steps × code². -/
structure GateExcess where
  port  : Port
  extra : Nat
deriving DecidableEq, Repr

/-- Two consecutive blocks of an analogue input (R151): the averages of (V_P + V_N) / 2 in mV. -/
structure CmBlocks where
  input : Nat
  avg0  : Int
  avg1  : Int
deriving DecidableEq, Repr

/-- The polarisations of a port's coherent inputs. -/
inductive Pol where
  | X | Y
deriving DecidableEq, Repr

/-- The two lanes of a Jewel accumulator (Table 11-1). -/
inductive Lane where
  | L | H
deriving DecidableEq, Repr

/-- An accumulator operand: the accumulator and the lane (R249). -/
structure AccLane where
  acc  : Nat
  lane : Lane
deriving DecidableEq, Repr

/-- The fields of a MAC slot (R248): the slot, the accumulator, the d operands and SAT. -/
structure MacOps where
  slot : Nat
  acc  : Nat
  a    : Nat
  b    : Nat
  sat  : Bool
deriving DecidableEq, Repr

/-- The fields of an ALU slot that names d registers (R249). -/
structure AluOps where
  dst : Nat
  a   : Nat
  b   : Nat
deriving DecidableEq, Repr

/-- The two data memories of a Jewel, served by the MX and the MY slot (R250). -/
inductive JMem where
  | X | Y
deriving DecidableEq, Repr

/-- The fields of a memory slot (R250): the slot, the d register, the pointer, the mode and the modifier. -/
structure MemOps where
  mem  : JMem
  d    : Nat
  ptr  : Nat
  mode : Nat
  mod  : Nat
deriving DecidableEq, Repr

/-- What a DIMM slot shows to training (R317, Table 14-1): whether its SPD answers, whether Table 14-1 supports it, whether
its PMIC reports power good in time, whether every training step passes within three tries, and its organisation as coded
in MC ORG and STATUS.SPEED (Table 14-7). -/
structure Dimm where
  answers   : Bool
  supported : Bool
  pmicGood  : Bool
  trains    : Bool
  speed     : Nat
  ranks     : Nat
  width     : Nat
  density   : Nat
  capGiB    : Nat
deriving DecidableEq, Repr

/-- What the slices of a port's inputs convert at one sample instant: for XI, XQ, YI and YQ the 12-bit code, and in bit 15 whether the input's clamp conducts
(R150). The other bits of the sample word and the block's descriptor are the module's own (R178, R179). -/
structure PipeSample where
  xi   : Half
  xq   : Half
  yi   : Half
  yq   : Half
deriving DecidableEq, Repr

/-- A result word's tile (R262): restart count, TROW and TCOL of a port. -/
structure TileId where
  port    : Port
  restart : Nat
  trow    : Nat
  tcol    : Nat
deriving DecidableEq, Repr

/-- The kinds of frame that a port tells apart (R359 to R361). -/
inductive FrameDest where
  | own | broadcast | subscribedMulticast | otherMulticast | other
deriving DecidableEq, Repr

/-- The PTP content of a received frame, as forwarding needs it (R361, R367, R368). -/
inductive PtpKind where
  | none | sync1 | sync2 | followUp | delayReq | pdelayReq | pdelayResp | pdelayRespFollowUp | other
deriving DecidableEq, Repr

/-- What a lane's receiver has met since the frame before, with the frame itself (R352, R353): codewords corrected and not correctable, whether one of the
latter holds part of the frame, invalid sync headers; the idle characters between the frames; by how many blocks the elastic buffer fills at the terminate block
and at each idle-only block after it, and while the frame passes. -/
structure RxLine where
  corrected : Nat := 0
  bad       : Nat := 0
  badHere   : Bool := false
  badSync   : Nat := 0
  ipg       : Nat := 12
  drift     : List Int := []
  inFrame   : Int := 0
deriving DecidableEq, Repr

/-- What lane `lane` in TEST has sent and received since the command before (R358): how many bits its generator has put out, and the bits on its receiver's
serial line, in order. -/
structure PrbsLine where
  lane     : Nat
  sent     : Nat
  received : List Bool
deriving DecidableEq, Repr

/-- What a lane's receiver finds (R352, Table 15-3), with the invalid sync headers met until then: of an UP lane 0 loss of block lock, 1 loss of FEC alignment,
2 hi_ber, 3 a local fault held, 4 a remote fault held; of any lane that receives, 5 a local fault begins, 6 it ends, 7 a remote fault begins, 8 it ends. -/
structure LaneFinding where
  cause   : Nat
  badSync : Nat
deriving DecidableEq, Repr

/-- What a lane counts at a PTP event message (R362): the fine LSBs of the TIS between the count and the command's instant, before it for a message received
and after it for one sent; and the variable latencies measured, ps: of the lane's last lock and of the message within its codeword. -/
structure PtpCount where
  apart : Nat := 0
  var   : Int := 0
deriving DecidableEq, Repr

/-- A Sync for the module's ordinary clocks (R364, R365): its domainNumber, its master's clockIdentity, its count at the port, its origin time t1 in
2^-16 ns, and its correction in 2^-16 ns; of a two-step Sync t1 and the sum of both corrections come with its Follow_Up. -/
structure SyncMsg where
  domain     : Nat
  source     : BitVec 64
  rx         : PtpCount := {}
  t1         : Nat
  correction : Int
deriving DecidableEq, Repr

/-- The Delay_Resp to a Delay_Req of the module's own (R364): its domainNumber, the master's receive time t4 and its correction, both in 2^-16 ns. -/
structure DelayResp where
  domain     : Nat
  t4         : Nat
  correction : Int
deriving DecidableEq, Repr

/-- An event message that a port sends of its own: the domain clock, for a Delay_Req, or the port, for a Pdelay_Req, and its count. -/
structure PtpSend where
  unit : Nat
  tx   : PtpCount := {}
deriving DecidableEq, Repr

/-- A Pdelay_Req received on a port, with its correction in 2^-16 ns, and the count of its answer (R369). -/
structure PdelayReq where
  port       : Nat
  rx         : PtpCount := {}
  correction : Int := 0
  tx         : PtpCount := {}
deriving DecidableEq, Repr

/-- The answer to a Pdelay_Req of the port's own (R369): its count, and the time that the peer held the exchange, 2^-16 ns, from its corrections and times. -/
structure PdelayResp where
  rx   : PtpCount := {}
  turn : Int
deriving DecidableEq, Repr

/-- A received Ethernet frame: its destination, length in bytes with FCS, whether the FCS is good, its VID when tagged, and
for PTP messages the kind, the key of R368 (domainNumber, sourcePortIdentity, sequenceId), whether it is unicast to the module,
its correction field (signed, 2^-16 ns), its count at the ingress and that at an egress with nothing else to send (R362, R367); what the receiver met; the
session whose packet it carries with the CE mark (R376); the neighbour whose ARP reply or neighbour advertisement it is (R373); and its bytes from the
destination address to the last before the FCS, with the FCS. -/
structure Frame where
  dest       : FrameDest
  len        : Nat
  fcsGood    : Bool
  vid        : Option Nat
  ptp        : PtpKind
  domain     : Nat
  source     : Nat
  seqId      : Nat
  ptpUnicast : Bool
  correction : Int
  rx         : PtpCount := {}
  tx         : PtpCount := {}
  line       : RxLine := {}
  ce         : Option Nat := none
  answer     : Option (BitVec 128) := none
  bytes      : List Byte := []
  fcs        : Word := 0
deriving DecidableEq, Repr

/-- An Announce message as the data-set comparison of IEEE 1588 orders it (R364): the grandmaster's priority1, clockClass,
clockAccuracy, variance, priority2 and identity, and the steps removed. -/
structure Announce where
  priority1     : Nat
  clockClass    : Nat
  accuracy      : Nat
  variance      : Nat
  priority2     : Nat
  identity      : BitVec 64
  stepsRemoved  : Nat
  minorVersion  : Nat
deriving DecidableEq, Repr

/-- A CONNECT_REQ datagram (Table 16-3), with the Ethernet port it arrived on and its source address (as IPv6). -/
structure ConnectReq where
  ethPort     : Nat
  source      : BitVec 128
  policy      : Nat
  resumeSlot  : Nat
  pmtu        : Nat
  resumeStart : Nat
  hostQpn     : Nat
  hostPsn     : Nat
  hostAlt     : BitVec 128
deriving DecidableEq, Repr

/-- One stream's entry of a HELLO (Table 16-7). -/
structure HelloRing where
  ringVa   : BitVec 64
  ringLog2 : Nat
  rkey     : Word
  piVa     : BitVec 64
  ci       : Nat
deriving DecidableEq, Repr

/-- What the host of a session sends besides its SENDs (R374, R385): an RDMA WRITE of 8 bytes into the doorbell region at the place of a stream's consumer
index, any other RDMA WRITE, an RDMA READ, or an atomic. -/
inductive HostOp where
  | index (stream : Nat)
  | otherWrite
  | read
  | atomic
deriving DecidableEq, Repr

/-- The header fields of a management command that vary (R399): its session slot, FLAGS.VIEW, FLAGS.INC and CMD_SEQ; an OP that Table 16-7 does not have, in
place of the command's own; and how many SEND messages the session's receive queue holds when this one arrives (R375). -/
structure CmdHead where
  slot    : Nat
  view    : Bool
  inc     : Bool
  cmdSeq  : Nat
  otherOp : Option Nat := none
  queued  : Nat := 0
deriving DecidableEq, Repr

/-- The kinds of data a coherent background or on-command measurement returns for a slice (R410): offset in 1/16 LSB, gain
deviation in 2^-20, skew in 2 fs. -/
structure SliceMeas where
  ofs  : Int
  gain : Int
  skew : Int
deriving DecidableEq, Repr

/-- One HKC conversion (R166, R169): the converter code, what it reads at unit gain and zero offset in the channel's unit, and for an RTD measurement whether a break of R170
occurred, with V_S+ − V_S− and V_R+ − V_R− in one unit. -/
structure HkcConv where
  code  : Nat
  val   : Int
  broke : Bool
  vs    : Int := 0
  vr    : Int := 0
deriving DecidableEq, Repr

/-- The four HKC averages of the DAC scope (R415), in converter codes as summed over 1,024 conversions, the rms of the
CAL_REF conversions in 1/16 code, and CAL_REF read through the factory HKC gain, µV. -/
structure DacMeas where
  c0     : Int
  cR     : Int
  cL     : Int
  cH     : Int
  dLo    : Int
  dHi    : Int
  rms16  : Nat
  refUv  : Int
deriving DecidableEq, Repr

/-- What the slices convert in a block of a raw window (R189): 16 codes of each input in use, in the order XI, XQ, YI, YQ, each with bit 15 where the
input's clamp conducts. The other bits and the descriptor are the module's own (R178, R179). -/
structure RawEntry where
  words : List Half
deriving DecidableEq, Repr

/-- What the freeze of a channel finds for its snapshot (R333, Table 14-6): the last 32 commands, newest first, the index of the
last command known good, the clock drivers' error log bytes as four words, and the temperatures of the two slots. -/
structure FreezeLog where
  cmds    : List Word
  goodIdx : Word
  dimmLog : List Word
  temps   : Word
deriving DecidableEq, Repr

/-- What stands in error in a 64-byte burst (R319): on x4 DIMMs the devices that show errors, on x8 DIMMs the bits in error of each 40-bit beat; and whether
the code detects an error of which the spec does not say so. -/
structure ReadErr where
  devices  : Nat := 0
  beats    : List Nat := []
  detected : Bool := false
deriving DecidableEq, Repr

/-- An error that has come to a burst of a channel, by its address there. -/
structure MemErr where
  addr : Nat
  err  : ReadErr
deriving DecidableEq, Repr

/-- Where a management frame was cut short (R85, R87): the words of a READ accessed by then, and the bytes MGMT_SDO has driven, poll bytes that show READY and
the bytes after them. -/
structure FrameCut where
  accessed : Nat := 0
  bytes    : Nat := 0
deriving DecidableEq, Repr

/-- The commands. The constructors follow the order of spec/opcode_table.json. -/
inductive Instr where
  -- supply, start and resets (chapters 02, 03, 18)
  | uvloRising
  | pgoodRise
  | startSequence (sense : StartSense) (patternOk0 patternOk1 : Bool)
  | trainingComplete (ch : Nat) (dimm0 dimm1 : Dimm) (timeout : Bool) (crc : Word)
  | firstBeat (x : PortOptics)
  | warningClear
  | powerFailWarning
  | uvloFalling
  | pfRecoverRestart
  | feedWindowChange (f : Feed) (inside : Bool)
  | feedOverVoltage (f : Feed)
  | feedReconnect (f : Feed)
  | outputOvercurrent (o : Output)
  | dieTempSample (c0 c1 c2 : HkcConv)
  | thermalRestart
  | pinReset
  | warmReset (m : Master) (key : Half)
  | watchdogReset
  | fatalError
  | portReset (m : Master) (key : Half) (p : Port)
  | laneReset (m : Master) (key : Half) (lane : Nat)
  | engineReset (m : Master) (key : Half) (e : Nat)
  | moduleBoundary
  | scheduledWake (retOk : Bool)
  | unscheduledWake (retOk : Bool)
  -- configuration (chapter 03)
  | commit (m : Master) (mask : Word)
  | abort (m : Master) (w : Word)
  | configCheckPass
  | configReload
  | imageVerify (m : Master)
  | keyProgram (m : Master) (slot : Nat) (hash : BitVec 256)
  | keyRevoke (m : Master) (slot : Nat)
  | attestPeriodic
  -- register interface (chapter 04)
  | mgmtRead (cmd : Byte) (addr : Word)
  | mgmtWrite (cmd : Byte) (addr : Word) (data : List Word) (crc : Option Byte)
  | mgmtStatus (cmd : Byte)
  | mgmtFrameCut (cmd : Byte) (addr : Word) (cut : FrameCut)
  | registerWrite (m : Master) (addr : Nat) (w : Word)
  | rcRead (m : Master) (addr : Nat)
  | latchingRead (m : Master) (addr : Nat)
  | bitAliasAccess (m : Master) (addr : Nat) (view : Bool) (write : Option Word)
  | logPop (m : Master) (w : Word)
  | evtOutPulseEnd (pin : Nat)
  -- clocks and the interval stamper (chapter 05)
  | crystalFail
  | standbyCrystalFail
  | bothCrystalsFail
  | xoFailRestart (good0 good1 : Bool)
  | xoReturn (m : Master) (w : Word)
  | xoCompareWindow (delta : Int) (xo1Farther : Bool)
  | regulatorUpdate (src : Nat)
  | sourceLost (src : Nat)
  | sourceTake (src : Nat)
  | ageingSample
  | ageClear (m : Master) (w : Word)
  | domStep (m : Master) (d : Nat) (step : Word)
  | domSetSec (m : Master) (d : Nat) (sec : Word)
  | ppsOutEdge
  | tisStamp (edge : TisEdge) (coarse : BitVec 48) (fine : BitVec 10)
  | tisPop (m : Master) (input : Nat) (w : Word)
  | coarseWrap
  | iuArm (m : Master) (u : Nat) (w : Word)
  | iuTimeout (u : Nat)
  | fuStart (m : Master) (f : Nat) (w : Word)
  | fuGateEnd (f : Nat)
  -- the Escapement (chapter 06)
  | beatBoundary (p : Port)
  | subbandLaunch (p : Port) (k : Nat)
  | lmonWindowClose (p : Port)
  | planRestartEnd (p : Port)
  | acquisitionStart (x : PortOptics)
  | intlkNLow (ns : Nat)
  | intlkNHigh
  | energyTrip (x : GateExcess)
  | tripClear (m : Master) (p : Port) (w : Word)
  | ramanShot (st0 as0 st1 as1 : List Half)
  | switchSettleEnd (p : Port)
  -- front ends (chapter 07)
  | rangerBlockEval (p : Port) (pol : Pol) (samples : List Half)
  | rangerStepUp (p : Port) (pol : Pol)
  | cmFaultDeclare (p : Port) (x : CmBlocks)
  | cmRecovery (p : Port) (input : Nat)
  | rfeFault (ch : Nat)
  | apdLimit (o : Nat)
  | apdLimitClear (m : Master) (o : Nat) (w : Word)
  | apdSettleEnd (p : Port)
  | hkcScanStart
  | hkcSlot (conv : HkcConv)
  | injReq (m : Master) (w : Word)
  -- conversion array (chapter 08)
  | gapLendingStart (p : Port)
  | lendingEnd (p : Port)
  | backgroundMeasurement (slice : Nat) (meas : SliceMeas) (bitStuck : Bool)
  | conversionWatchdog (slice : Nat)
  | sliceRetire (m : Master) (w : Word)
  | ramanBackgroundMeasure (ofs gain : Int) (bitStuck : Bool)
  | rawWindowGo (m : Master) (w : Word)
  | rawWindowDone (beats : List (List RawEntry))
  -- coherent pipe and Raman temperature (chapters 09, 10)
  | pipeTickEmit (p : Port) (cell : Nat) (lo hi : List PipeSample) (eccError : Bool)
  | ramanFrameBoundary (p : Port)
  | ramanIdleEnd (p : Port)
  | dtsProfileComplete (p : Port)
  -- the Train and the Jewels (chapter 11)
  | tileArrival (p : Port)
  | tileStart (e : Nat)
  | tileSteal (e : Nat)
  | resultHandoff (p : Port)
  | engineFault (x : EngineFinding)
  | engineRetire (m : Master) (w : Word)
  | nop (e : Nat) (more : Bool)
  | mac2 (e : Nat) (o : MacOps) (more : Bool)
  | msu2 (e : Nat) (o : MacOps) (more : Bool)
  | mpy2 (e : Nat) (o : MacOps) (more : Bool)
  | dot2 (e : Nat) (o : MacOps) (more : Bool)
  | cmac (e : Nat) (o : MacOps) (more : Bool)
  | cmacj (e : Nat) (o : MacOps) (more : Bool)
  | cmpy (e : Nat) (o : MacOps) (more : Bool)
  | cmpyj (e : Nat) (o : MacOps) (more : Bool)
  | add2 (e : Nat) (o : AluOps) (more : Bool)
  | adds2 (e : Nat) (o : AluOps) (more : Bool)
  | sub2 (e : Nat) (o : AluOps) (more : Bool)
  | subs2 (e : Nat) (o : AluOps) (more : Bool)
  | and (e : Nat) (o : AluOps) (more : Bool)
  | or (e : Nat) (o : AluOps) (more : Bool)
  | xor (e : Nat) (o : AluOps) (more : Bool)
  | shl2 (e : Nat) (dst a k : Nat) (more : Bool)
  | asr2 (e : Nat) (dst a k : Nat) (more : Bool)
  | lsr (e : Nat) (dst a k : Nat) (more : Bool)
  | max2 (e : Nat) (o : AluOps) (more : Bool)
  | min2 (e : Nat) (o : AluOps) (more : Bool)
  | abs2 (e : Nat) (dst a : Nat) (more : Bool)
  | cmpeq2 (e : Nat) (o : AluOps) (more : Bool)
  | qz2 (e : Nat) (o : AluOps) (upper : Bool) (more : Bool)
  | byte (e : Nat) (dst a sub : Nat) (more : Bool)
  | pack (e : Nat) (o : AluOps) (more : Bool)
  | mov (e : Nat) (dst a : Nat) (more : Bool)
  | movs (e : Nat) (dst a : Nat) (toSpecial : Bool) (more : Bool)
  | extr2 (e : Nat) (dst acc k : Nat) (more : Bool)
  | extr (e : Nat) (dst : Nat) (a : AccLane) (k : Nat) (more : Bool)
  | exp (e : Nat) (dst : Nat) (a : AccLane) (more : Bool)
  | norm (e : Nat) (dst : Nat) (a : AccLane) (more : Bool)
  | dnrm (e : Nat) (dst a : Nat) (k : Int) (more : Bool)
  | clra (e : Nat) (acc : Nat) (more : Bool)
  | fold (e : Nat) (acc : Nat) (more : Bool)
  | ld32 (e : Nat) (o : MemOps) (more : Bool)
  | st32 (e : Nat) (o : MemOps) (more : Bool)
  | ld16 (e : Nat) (o : MemOps) (more : Bool)
  | st16 (e : Nat) (o : MemOps) (more : Bool)
  | rot (e : Nat) (more : Bool)
  | ldi (e : Nat) (dst : Nat) (imm : Word)
  | ldis (e : Nat) (dst : Nat) (imm : Word)
  | br (e : Nat) (target cond d : Nat)
  | loop (e : Nat) (start stop count : Nat) (creg : Option Nat)
  | done (e : Nat)
  | rdreg (e : Nat) (dst addrReg : Nat)
  | rdregComplete (e : Nat)
  | trap (e : Nat) (code : Nat)
  -- zones and the Chronograph (chapter 12)
  | zoneIntervalEnd (p : Port)
  | overviewIntervalEnd (p : Port)
  | channelRowEval (c : Nat)
  | captureTickRead (slot : Nat)
  | chrArm (m : Master) (w : Word)
  | rearmEnd (c : Nat)
  -- codec, memory and the Reserve (chapters 13, 14)
  | codecBlock (p : Port) (verifyFails : Bool)
  | reserveBlockWrite
  | dramRefresh (ch rank : Nat) (hot : Bool)
  | refreshWindowEnd (ch : Nat)
  | neighbourRefresh (ch rank sub bank row : Nat)
  | patrolScrub (ch : Nat) (addrs : List Nat) (devices : Nat) (beats : List Nat) (detected : Bool)
  | ceWindowClose (ch : Nat)
  | migrate (m : Master) (ch : Nat) (w : Word)
  | migrationComplete (ch : Nat) (errs : List MemErr)
  | caParityError (ch : Nat) (failedReplays : Nat) (log : FreezeLog)
  | freeze (m : Master) (ch : Nat) (w : Word) (log : FreezeLog)
  | journalCopyComplete
  -- lanes, Ethernet and PTP (chapter 15)
  | refclkLoss
  | refclkOk
  | laneTrainingDone (n : Nat) (eq : Word)
  | laneTrainTimeout (n : Nat)
  | laneLockHeld (n : Nat)
  | laneAcquireTimeout (n : Nat)
  | laneFault (n : Nat) (x : LaneFinding)
  | laneRetry (n : Nat)
  | prbsEnable (m : Master) (line : PrbsLine) (w : Word)
  | prbsInject (m : Master) (line : PrbsLine) (w : Word)
  | frameReceive (n : Nat) (f : Frame)
  | pauseReceive (n : Nat) (pfcPriority : Option Nat) (quanta : Nat)
  | announceReceive (domain n : Nat) (a : Announce)
  | syncReceive (n : Nat) (x : SyncMsg) (logInterval : Int)
  | delayReqSend (x : PtpSend)
  | ptpPortFail (d : Nat)
  | ptpRevert (d : Nat)
  | followUpReceive (n : Nat) (f : Frame)
  | tcEntryExpire (n : Nat) (domain source seqId : Nat)
  | pdelayReqSend (x : PtpSend)
  | pdelayReqReceive (x : PdelayReq)
  -- sessions and records (chapter 16)
  | arpRequest (n : Nat) (target : BitVec 128)
  | neighbourExpire (n : Nat) (addr : BitVec 128)
  | connectReq (r : ConnectReq)
  | helloTimeout (slot : Nat)
  | hello (h : CmdHead) (versions : List (Nat × Nat)) (replyVa : BitVec 64) (replyRkey : Word) (evtMask : Word) (rings : List HelloRing)
  | auth (h : CmdHead) (keyIndex : Nat) (hostNonce : BitVec 128) (r s : BitVec 256)
  | read (h : CmdHead) (addr : Word) (count : Nat)
  | write (h : CmdHead) (addr : Word) (words : List Word)
  | getCert (h : CmdHead) (offset : Nat)
  | attestNow (h : CmdHead) (nonce : BitVec 128)
  | close (h : CmdHead)
  | ping (h : CmdHead)
  | doorbellWrite (slot : Nat) (op : HostOp) (ci : Nat)
  | rdmaAck (slot count : Nat)
  | ackTimeout (slot : Nat)
  | sequenceNak (slot : Nat)
  | cnpReceive (slot : Nat)
  | rateRecovery (slot : Nat)
  | recordProduce
  | journalResume (slot : Nat)
  | piWrite (slot stream : Nat)
  | sessionPathFail (slot : Nat)
  | housekeepingPeriodEnd (periodMs : Nat)
  | udpRecordSend (policy : Nat) (atLineRate : Bool)
  -- calibration (chapter 17)
  | dacScope (meas : DacMeas)
  | adcScope (p : Port) (slices : List (SliceMeas × Bool))
  | cfeScope (p : Port) (rgain : List Nat) (iq : List Int)
  | rfeScope (slices : List (SliceMeas × Bool)) (intGain : List Nat)
  | hkcScope (refUv zeroUv : Int) (offsets : List Int)
  | tisScope (edges : List (List Nat))
  | freqScope (measHz32 : Nat)
  | calResultWrite
  | calAbort (m : Master) (w : Word)
  -- the rows added at the table's end
  | refInMeasurement (ppb : Option Int)
  | delayRespReceive (n : Nat) (x : DelayResp)
  | pdelayRespReceive (n : Nat) (x : PdelayResp)
  | pauseExpire (n : Nat)
  | ppsOutPulseEnd
  | neighbourUnreachable (n : Nat) (addr : BitVec 128)
  | authFailClose (slot : Nat)
  | calCommand (m : Master) (w : Word)
  | nvmWindowWrite (m : Master) (addr : Nat) (w : Word)
deriving DecidableEq, Repr

end Sys2Proof
end

