-- ==== Sys2Proof/WellFormed.lean ====
section
/-!
DEFINITION. WellFormed.lean: the ranges of the operands of the commands: every number names a thing that the spec has. A command outside them cannot
arise; its meaning leaves the state as it is or takes the number within its range (log entry 3).
-/
namespace Sys2Proof

/-- A MAC slot's fields are within their widths (R248). -/
def macWf (o : MacOps) : Bool := decide (o.slot < 2) && decide (o.acc < 8) && decide (o.a < 32) && decide (o.b < 32)

/-- An ALU slot's registers are within their width (R249). -/
def aluWf (o : AluOps) : Bool := decide (o.dst < 32) && decide (o.a < 32) && decide (o.b < 32)

/-- A memory slot's fields are within their widths, and its mode is one of those of R250. -/
def memWf (o : MemOps) : Bool := decide (o.d < 32) && decide (o.ptr < 8) && decide (o.mode < 5) && decide (o.mod < 8)

/-- A consumer index lies in the doorbell region of 4 KiB, 8 bytes each (R385). -/
def hostOpWf : HostOp → Bool
  | .index i => decide (i < 512)
  | _ => true

/-- A management command's header: a slot, a CMD_SEQ of 32 bits, and an OP of 16 bits that Table 16-7 does not have, where it has one (R399). -/
def headWf (h : CmdHead) : Bool := decide (h.slot < 64) && decide (h.cmdSeq < 2 ^ 32) && (match h.otherOp with | some o => decide (o < 2 ^ 16) && (o == 0 || decide (8 < o)) | none => true)

/-- Whether a command's operands are within their ranges. -/
def Instr.wf : Instr → Bool
  | .uvloRising => true
  | .pgoodRise => true
  | .startSequence _ _ _ => true
  | .trainingComplete ch _ _ _ _ => decide (ch < 2)
  | .firstBeat _ => true
  | .warningClear => true
  | .powerFailWarning => true
  | .uvloFalling => true
  | .pfRecoverRestart => true
  | .feedWindowChange _ _ => true
  | .feedOverVoltage _ => true
  | .feedReconnect _ => true
  | .outputOvercurrent _ => true
  | .dieTempSample _ _ _ => true
  | .thermalRestart => true
  | .pinReset => true
  | .warmReset _ _ => true
  | .watchdogReset => true
  | .fatalError => true
  | .portReset _ _ _ => true
  | .laneReset _ _ lane => decide (lane < 4)
  | .engineReset _ _ e => decide (e < 64)
  | .moduleBoundary => true
  | .scheduledWake _ => true
  | .unscheduledWake _ => true
  | .commit _ _ => true
  | .abort _ _ => true
  | .configCheckPass => true
  | .configReload => true
  | .imageVerify _ => true
  | .keyProgram _ slot _ => decide (slot < 4)
  | .keyRevoke _ slot => decide (slot < 4)
  | .attestPeriodic => true
  | .mgmtRead _ _ => true
  | .mgmtWrite _ _ _ _ => true
  | .mgmtStatus _ => true
  | .mgmtFrameCut _ _ _ => true
  | .registerWrite _ addr _ => decide (addr < 2 ^ 32)
  | .rcRead _ addr => decide (addr < 2 ^ 32)
  | .latchingRead _ addr => decide (addr < 2 ^ 32)
  | .bitAliasAccess _ addr _ _ => decide (0x1000000 ≤ addr) && decide (addr < 0x2000000)
  | .logPop _ _ => true
  | .evtOutPulseEnd pin => decide (pin < 4)
  | .crystalFail => true
  | .standbyCrystalFail => true
  | .bothCrystalsFail => true
  | .xoFailRestart _ _ => true
  | .xoReturn _ _ => true
  | .xoCompareWindow _ _ => true
  | .regulatorUpdate src => decide (src < 8)
  | .sourceLost src => decide (src < 8)
  | .sourceTake src => decide (src < 8)
  | .ageingSample => true
  | .ageClear _ _ => true
  | .domStep _ d _ => decide (d < 4)
  | .domSetSec _ d _ => decide (d < 4)
  | .ppsOutEdge => true
  | .tisStamp edge _ _ => decide (edge.input < 8)
  | .tisPop _ input _ => decide (input < 8)
  | .coarseWrap => true
  | .iuArm _ u _ => decide (u < 4)
  | .iuTimeout u => decide (u < 4)
  | .fuStart _ f _ => decide (f < 2)
  | .fuGateEnd f => decide (f < 2)
  | .beatBoundary _ => true
  | .subbandLaunch _ k => decide (k < 8)
  | .lmonWindowClose _ => true
  | .planRestartEnd _ => true
  | .acquisitionStart _ => true
  | .intlkNLow _ => true
  | .intlkNHigh => true
  | .energyTrip _ => true
  | .tripClear _ _ _ => true
  | .ramanShot _ _ _ _ => true
  | .switchSettleEnd _ => true
  | .rangerBlockEval _ _ _ => true
  | .rangerStepUp _ _ => true
  | .cmFaultDeclare _ x => decide (x.input < 4)
  | .cmRecovery _ input => decide (input < 4)
  | .rfeFault ch => decide (ch < 4)
  | .apdLimit o => decide (o < 4)
  | .apdLimitClear _ o _ => decide (o < 4)
  | .apdSettleEnd _ => true
  | .hkcScanStart => true
  | .hkcSlot _ => true
  | .injReq _ _ => true
  | .gapLendingStart _ => true
  | .lendingEnd _ => true
  | .backgroundMeasurement slice _ _ => decide (slice < 146)
  | .conversionWatchdog slice => decide (slice < 146)
  | .sliceRetire _ _ => true
  | .ramanBackgroundMeasure _ _ _ => true
  | .rawWindowGo _ _ => true
  | .rawWindowDone _ => true
  | .pipeTickEmit _ _ _ _ _ => true
  | .ramanFrameBoundary _ => true
  | .ramanIdleEnd _ => true
  | .dtsProfileComplete _ => true
  | .tileArrival _ => true
  | .tileStart e => decide (e < 64)
  | .tileSteal e => decide (e < 64)
  | .resultHandoff _ => true
  | .engineFault x => decide (x.engine < 64)
  | .engineRetire _ _ => true
  | .nop e _ => decide (e < 64)
  | .mac2 e o _ => decide (e < 64) && macWf o
  | .msu2 e o _ => decide (e < 64) && macWf o
  | .mpy2 e o _ => decide (e < 64) && macWf o
  | .dot2 e o _ => decide (e < 64) && macWf o
  | .cmac e o _ => decide (e < 64) && macWf o
  | .cmacj e o _ => decide (e < 64) && macWf o
  | .cmpy e o _ => decide (e < 64) && macWf o
  | .cmpyj e o _ => decide (e < 64) && macWf o
  | .add2 e o _ => decide (e < 64) && aluWf o
  | .adds2 e o _ => decide (e < 64) && aluWf o
  | .sub2 e o _ => decide (e < 64) && aluWf o
  | .subs2 e o _ => decide (e < 64) && aluWf o
  | .and e o _ => decide (e < 64) && aluWf o
  | .or e o _ => decide (e < 64) && aluWf o
  | .xor e o _ => decide (e < 64) && aluWf o
  | .shl2 e dst a k _ => decide (e < 64) && decide (dst < 32) && decide (a < 32) && decide (k < 16)
  | .asr2 e dst a k _ => decide (e < 64) && decide (dst < 32) && decide (a < 32) && decide (k < 16)
  | .lsr e dst a k _ => decide (e < 64) && decide (dst < 32) && decide (a < 32) && decide (k < 32)
  | .max2 e o _ => decide (e < 64) && aluWf o
  | .min2 e o _ => decide (e < 64) && aluWf o
  | .abs2 e dst a _ => decide (e < 64) && decide (dst < 32) && decide (a < 32)
  | .cmpeq2 e o _ => decide (e < 64) && aluWf o
  | .qz2 e o _ _ => decide (e < 64) && aluWf o
  | .byte e dst a sub _ => decide (e < 64) && decide (dst < 32) && decide (a < 32) && decide (sub < 4)
  | .pack e o _ => decide (e < 64) && aluWf o
  | .mov e dst a _ => decide (e < 64) && decide (dst < 32) && decide (a < 32)
  | .movs e dst a _ _ => decide (e < 64) && decide (dst < 32) && decide (a < 32)
  | .extr2 e dst acc k _ => decide (e < 64) && decide (dst < 32) && decide (acc < 8) && decide (k < 40)
  | .extr e dst a k _ => decide (e < 64) && decide (dst < 32) && decide (a.acc < 8) && decide (k < 40)
  | .exp e dst a _ => decide (e < 64) && decide (dst < 32) && decide (a.acc < 8)
  | .norm e dst a _ => decide (e < 64) && decide (dst < 32) && decide (a.acc < 8)
  | .dnrm e dst a k _ => decide (e < 64) && decide (dst < 32) && decide (a < 32) && decide (-128 ≤ k) && decide (k ≤ 127)
  | .clra e acc _ => decide (e < 64) && decide (acc < 8)
  | .fold e acc _ => decide (e < 64) && decide (acc < 8)
  | .ld32 e o _ => decide (e < 64) && memWf o
  | .st32 e o _ => decide (e < 64) && memWf o
  | .ld16 e o _ => decide (e < 64) && memWf o
  | .st16 e o _ => decide (e < 64) && memWf o
  | .rot e _ => decide (e < 64)
  | .ldi e dst _ => decide (e < 64) && decide (dst < 32)
  | .ldis e dst _ => decide (e < 64) && decide (dst < 32)
  | .br e target cond d => decide (e < 64) && decide (target < 1024) && decide (cond < 4) && decide (d < 32)
  | .loop e start stop count creg => decide (e < 64) && decide (start < 1024) && decide (stop < 1024) && decide (count < 65536) && (match creg with | some r => decide (r < 32) | none => true)
  | .done e => decide (e < 64)
  | .rdreg e dst addrReg => decide (e < 64) && decide (dst < 32) && decide (addrReg < 32)
  | .rdregComplete e => decide (e < 64)
  | .trap e code => decide (e < 64) && decide (code < 256)
  | .zoneIntervalEnd _ => true
  | .overviewIntervalEnd _ => true
  | .channelRowEval c => decide (c < 32)
  | .captureTickRead slot => decide (slot < 16)
  | .chrArm _ _ => true
  | .rearmEnd c => decide (c < 32)
  | .codecBlock _ _ => true
  | .reserveBlockWrite => true
  | .dramRefresh ch rank _ => decide (ch < 2) && decide (rank < 4)
  | .refreshWindowEnd ch => decide (ch < 2)
  | .neighbourRefresh ch rank _ _ _ => decide (ch < 2) && decide (rank < 4)
  | .patrolScrub ch addrs _ _ _ => decide (ch < 2) && addrs.all fun a => decide (a % 64 = 0)
  | .ceWindowClose ch => decide (ch < 2)
  | .migrate _ ch _ => decide (ch < 2)
  | .migrationComplete ch errs => decide (ch < 2) && errs.all fun e => decide (e.addr % 64 = 0)
  | .caParityError ch _ _ => decide (ch < 2)
  | .freeze _ ch _ _ => decide (ch < 2)
  | .journalCopyComplete => true
  | .refclkLoss => true
  | .refclkOk => true
  | .laneTrainingDone n _ => decide (n < 4)
  | .laneTrainTimeout n => decide (n < 4)
  | .laneLockHeld n => decide (n < 4)
  | .laneAcquireTimeout n => decide (n < 4)
  | .laneFault n x => decide (n < 4) && decide (x.cause < 9)
  | .laneRetry n => decide (n < 4)
  | .prbsEnable _ line _ => decide (line.lane < 4)
  | .prbsInject _ line _ => decide (line.lane < 4)
  | .frameReceive n _ => decide (n < 4)
  | .pauseReceive n _ _ => decide (n < 4)
  | .announceReceive domain n _ => decide (domain < 256) && decide (n < 4)
  | .syncReceive n x _ => decide (n < 4) && decide (x.domain < 256)
  | .delayReqSend x => decide (x.unit < 4)
  | .ptpPortFail d => decide (d < 4)
  | .ptpRevert d => decide (d < 4)
  | .followUpReceive n _ => decide (n < 4)
  | .tcEntryExpire n _ _ _ => decide (n < 4)
  | .pdelayReqSend x => decide (x.unit < 4)
  | .pdelayReqReceive x => decide (x.port < 4)
  | .arpRequest n _ => decide (n < 4)
  | .neighbourExpire n _ => decide (n < 4)
  | .connectReq r => decide (r.ethPort < 4) && decide (r.pmtu < 3)
  | .helloTimeout slot => decide (slot < 64)
  | .hello h _ _ _ _ _ => headWf h
  | .auth h _ _ _ _ => headWf h
  | .read h _ _ => headWf h
  | .write h _ _ => headWf h
  | .getCert h _ => headWf h
  | .attestNow h _ => headWf h
  | .close h => headWf h
  | .ping h => headWf h
  | .doorbellWrite slot op _ => decide (slot < 64) && hostOpWf op
  | .rdmaAck slot _ => decide (slot < 64)
  | .ackTimeout slot => decide (slot < 64)
  | .sequenceNak slot => decide (slot < 64)
  | .cnpReceive slot => decide (slot < 64)
  | .rateRecovery slot => decide (slot < 64)
  | .recordProduce => true
  | .journalResume slot => decide (slot < 64)
  | .piWrite slot stream => decide (slot < 64) && decide (stream < 7)
  | .sessionPathFail slot => decide (slot < 64)
  | .housekeepingPeriodEnd periodMs => decide (1 ≤ periodMs) && decide (periodMs ≤ 65535)
  | .udpRecordSend policy _ => decide (policy < 64)
  | .dacScope _ => true
  | .adcScope _ _ => true
  | .cfeScope _ _ _ => true
  | .rfeScope _ _ => true
  | .hkcScope _ _ _ => true
  | .tisScope _ => true
  | .freqScope _ => true
  | .calResultWrite => true
  | .calAbort _ _ => true
  | .refInMeasurement _ => true
  | .delayRespReceive n x => decide (n < 4) && decide (x.domain < 256)
  | .pdelayRespReceive n _ => decide (n < 4)
  | .pauseExpire n => decide (n < 4)
  | .ppsOutPulseEnd => true
  | .neighbourUnreachable n _ => decide (n < 4)
  | .authFailClose slot => decide (slot < 64)
  | .calCommand _ _ => true
  | .nvmWindowWrite _ addr _ => decide (addr < 2 ^ 32)

end Sys2Proof
end

