-- ==== Sys2Proof/Decode.lean ====
section
/-!
DEFINITION. Decode.lean: the commands that a word spells. spec/opcode_table.json gives none of its rows any bits, so no word spells a command.
-/
namespace Sys2Proof

/-- The command that an `nbits`-bit word spells by the table's bits: none, for the table gives its rows no bits (log entry 44). -/
def decodeTableWord (_nbits _w : Nat) : Option Instr := none

end Sys2Proof
end

