-- ==== Sys2Proof/Machine/Mem.lean ====
section
/-!
DEFINITION. Machine/Mem.lean: sparse memories and register banks as lists of (key, value) pairs in one canonical form (keys
strictly rising, no entry equal to what an unlisted key reads as), and little-endian access to byte memories (R8).
-/
namespace Sys2Proof.Machine

/-- What key `k` of the sparse memory `m` holds; an unlisted key reads as `d`. -/
def mapGet {α : Type} (d : α) : List (Nat × α) → Nat → α
  | [], _ => d
  | (k', v) :: t, k => if k = k' then v else mapGet d t k

/-- The sparse memory without key `k`. -/
def mapDrop {α : Type} : List (Nat × α) → Nat → List (Nat × α)
  | [], _ => []
  | (k', v') :: t, k => if k = k' then mapDrop t k else (k', v') :: mapDrop t k

/-- The sparse memory with `v` listed at key `k`, before the first key above it. -/
def mapSet {α : Type} : List (Nat × α) → Nat → α → List (Nat × α)
  | [], k, v => [(k, v)]
  | (k', v') :: t, k, v =>
    if k < k' then (k, v) :: (k', v') :: t
    else if k = k' then (k, v) :: t
    else (k', v') :: mapSet t k v

/-- Store `v` at key `k`, keeping the canonical form: writing what an unlisted key reads as removes the entry. -/
def mapPut {α : Type} [DecidableEq α] (d : α) (m : List (Nat × α)) (k : Nat) (v : α) : List (Nat × α) :=
  if v = d then mapDrop m k else mapSet m k v

/-- The canonical form: keys strictly rising from at least `lo`, and no entry equal to `d`. -/
def mapWfFrom {α : Type} [DecidableEq α] (d : α) : Nat → List (Nat × α) → Bool
  | _, [] => true
  | lo, (k, v) :: t => decide (lo ≤ k) && decide (v ≠ d) && mapWfFrom d (k + 1) t

/-- The canonical form of a sparse memory. -/
def mapWf {α : Type} [DecidableEq α] (d : α) (m : List (Nat × α)) : Bool := mapWfFrom d 0 m

/-- Change the value at key `k`. -/
def mapMod {α : Type} [DecidableEq α] (d : α) (m : List (Nat × α)) (k : Nat) (f : α → α) : List (Nat × α) :=
  mapPut d m k (f (mapGet d m k))

/-- Keep the entries whose key satisfies `p`. -/
def mapKeep {α : Type} (p : Nat → Bool) (m : List (Nat × α)) : List (Nat × α) := m.filter fun e => p e.1

/-- The keys that are listed. -/
def mapKeys {α : Type} (m : List (Nat × α)) : List Nat := m.map (·.1)

/-- A byte memory: its cells are (address, byte) pairs (Host.Cell). -/
abbrev Mem := List (Nat × Byte)

/-- `n` bytes from address `a`, lowest first. -/
def memBytes (d : Byte) (m : Mem) (a : Nat) : Nat → List Byte
  | 0 => []
  | n + 1 => mapGet d m a :: memBytes d m (a + 1) n

/-- The number that a little-endian byte string stands for (R8). -/
def leNat : List Byte → Nat
  | [] => 0
  | b :: t => b.toNat + 256 * leNat t

/-- `n` bytes of `v`, little-endian (R8). -/
def leBytes : Nat → Nat → List Byte
  | 0, _ => []
  | n + 1, v => BitVec.ofNat 8 v :: leBytes n (v / 256)

/-- The number that a big-endian byte string stands for. -/
def beNat (l : List Byte) : Nat := leNat l.reverse

/-- `n` bytes of `v`, big-endian. -/
def beBytes (n v : Nat) : List Byte := (leBytes n v).reverse

/-- `n` little-endian bytes of a byte string at an offset. -/
def leAtOff (l : List Byte) (off n : Nat) : Nat := leNat ((l.drop off).take n)

/-- `n` big-endian bytes of a byte string at an offset. -/
def beAtOff (l : List Byte) (off n : Nat) : Nat := beNat ((l.drop off).take n)

/-- The `n`-byte little-endian number at address `a`. -/
def memLe (d : Byte) (m : Mem) (a n : Nat) : Nat := leNat (memBytes d m a n)

/-- Store the bytes `l` from address `a` up. -/
def memStore (d : Byte) : Mem → Nat → List Byte → Mem
  | m, _, [] => m
  | m, a, b :: t => memStore d (mapPut d m a b) (a + 1) t

/-- The number that the low `w` bits of `v` stand for in two's complement. -/
def signedOf (w v : Nat) : Int :=
  let u := v % 2 ^ w
  if u < 2 ^ (w - 1) then (u : Int) else (u : Int) - (2 ^ w : Nat)

/-- The two's-complement coding of `x` in `w` bits. -/
def codeOf (w : Nat) (x : Int) : Nat := (x % (2 ^ w : Nat)).toNat

/-- `x` limited to `lo` … `hi`. -/
def clampInt (lo hi x : Int) : Int := if x < lo then lo else if hi < x then hi else x

/-- Bit `n` of `v`. -/
def bitOf (v n : Nat) : Bool := v / 2 ^ n % 2 == 1

/-- Bits `msb` … `lsb` of `v` (R7). -/
def bitsOf (v msb lsb : Nat) : Nat := v / 2 ^ lsb % 2 ^ (msb - lsb + 1)

/-- `v` with bit `n` set to `b`. -/
def setBit (v n : Nat) (b : Bool) : Nat :=
  if b == bitOf v n then v else if b then v + 2 ^ n else v - 2 ^ n

/-- 1 for true, 0 for false. -/
def bit (b : Bool) : Nat := if b then 1 else 0

/-- The least multiple of `n` at or above `v`. -/
def alignUp (v n : Nat) : Nat := (v + n - 1) / n * n

/-- `⌈a / b⌉`. -/
def ceilDiv (a b : Nat) : Nat := (a + b - 1) / b

/-- `x / n` rounded to the nearest integer, ties away from zero. -/
def roundAway (x : Int) (n : Nat) : Int :=
  if 0 ≤ x then (2 * x + n) / (2 * n) else -((2 * (-x) + n) / (2 * n))

/-- `x / 2^s` rounded as round_s: add half, then shift arithmetically right (R249). -/
def roundShift (s : Nat) (x : Int) : Int := if s = 0 then x else (x + 2 ^ (s - 1)) / (2 ^ s)

/-- Replace element `i` of a list. -/
def listPut {α : Type} : List α → Nat → α → List α
  | [], _, _ => []
  | _ :: t, 0, v => v :: t
  | h :: t, i + 1, v => h :: listPut t i v

/-- Change element `i` of a list. -/
def listMod {α : Type} : List α → Nat → (α → α) → List α
  | [], _, _ => []
  | h :: t, 0, f => f h :: t
  | h :: t, i + 1, f => h :: listMod t i f

/-- The sum of a list of numbers. -/
def sumNat (l : List Nat) : Nat := l.foldl (· + ·) 0

/-- Insert an address in ascending order. -/
def insertNat (a : Nat) : List Nat → List Nat
  | [] => [a]
  | h :: t => if a < h then a :: h :: t else if a = h then h :: t else h :: insertNat a t

/-- Bytes of a 2 MiB segment. -/
def segBytes : Nat := 2097152

end Sys2Proof.Machine
end

