-- ==== Sys2Proof/Machine/Crc.lean ====
section
/-!
DEFINITION. Machine/Crc.lean: CRC-32C with the parameters of R66, the FCS of Ethernet and the CRC-8 of the management SPI (R86).
-/
namespace Sys2Proof.Machine

/-- One bit of the reflected CRC-32C division, polynomial 0x82F6_3B78 (R66). -/
def crc32cBit (c : Nat) : Nat := if c % 2 = 1 then (c / 2) ^^^ 0x82F63B78 else c / 2

/-- `n` bits of the division. -/
def crc32cBits : Nat → Nat → Nat
  | 0, c => c
  | n + 1, c => crc32cBits n (crc32cBit c)

/-- crc32c_update of R66 with one byte. -/
def crc32cByte (c : Nat) (b : Byte) : Nat := crc32cBits 8 (c ^^^ b.toNat)

/-- crc32c_update of R66 with a byte string, on the running value. -/
def crc32cUpdate (c : Nat) (l : List Byte) : Nat := l.foldl crc32cByte c

/-- CRC-32C: initial value 0xFFFF_FFFF, final XOR 0xFFFF_FFFF (R66). -/
def crc32c (l : List Byte) : Nat := crc32cUpdate 0xFFFFFFFF l ^^^ 0xFFFFFFFF

/-- One bit of the reflected division of the Ethernet FCS, polynomial 0xEDB8_8320 (IEEE 802.3; PRESUMED, log entry 84). -/
def crc32Bit (c : Nat) : Nat := if c % 2 = 1 then (c / 2) ^^^ 0xEDB88320 else c / 2

/-- The division with one byte. -/
def crc32Byte (c : Nat) (b : Byte) : Nat :=
  crc32Bit (crc32Bit (crc32Bit (crc32Bit (crc32Bit (crc32Bit (crc32Bit (crc32Bit (c ^^^ b.toNat))))))))

/-- The FCS of a frame's bytes: initial value and final XOR 0xFFFF_FFFF. -/
def crc32 (l : List Byte) : Nat := l.foldl crc32Byte 0xFFFFFFFF ^^^ 0xFFFFFFFF

/-- One bit of the CRC-8 division, polynomial 0x07, not reflected (R86). -/
def crc8Bit (c : Nat) : Nat := if 128 ≤ c then (c * 2 % 256) ^^^ 0x07 else c * 2

/-- CRC-8 over a byte string: initial value 0x00, no final XOR (R86). -/
def crc8 (l : List Byte) : Nat :=
  l.foldl (fun c b => crc8Bit (crc8Bit (crc8Bit (crc8Bit (crc8Bit (crc8Bit (crc8Bit (crc8Bit (c ^^^ b.toNat))))))))) 0

end Sys2Proof.Machine
end

