-- ==== Sys2Proof/Machine/RegMap.lean ====
section
/-!
DEFINITION. Machine/RegMap.lean: the register maps of the spec as data: for each block of Table 04-3, every register of its
table, with each field's bits, access code (Table 00-4), guard (R71), reset value (R11), boundary domain (R4 and the domain
sentences of R93, R94, R118, R119, R142, R171, R172, R192, R219, R240, R273, R297, R298, R312, R347, R371, R372, R402, R421)
and the values that are not reserved encodings (R10). Made by a script from the spec's own register tables.
-/
namespace Sys2Proof.Machine

/-- Access codes of Table 00-4; the prefix G- is the flag `guarded` of a field. -/
inductive Access where
  | rw | ro | rc | w1c | w1s | wo | rws | rwi
deriving DecidableEq, Repr

/-- Where a field's value at the start comes from (R11): its reset value, the image (step 8) or the calibration store (step 3). -/
inductive Src where
  | none | image | cal
deriving DecidableEq, Repr

/-- The rule that gives a field its boundary domain (R4): the module boundary; the beat or the Raman frame domain of the port
that the register's array index or block half names; `raman2` the Raman frame domain of the port of an APD output (R159);
`tisCtrl` the split of TIS.CTRL (R119). -/
inductive DomRule where
  | module | beat | raman | raman2 | tisCtrl
deriving DecidableEq, Repr

/-- The values of a field that are no reserved encoding (R10), as its description gives them. -/
inductive Ok where
  | any
  | rng (lo hi : Nat)
  | mul64 (lo hi : Nat)
  | trim
  | regSrc
  | scanList
  | groupIndex
  | chrSrc
  | injRate
  | log4
deriving DecidableEq, Repr

/-- One field of a register map. -/
structure FieldSpec where
  msb : Nat
  lsb : Nat
  acc : Access
  guarded : Bool
  rst : Nat
  src : Src
  dom : DomRule
  ok : Ok
deriving DecidableEq, Repr

/-- One register, or `count` registers `stride` bytes apart, at offset `off` of its block. -/
structure RegRow where
  off : Nat
  stride : Nat
  count : Nat
  fields : List FieldSpec
deriving DecidableEq, Repr

/-- A field with no guard and no reserved encodings. -/
def FieldSpec.plain (msb lsb : Nat) (acc : Access) (rst : Nat) : FieldSpec :=
  ⟨msb, lsb, acc, false, rst, .none, .module, .any⟩

/-- A shadowed field loaded from the image. -/
def FieldSpec.setting (msb lsb : Nat) (dom : DomRule) (ok : Ok) : FieldSpec :=
  ⟨msb, lsb, .rws, false, 0, .image, dom, ok⟩


/-! ### SYS block -/

def sysRows0 : List RegRow := [
  -- ID
  ⟨0x0, 0x4, 1, [.plain 31 16 .ro 29024, ⟨15, 8, .ro, false, 0, .cal, .module, .any⟩, ⟨7, 0, .ro, false, 0, .cal, .module, .any⟩]⟩,
  -- FW_VER
  ⟨0x4, 0x4, 1, [.plain 31 0 .ro 0]⟩,
  -- SERIAL_LO
  ⟨0x8, 0x4, 1, [⟨31, 0, .ro, false, 0, .cal, .module, .any⟩]⟩,
  -- SERIAL_HI
  ⟨0xC, 0x4, 1, [⟨31, 0, .ro, false, 0, .cal, .module, .any⟩]⟩,
  -- STATE
  ⟨0x10, 0x4, 1, [.plain 14 14 .ro 0, .plain 13 13 .ro 0, .plain 12 12 .ro 0, .plain 11 8 .ro 0, .plain 7 4 .ro 0, .plain 2 0 .ro 0]⟩,
  -- POWER
  ⟨0x14, 0x4, 1, [.plain 5 5 .ro 0, .plain 4 4 .ro 1, .plain 3 3 .ro 0, .plain 2 2 .ro 0, .plain 1 1 .ro 0, .plain 0 0 .ro 0]⟩,
  -- MEM
  ⟨0x18, 0x4, 1, [.plain 3 3 .ro 0, .plain 2 2 .ro 0, .plain 1 1 .ro 0, .plain 0 0 .ro 0]⟩,
  -- PWR_STATE
  ⟨0x1C, 0x4, 1, [.plain 2 0 .ro 0]⟩,
  -- DEVTIME_LO
  ⟨0x20, 0x4, 1, [.plain 31 0 .ro 0]⟩,
  -- DEVTIME_HI
  ⟨0x24, 0x4, 1, [.plain 31 0 .ro 0]⟩,
  -- BOOT_EPOCH
  ⟨0x28, 0x4, 1, [.plain 31 0 .ro 0]⟩,
  -- RESET_CAUSE
  ⟨0x2C, 0x4, 1, [.plain 3 0 .ro 0]⟩]

def sysRows1 : List RegRow := [
  -- VIOL_CNT
  ⟨0x30, 0x4, 1, [.plain 15 0 .rc 0]⟩,
  -- VIOL_LAST
  ⟨0x34, 0x4, 1, [.plain 28 28 .ro 0, .plain 27 26 .ro 0, .plain 24 0 .ro 0]⟩,
  -- ACC_ERR_CNT
  ⟨0x38, 0x4, 1, [.plain 15 0 .rc 0]⟩,
  -- ACC_ERR_LAST
  ⟨0x3C, 0x4, 1, [.plain 28 28 .ro 0, .plain 27 26 .ro 0, .plain 24 0 .ro 0]⟩,
  -- MGMT_CTRL
  ⟨0x40, 0x4, 1, [.plain 0 0 .rwi 0]⟩,
  -- SCRATCH
  ⟨0x44, 0x4, 1, [.plain 31 0 .rw 0]⟩,
  -- RESET
  ⟨0x50, 0x4, 1, [⟨31, 16, .wo, true, 0, .none, .module, .any⟩, ⟨15, 10, .wo, true, 0, .none, .module, .any⟩, ⟨8, 8, .wo, true, 0, .none, .module, .any⟩, ⟨7, 4, .wo, true, 0, .none, .module, .any⟩, ⟨2, 2, .wo, true, 0, .none, .module, .any⟩, ⟨1, 1, .wo, true, 0, .none, .module, .any⟩, ⟨0, 0, .wo, true, 0, .none, .module, .any⟩]⟩]

/-- The register map of SYS. -/
def sysRows : List RegRow := sysRows0 ++ sysRows1

/-! ### CFG block -/

def cfgRows0 : List RegRow := [
  -- COMMIT
  ⟨0x0, 0x4, 1, [.plain 4 0 .wo 0]⟩,
  -- COMMIT_STATUS
  ⟨0x4, 0x4, 1, [.plain 23 22 .ro 0, .plain 21 20 .ro 0, .plain 12 8 .ro 0, .plain 7 0 .ro 0]⟩,
  -- FAIL_ADDR
  ⟨0x8, 0x4, 1, [.plain 24 0 .ro 0]⟩,
  -- EPOCH
  ⟨0xC, 0x4, 1, [.plain 31 0 .ro 0]⟩,
  -- EPOCH_PEND
  ⟨0x10, 0x4, 1, [.plain 31 0 .ro 0]⟩,
  -- ABORT
  ⟨0x14, 0x4, 1, [.plain 0 0 .wo 0]⟩,
  -- COUNTS
  ⟨0x18, 0x4, 1, [.plain 15 8 .rc 0, .plain 7 0 .rc 0]⟩,
  -- CRC_REF
  ⟨0x20, 0x4, 1, [.setting 31 0 .module .any]⟩,
  -- CRC_CTRL
  ⟨0x24, 0x4, 1, [.setting 2 1 .module (.rng 0 2), .setting 0 0 .module .any]⟩,
  -- CRC_LAST
  ⟨0x28, 0x4, 1, [.plain 31 0 .ro 0]⟩,
  -- CRC_STATUS
  ⟨0x2C, 0x4, 1, [.plain 31 16 .rc 0, .plain 1 1 .ro 0, .plain 0 0 .ro 0]⟩]

/-- The register map of CFG. -/
def cfgRows : List RegRow := cfgRows0

/-! ### EVT block -/

def evtRows0 : List RegRow := [
  -- PEND
  ⟨0x0, 0x4, 1, [.plain 31 0 .w1c 0]⟩,
  -- IRQ_EN
  ⟨0x4, 0x4, 1, [.plain 31 0 .rw 0]⟩,
  -- OUT_SEL
  ⟨0x10, 0x4, 4, [.setting 31 0 .module .any]⟩,
  -- OUT_CTRL
  ⟨0x20, 0x4, 1, [.setting 15 8 .module (.rng 1 255), .setting 3 0 .module .any]⟩,
  -- LOG_COUNT
  ⟨0x30, 0x4, 1, [.plain 15 8 .rc 0, .plain 4 0 .ro 0]⟩,
  -- LOG_POP
  ⟨0x34, 0x4, 1, [.plain 0 0 .wo 0]⟩,
  -- LOG_CODE
  ⟨0x40, 0x4, 1, [.plain 25 24 .ro 0, .plain 23 16 .ro 0, .plain 15 0 .ro 0]⟩,
  -- LOG_TIME_LO
  ⟨0x44, 0x4, 1, [.plain 31 0 .ro 0]⟩,
  -- LOG_TIME_HI
  ⟨0x48, 0x4, 1, [.plain 31 0 .ro 0]⟩,
  -- LOG_ARG
  ⟨0x4C, 0x4, 1, [.plain 31 0 .ro 0]⟩]

/-- The register map of EVT. -/
def evtRows : List RegRow := evtRows0

/-! ### CLK block -/

def clkRows0 : List RegRow := [
  -- XO_STATUS
  ⟨0x0, 0x4, 1, [.plain 15 8 .rc 0, .plain 5 5 .ro 0, .plain 4 4 .ro 0, .plain 2 2 .ro 0, .plain 1 1 .ro 0, .plain 0 0 .ro 0]⟩,
  -- XO_CTRL
  ⟨0x4, 0x4, 1, [.plain 0 0 .wo 0]⟩,
  -- TRIM
  ⟨0x8, 0x4, 1, [.plain 31 0 .ro 0]⟩,
  -- TRIM_MAN
  ⟨0xC, 0x4, 1, [.setting 31 0 .module .trim]⟩,
  -- REG_CTRL
  ⟨0x10, 0x4, 1, [.setting 15 8 .module (.rng 1 255), .setting 7 4 .module (.rng 0 13), .setting 0 0 .module .any]⟩,
  -- REG_SRC
  ⟨0x14, 0x4, 1, [.setting 31 0 .module .regSrc]⟩,
  -- REG_STATUS
  ⟨0x18, 0x4, 1, [.plain 5 3 .ro 7, .plain 2 0 .ro 0]⟩,
  -- PHASE_ERR
  ⟨0x1C, 0x4, 1, [.plain 31 0 .ro 0]⟩,
  -- AGE_RATE
  ⟨0x20, 0x4, 1, [.plain 31 0 .ro 0]⟩,
  -- AGE_HOURS
  ⟨0x24, 0x4, 1, [.plain 15 0 .ro 0]⟩,
  -- AGE_CLEAR
  ⟨0x28, 0x4, 1, [.plain 0 0 .wo 0]⟩,
  -- PPS_OUT_CTRL
  ⟨0x40, 0x4, 1, [.setting 15 8 .module (.rng 1 255), .setting 2 0 .module (.rng 0 5)]⟩]

def clkRows1 : List RegRow := [
  -- PPS_OUT_DELAY
  ⟨0x44, 0x4, 1, [.setting 15 0 .module .any]⟩,
  -- DOM_CTRL
  ⟨0x100, 0x20, 4, [.setting 8 8 .module .any, .setting 7 0 .module .any]⟩,
  -- DOM_NS
  ⟨0x104, 0x20, 4, [.plain 31 0 .ro 0]⟩,
  -- DOM_SEC_LO
  ⟨0x108, 0x20, 4, [.plain 31 0 .ro 0]⟩,
  -- DOM_SEC_HI
  ⟨0x10C, 0x20, 4, [.plain 15 0 .ro 0]⟩,
  -- DOM_FRAC
  ⟨0x110, 0x20, 4, [.plain 15 0 .ro 0]⟩,
  -- DOM_RATE
  ⟨0x114, 0x20, 4, [.plain 31 0 .rwi 0]⟩,
  -- DOM_STEP
  ⟨0x118, 0x20, 4, [.plain 31 0 .wo 0]⟩,
  -- DOM_SET_SEC
  ⟨0x11C, 0x20, 4, [.plain 31 0 .wo 0]⟩]

/-- The register map of CLK. -/
def clkRows : List RegRow := clkRows0 ++ clkRows1

/-! ### TIS block -/

def tisRows0 : List RegRow := [
  -- CTRL
  ⟨0x0, 0x4, 1, [.setting 15 10 .tisCtrl .any, .setting 9 9 .tisCtrl .any, .setting 8 8 .tisCtrl .any, .setting 7 2 .tisCtrl .any,
    .setting 1 1 .tisCtrl .any, .setting 0 0 .tisCtrl .any]⟩,
  -- STATUS
  ⟨0x4, 0x4, 1, [.plain 0 0 .w1c 0]⟩,
  -- COARSE_LO
  ⟨0x8, 0x4, 1, [.plain 31 0 .ro 0]⟩,
  -- COARSE_HI
  ⟨0xC, 0x4, 1, [.plain 15 0 .ro 0]⟩,
  -- DEAD_LO
  ⟨0x10, 0x4, 1, [.plain 31 0 .rc 0]⟩,
  -- DEAD_HI
  ⟨0x14, 0x4, 1, [.plain 31 0 .rc 0]⟩,
  -- LOST_LO
  ⟨0x18, 0x4, 1, [.plain 31 0 .rc 0]⟩,
  -- LOST_HI
  ⟨0x1C, 0x4, 1, [.plain 31 0 .rc 0]⟩,
  -- STAMP_LO
  ⟨0x40, 0x10, 8, [.plain 31 0 .ro 0]⟩,
  -- STAMP_HI
  ⟨0x44, 0x10, 8, [.plain 31 31 .ro 0, .plain 30 26 .ro 0, .plain 25 16 .ro 0, .plain 15 0 .ro 0]⟩,
  -- POP
  ⟨0x48, 0x10, 8, [.plain 0 0 .wo 0]⟩,
  -- IU_CTRL
  ⟨0x100, 0x20, 4, [.plain 31 16 .rwi 0, .plain 14 14 .rwi 0, .plain 11 11 .w1s 0, .plain 10 8 .rwi 0, .plain 6 4 .rwi 0]⟩]

def tisRows1 : List RegRow := [
  -- IU_STATUS
  ⟨0x104, 0x20, 4, [.plain 15 8 .rc 0, .plain 5 5 .ro 0, .plain 4 4 .ro 0, .plain 3 3 .ro 0, .plain 2 2 .ro 0, .plain 1 1 .ro 0, .plain 0 0 .rc 0]⟩,
  -- IU_RES_LO
  ⟨0x108, 0x20, 4, [.plain 31 0 .ro 0]⟩,
  -- IU_RES_HI
  ⟨0x10C, 0x20, 4, [.plain 31 0 .ro 0]⟩,
  -- FU_CTRL
  ⟨0x180, 0x20, 2, [.plain 30 28 .rwi 0, ⟨27, 23, .rwi, false, 0, .none, .module, .rng 0 20⟩, .plain 22 22 .rwi 0, .plain 21 21 .w1s 0, ⟨16, 0, .rwi, false, 1000, .none, .module, .rng 1 100000⟩]⟩,
  -- FU_STATUS
  ⟨0x184, 0x20, 2, [.plain 31 16 .ro 0, .plain 2 2 .ro 0, .plain 1 1 .ro 0, .plain 0 0 .rc 0]⟩,
  -- FU_POINTS
  ⟨0x188, 0x20, 2, [.plain 16 0 .ro 0]⟩,
  -- FU_FREQ_LO
  ⟨0x18C, 0x20, 2, [.plain 31 0 .ro 0]⟩,
  -- FU_FREQ_HI
  ⟨0x190, 0x20, 2, [.plain 31 0 .ro 0]⟩]

/-- The register map of TIS. -/
def tisRows : List RegRow := tisRows0 ++ tisRows1

/-! ### ESC block -/

def escRows0 : List RegRow := [
  -- CTRL
  ⟨0x0, 0x4, 1, [.setting 0 0 .beat .any]⟩,
  -- STATUS
  ⟨0x4, 0x4, 1, [.plain 19 16 .ro 0, .plain 4 4 .ro 0, .plain 3 3 .ro 0, .plain 2 2 .ro 0, .plain 1 1 .ro 0, .plain 0 0 .ro 0]⟩,
  -- BEAT_LO
  ⟨0x8, 0x4, 1, [.plain 31 0 .ro 0]⟩,
  -- BEAT_HI
  ⟨0xC, 0x4, 1, [.plain 31 0 .ro 0]⟩,
  -- PLAN_ERR
  ⟨0x10, 0x4, 1, [.plain 10 8 .ro 0, .plain 4 0 .ro 0]⟩,
  -- DARK_CNT
  ⟨0x14, 0x4, 1, [.plain 31 0 .rc 0]⟩,
  -- GATE_HOLD
  ⟨0x20, 0x4, 1, [.setting 7 0 .beat .any]⟩,
  -- PSY_FS
  ⟨0x24, 0x4, 1, [.setting 15 0 .beat (.rng 500 4000)]⟩,
  -- LMON_CTRL
  ⟨0x30, 0x4, 1, [.setting 16 16 .beat .any, .setting 7 0 .beat (.rng 5 150)]⟩,
  -- LMON_DELAY
  ⟨0x34, 0x4, 1, [.plain 31 0 .ro 0]⟩,
  -- LMON_MISS_CNT
  ⟨0x38, 0x4, 1, [.plain 15 0 .rc 0]⟩,
  -- LMON_STRAY_CNT
  ⟨0x3C, 0x4, 1, [.plain 15 0 .rc 0]⟩]

def escRows1 : List RegRow := [
  -- SW_CTRL
  ⟨0x40, 0x4, 1, [.setting 25 16 .raman (.rng 1 1000), .setting 4 0 .raman (.rng 1 16)]⟩,
  -- SW_SEQ_LO
  ⟨0x44, 0x4, 1, [.setting 31 0 .raman .any]⟩,
  -- SW_SEQ_HI
  ⟨0x48, 0x4, 1, [.setting 31 0 .raman .any]⟩,
  -- SW_STATUS
  ⟨0x4C, 0x4, 1, [.plain 8 8 .ro 0, .plain 7 4 .ro 0, .plain 3 0 .ro 0]⟩,
  -- RTRIG_CTRL
  ⟨0x50, 0x4, 1, [.setting 7 0 .raman (.rng 1 255)]⟩,
  -- LIM_GATE
  ⟨0x80, 0x4, 1, [⟨23, 8, .rws, true, 0, .image, .module, .any⟩, ⟨7, 0, .rws, true, 0, .image, .module, .any⟩]⟩,
  -- LIM_DUTY
  ⟨0x84, 0x4, 1, [⟨11, 0, .rws, true, 0, .image, .module, .any⟩]⟩,
  -- LIM_PSY
  ⟨0x88, 0x4, 1, [⟨10, 0, .rws, true, 0, .image, .module, .any⟩]⟩,
  -- INTLK_OVR
  ⟨0x90, 0x4, 1, [⟨0, 0, .rwi, true, 0, .none, .module, .any⟩]⟩,
  -- TRIP
  ⟨0x94, 0x4, 1, [⟨0, 0, .w1c, true, 0, .none, .module, .any⟩]⟩]

/-- The register map of ESC. -/
def escRows : List RegRow := escRows0 ++ escRows1

/-! ### AFE block -/

def afeRows0 : List RegRow := [
  -- CFE_CTRL
  ⟨0x0, 0x100, 2, [.setting 15 8 .beat (.rng 1 255), .setting 5 4 .beat .any, .setting 3 2 .beat .any, .setting 0 0 .beat .any]⟩,
  -- CFE_CM
  ⟨0x4, 0x100, 2, [.setting 19 16 .beat .any, .setting 15 8 .beat (.rng 21 120), .setting 7 0 .beat (.rng 20 119)]⟩,
  -- CFE_STATUS
  ⟨0x8, 0x100, 2, [.plain 11 8 .ro 0, .plain 5 4 .ro 0, .plain 3 2 .ro 0]⟩,
  -- CFE_CLAMP_CNT
  ⟨0xC, 0x100, 2, [.plain 31 0 .rc 0]⟩,
  -- CFE_RANGE_CNT
  ⟨0x10, 0x100, 2, [.plain 31 16 .rc 0, .plain 15 0 .rc 0]⟩,
  -- CFE_FAULT_CNT
  ⟨0x14, 0x100, 2, [.plain 31 0 .rc 0]⟩,
  -- RFE_CTRL
  ⟨0x40, 0x100, 2, [.setting 5 4 .raman .any, .setting 3 2 .raman .any, .setting 0 0 .raman .any]⟩,
  -- RFE_NBIN
  ⟨0x44, 0x100, 2, [.setting 17 0 .raman (.rng 1 240000)]⟩,
  -- RFE_SAT_CNT
  ⟨0x48, 0x100, 2, [.plain 31 16 .rc 0, .plain 15 0 .rc 0]⟩,
  -- RFE_BIN
  ⟨0x200, 0x4, 1, [.setting 23 16 .module (.rng 8 255), .setting 15 0 .module .any]⟩,
  -- APD_CTRL
  ⟨0x300, 0x10, 4, [.setting 17 16 .raman2 (.rng 0 2), .setting 15 14 .raman2 (.rng 0 2), .setting 13 0 .raman2 .any]⟩,
  -- APD_STATUS
  ⟨0x304, 0x10, 4, [.plain 17 17 .w1c 0, .plain 16 16 .ro 0, .plain 13 0 .ro 0]⟩]

def afeRows1 : List RegRow := [
  -- APD_LIM
  ⟨0x308, 0x10, 4, [⟨13, 0, .rws, true, 0, .image, .module, .any⟩]⟩,
  -- APD_SETTLE
  ⟨0x340, 0x4, 1, [.setting 23 16 .module .any, .setting 9 0 .module (.rng 1 1000)]⟩]

/-- The register map of AFE. -/
def afeRows : List RegRow := afeRows0 ++ afeRows1

/-! ### HKC block -/

def hkcRows0 : List RegRow := [
  -- HKC_CTRL
  ⟨0x0, 0x4, 1, [.setting 23 16 .module (.rng 0 32), .setting 15 0 .module (.rng 1 65535)]⟩,
  -- RTD_CTRL
  ⟨0x4, 0x4, 1, [.setting 23 16 .module (.rng 1 255), .setting 6 6 .module .any, .setting 5 5 .module .any, .setting 4 4 .module .any, .setting 2 0 .module .any]⟩,
  -- INJ_REQ
  ⟨0x8, 0x4, 1, [.plain 4 0 .wo 0]⟩,
  -- INJ_STATUS
  ⟨0xC, 0x4, 1, [.plain 9 9 .w1c 0, .plain 8 8 .w1c 0, .plain 2 0 .ro 0]⟩,
  -- INJ_DONE
  ⟨0x10, 0x4, 1, [.plain 31 0 .w1c 0]⟩,
  -- STATUS
  ⟨0x14, 0x4, 1, [.plain 31 16 .rc 0, .plain 2 2 .ro 0, .plain 1 1 .ro 0, .plain 0 0 .ro 0]⟩,
  -- SCAN_LIST
  ⟨0x40, 0x4, 8, [.setting 31 0 .module .scanList]⟩,
  -- VAL
  ⟨0x100, 0x8, 32, [.plain 31 0 .ro 0]⟩,
  -- RAW
  ⟨0x104, 0x8, 32, [.plain 31 31 .ro 0, .plain 30 30 .ro 0, .plain 29 29 .ro 0, .plain 28 28 .ro 0, .plain 11 0 .ro 0]⟩]

/-- The register map of HKC. -/
def hkcRows : List RegRow := hkcRows0

/-! ### ADC block -/

def adcRows0 : List RegRow := [
  -- CTRL
  ⟨0x0, 0x4, 1, [.setting 1 1 .module .any, .setting 0 0 .module .any]⟩,
  -- STATUS
  ⟨0x4, 0x4, 1, [.plain 31 24 .ro 0, .plain 23 16 .ro 0, .plain 1 0 .ro 0]⟩,
  -- GRP_MAP
  ⟨0x10, 0x4, 8, [.plain 28 24 .ro 31, .plain 16 0 .ro 0]⟩,
  -- RAMAN_MAP
  ⟨0x30, 0x4, 1, [.plain 31 24 .ro 0, .plain 23 20 .ro 15, .plain 19 16 .ro 15, .plain 9 0 .ro 0]⟩,
  -- SPARE_POLICY
  ⟨0x40, 0x4, 1, [⟨0, 0, .rws, true, 0, .image, .module, .any⟩]⟩,
  -- SPARE_CTRL
  ⟨0x44, 0x4, 1, [⟨31, 16, .wo, true, 0, .none, .module, .any⟩, ⟨8, 8, .wo, true, 0, .none, .module, .any⟩, ⟨7, 0, .wo, true, 0, .none, .module, .any⟩]⟩,
  -- LAST_FAIL
  ⟨0x48, 0x4, 1, [.plain 15 8 .ro 0, .plain 2 0 .ro 0]⟩,
  -- FAIL_CNT
  ⟨0x4C, 0x4, 1, [.plain 15 0 .rc 0]⟩,
  -- CORR_GEN_A
  ⟨0x50, 0x4, 1, [.plain 31 0 .ro 0]⟩,
  -- CORR_GEN_B
  ⟨0x54, 0x4, 1, [.plain 31 0 .ro 0]⟩,
  -- CORR_GEN_RA
  ⟨0x58, 0x4, 1, [.plain 31 0 .ro 0]⟩,
  -- CORR_GEN_RB
  ⟨0x5C, 0x4, 1, [.plain 31 0 .ro 0]⟩]

def adcRows1 : List RegRow := [
  -- ROT
  ⟨0x60, 0x4, 1, [.plain 12 8 .ro 0, .plain 4 0 .ro 0]⟩,
  -- RAW_START
  ⟨0x80, 0x4, 1, [.plain 31 0 .rwi 0]⟩,
  -- RAW_LEN
  ⟨0x84, 0x4, 1, [⟨16, 0, .rwi, false, 1, .none, .module, .rng 1 65536⟩]⟩,
  -- RAW_CTRL
  ⟨0x88, 0x4, 1, [.plain 15 8 .rwi 0, .plain 1 1 .rwi 0, .plain 0 0 .w1s 0]⟩,
  -- RAW_STATUS
  ⟨0x8C, 0x4, 1, [.plain 31 16 .ro 0, .plain 6 4 .ro 0, .plain 3 3 .ro 0, .plain 2 2 .w1c 0, .plain 1 1 .w1c 0, .plain 0 0 .ro 0]⟩]

/-- The register map of ADC. -/
def adcRows : List RegRow := adcRows0 ++ adcRows1

/-! ### CPP block -/

def cppRows0 : List RegRow := [
  -- CTRL
  ⟨0x0, 0x4, 1, [.setting 31 24 .beat .any, .setting 23 20 .beat (.rng 1 15), .setting 19 16 .beat (.rng 2 12), .setting 15 12 .beat (.rng 2 14), .setting 10 8 .beat .any, .setting 1 1 .beat .any]⟩,
  -- GAUGE
  ⟨0x4, 0x4, 1, [.setting 10 0 .beat (.rng 1 1024)]⟩,
  -- CELL0_DLY
  ⟨0x8, 0x4, 1, [.setting 15 0 .beat .any]⟩,
  -- LAMBDA
  ⟨0xC, 0x4, 1, [.setting 20 0 .beat (.rng 1200000 1700000)]⟩,
  -- XI_PE
  ⟨0x10, 0x4, 1, [.setting 15 0 .beat (.rng 32768 65535)]⟩,
  -- SR_LSB
  ⟨0x14, 0x4, 1, [.setting 23 0 .beat (.rng 1 16777215)]⟩,
  -- SCALE
  ⟨0x18, 0x4, 1, [.plain 29 24 .ro 0, .plain 23 0 .ro 0]⟩,
  -- INFO
  ⟨0x1C, 0x4, 1, [.plain 27 24 .ro 0, .plain 20 16 .ro 0, .plain 13 0 .ro 0]⟩,
  -- STATE_BYTES
  ⟨0x20, 0x4, 1, [.plain 31 0 .ro 0]⟩,
  -- LAT_BOUND
  ⟨0x24, 0x4, 1, [.plain 31 0 .ro 0]⟩,
  -- STATUS
  ⟨0x28, 0x4, 1, [.plain 1 1 .ro 0, .plain 0 0 .ro 0]⟩,
  -- INVALID_CNT
  ⟨0x40, 0x4, 1, [.plain 31 0 .rc 0]⟩]

def cppRows1 : List RegRow := [
  -- MARK_CNT
  ⟨0x44, 0x4, 1, [.plain 31 0 .rc 0]⟩,
  -- RESYNC_CNT
  ⟨0x48, 0x4, 1, [.plain 31 0 .rc 0]⟩,
  -- FILLED_CNT
  ⟨0x4C, 0x4, 1, [.plain 31 0 .rc 0]⟩,
  -- FADED_CNT
  ⟨0x50, 0x4, 1, [.plain 31 0 .rc 0]⟩,
  -- BLANK_CNT
  ⟨0x54, 0x4, 1, [.plain 31 0 .rc 0]⟩,
  -- CLIP_CNT
  ⟨0x58, 0x4, 1, [.plain 31 0 .rc 0]⟩,
  -- STATE_ECC_CNT
  ⟨0x5C, 0x4, 1, [.plain 15 0 .rc 0]⟩]

/-- The register map of CPP. -/
def cppRows : List RegRow := cppRows0 ++ cppRows1

/-! ### DTS block -/

def dtsRows0 : List RegRow := [
  -- SHOT_CTRL
  ⟨0x0, 0x4, 1, [.setting 17 16 .module (.rng 0 2), .setting 15 8 .module (.rng 1 255)]⟩,
  -- T_SHOT
  ⟨0x4, 0x4, 1, [.setting 24 0 .module (.rng 12000 24000000)]⟩,
  -- LOCK_OFS
  ⟨0x8, 0x4, 1, [.setting 20 0 .module (.rng 0 1919999)]⟩,
  -- FRAME
  ⟨0xC, 0x4, 1, [.setting 24 0 .module (.rng 1 16777216)]⟩,
  -- IDLE
  ⟨0x10, 0x4, 1, [.setting 15 0 .module .any]⟩,
  -- STATUS
  ⟨0x14, 0x4, 1, [.plain 4 4 .ro 0, .plain 3 3 .ro 0, .plain 2 2 .ro 0, .plain 1 1 .ro 0, .plain 0 0 .ro 0]⟩,
  -- FRAME_SHOTS
  ⟨0x18, 0x4, 1, [.plain 24 0 .ro 0]⟩,
  -- CHK_ERR
  ⟨0x1C, 0x4, 1, [.plain 12 12 .ro 0, .plain 11 8 .ro 0, .plain 4 0 .ro 0]⟩,
  -- SUPP_CNT
  ⟨0x20, 0x4, 1, [.plain 31 0 .rc 0]⟩,
  -- EXCL_CNT
  ⟨0x24, 0x4, 1, [.plain 31 0 .rc 0]⟩,
  -- ABANDON_CNT
  ⟨0x28, 0x4, 1, [.plain 15 0 .rc 0]⟩,
  -- CTRL
  ⟨0x100, 0x100, 2, [.setting 15 8 .raman (.rng 1 255), .setting 0 0 .raman .any]⟩]

def dtsRows1 : List RegRow := [
  -- GAMMA
  ⟨0x104, 0x100, 2, [.setting 31 0 .raman (.rng 300000 1000000)]⟩,
  -- NG_R
  ⟨0x108, 0x100, 2, [.setting 31 0 .raman .groupIndex]⟩,
  -- Z0_BIN
  ⟨0x10C, 0x100, 2, [.setting 17 0 .raman .any]⟩,
  -- DARK
  ⟨0x110, 0x100, 2, [.setting 29 18 .raman .any, .setting 17 0 .raman .any]⟩,
  -- PROF_CNT
  ⟨0x114, 0x100, 2, [.plain 31 0 .rc 0]⟩,
  -- LAST
  ⟨0x118, 0x100, 2, [.plain 19 16 .ro 0, .plain 15 0 .ro 0]⟩,
  -- LAST_CONST
  ⟨0x11C, 0x100, 2, [.plain 31 0 .ro 0]⟩,
  -- LAST_INV
  ⟨0x120, 0x100, 2, [.plain 17 0 .ro 0]⟩]

/-- The register map of DTS. -/
def dtsRows : List RegRow := dtsRows0 ++ dtsRows1

/-! ### TRAIN block -/

def trainRows0 : List RegRow := [
  -- CTRL
  ⟨0x0, 0x4, 1, [.setting 1 1 .module .any, .setting 0 0 .module .any]⟩,
  -- POOL_LO
  ⟨0x4, 0x4, 1, [.setting 31 0 .module .any]⟩,
  -- POOL_HI
  ⟨0x8, 0x4, 1, [.setting 31 0 .module .any]⟩,
  -- ENTRY
  ⟨0xC, 0x4, 1, [.setting 25 16 .module .any, .setting 9 0 .module .any]⟩,
  -- CYC_MAX_A
  ⟨0x10, 0x4, 1, [.setting 16 0 .module (.rng 1000 120000)]⟩,
  -- CYC_MAX_B
  ⟨0x14, 0x4, 1, [.setting 16 0 .module (.rng 1000 120000)]⟩,
  -- STATUS
  ⟨0x18, 0x4, 1, [.plain 22 16 .ro 0, .plain 9 0 .ro 0]⟩,
  -- RETIRED_LO
  ⟨0x1C, 0x4, 1, [.plain 31 0 .ro 0]⟩,
  -- RETIRED_HI
  ⟨0x20, 0x4, 1, [.plain 31 0 .ro 0]⟩,
  -- RETIRE
  ⟨0x24, 0x4, 1, [⟨31, 16, .wo, true, 0, .none, .module, .any⟩, ⟨6, 6, .wo, true, 0, .none, .module, .any⟩, ⟨5, 0, .wo, true, 0, .none, .module, .any⟩]⟩,
  -- CHK_ERR
  ⟨0x28, 0x4, 1, [.plain 4 0 .ro 0]⟩,
  -- TILES_A
  ⟨0x30, 0x4, 1, [.plain 31 0 .rc 0]⟩]

def trainRows1 : List RegRow := [
  -- TILES_B
  ⟨0x34, 0x4, 1, [.plain 31 0 .rc 0]⟩,
  -- STEAL_CNT
  ⟨0x38, 0x4, 1, [.plain 31 0 .rc 0]⟩,
  -- RERUN_CNT
  ⟨0x3C, 0x4, 1, [.plain 15 0 .rc 0]⟩,
  -- SKIP_CNT
  ⟨0x40, 0x4, 1, [.plain 31 0 .rc 0]⟩,
  -- TRAP_CNT
  ⟨0x44, 0x4, 1, [.plain 15 0 .rc 0]⟩,
  -- LAST_TRAP
  ⟨0x48, 0x4, 1, [.plain 31 24 .ro 0, .plain 23 16 .ro 0, .plain 15 15 .ro 0, .plain 9 0 .ro 0]⟩,
  -- LAST_TROW
  ⟨0x4C, 0x4, 1, [.plain 31 0 .ro 0]⟩,
  -- ECC_CORR
  ⟨0x50, 0x4, 1, [.plain 15 0 .rc 0]⟩,
  -- MASTER_CRC
  ⟨0x60, 0x4, 1, [.plain 31 0 .ro 0]⟩,
  -- MASTER_CRC_C
  ⟨0x64, 0x4, 1, [.plain 31 0 .ro 0]⟩]

/-- The register map of TRAIN. -/
def trainRows : List RegRow := trainRows0 ++ trainRows1

/-! ### ZONE block -/

def zoneRows0 : List RegRow := [
  -- ZCTRL
  ⟨0x0, 0x100, 2, [.setting 19 16 .beat (.rng 0 8), .setting 15 4 .beat (.rng 1 4095), .setting 1 1 .beat .any, .setting 0 0 .beat .any]⟩,
  -- OVCTRL
  ⟨0x4, 0x100, 2, [.setting 22 16 .beat (.rng 1 64), .setting 15 0 .beat (.rng 1 65535)]⟩,
  -- ZSTATUS
  ⟨0x8, 0x100, 2, [.plain 12 0 .ro 0]⟩,
  -- ROW_CNT
  ⟨0xC, 0x100, 2, [.plain 31 0 .rc 0]⟩,
  -- INC_CNT
  ⟨0x10, 0x100, 2, [.plain 31 0 .rc 0]⟩,
  -- BADWORD_CNT
  ⟨0x14, 0x100, 2, [.plain 15 0 .rc 0]⟩,
  -- BADLEN_CNT
  ⟨0x18, 0x100, 2, [.plain 15 0 .rc 0]⟩,
  -- CHK_ERR
  ⟨0x200, 0x4, 1, [.plain 27 16 .ro 0, .plain 8 8 .ro 0, .plain 4 0 .ro 0]⟩]

/-- The register map of ZONE. -/
def zoneRows : List RegRow := zoneRows0

/-! ### CHR block -/

def chrRows0 : List RegRow := [
  -- CH_CTRL
  ⟨0x0, 0x20, 32, [.setting 31 31 .module .any, .setting 30 30 .module .any, .setting 29 29 .module .any, .setting 28 28 .module .any, .setting 27 27 .module .any, .setting 26 24 .module (.rng 0 5), .setting 23 20 .module .chrSrc, .setting 19 18 .module .any, .setting 11 0 .module .any]⟩,
  -- THR_HI
  ⟨0x4, 0x20, 32, [.setting 31 0 .module .any]⟩,
  -- THR_LO
  ⟨0x8, 0x20, 32, [.setting 31 0 .module .any]⟩,
  -- WIDTH
  ⟨0xC, 0x20, 32, [.setting 31 16 .module .any, .setting 15 0 .module .any]⟩,
  -- PRE
  ⟨0x10, 0x20, 32, [.setting 23 0 .module .any]⟩,
  -- POST
  ⟨0x14, 0x20, 32, [.setting 23 0 .module .any]⟩,
  -- CAP
  ⟨0x18, 0x20, 32, [.setting 28 16 .module (.rng 1 4096), .setting 12 0 .module (.rng 0 4096)]⟩,
  -- CH_STATUS
  ⟨0x1C, 0x20, 32, [.plain 31 30 .ro 0, .plain 17 16 .ro 0, .plain 15 0 .ro 0]⟩,
  -- ARM
  ⟨0x400, 0x4, 1, [.plain 31 0 .w1s 0]⟩,
  -- SLOT_BUSY
  ⟨0x408, 0x4, 1, [.plain 15 0 .ro 0]⟩,
  -- CAP_CNT
  ⟨0x40C, 0x4, 1, [.plain 31 0 .rc 0]⟩,
  -- MISS_CNT
  ⟨0x410, 0x4, 1, [.plain 31 16 .rc 0, .plain 15 0 .rc 0]⟩]

def chrRows1 : List RegRow := [
  -- GAP_CNT
  ⟨0x414, 0x4, 1, [.plain 15 0 .rc 0]⟩,
  -- CHK_ERR
  ⟨0x418, 0x4, 1, [.plain 15 13 .ro 0, .plain 12 8 .ro 0, .plain 4 0 .ro 0]⟩,
  -- NEXT_ID
  ⟨0x41C, 0x4, 1, [.plain 31 0 .ro 0]⟩,
  -- SLOT
  ⟨0x500, 0x10, 16, [.plain 31 31 .ro 0, .plain 8 8 .ro 0, .plain 4 0 .ro 0]⟩,
  -- SLOT_ID
  ⟨0x504, 0x10, 16, [.plain 31 0 .ro 0]⟩,
  -- SLOT_TICKS
  ⟨0x508, 0x10, 16, [.plain 31 0 .ro 0]⟩,
  -- MISS_T_LO
  ⟨0x600, 0x8, 32, [.plain 31 0 .ro 0]⟩,
  -- MISS_T_HI
  ⟨0x604, 0x8, 32, [.plain 31 0 .ro 0]⟩]

/-- The register map of CHR. -/
def chrRows : List RegRow := chrRows0 ++ chrRows1

/-! ### CODEC block -/

def codecRows0 : List RegRow := [
  -- CTRL
  ⟨0x0, 0x40, 2, [.setting 6 4 .beat .any, .setting 2 2 .beat .any, .setting 1 1 .beat .any, .setting 0 0 .beat .any]⟩,
  -- BLOCKS
  ⟨0x4, 0x40, 2, [.plain 31 0 .rc 0]⟩,
  -- IN_BYTES
  ⟨0x8, 0x40, 2, [.plain 31 0 .rc 0]⟩,
  -- OUT_BYTES
  ⟨0xC, 0x40, 2, [.plain 31 0 .ro 0]⟩,
  -- INCOMP_CNT
  ⟨0x10, 0x40, 2, [.plain 31 0 .rc 0]⟩,
  -- ROWRAW_CNT
  ⟨0x14, 0x40, 2, [.plain 31 0 .rc 0]⟩,
  -- STATUS
  ⟨0x100, 0x4, 1, [.plain 9 0 .ro 512]⟩,
  -- VERIFY_CNT
  ⟨0x104, 0x4, 1, [.plain 15 0 .rc 0]⟩,
  -- DROP_CNT
  ⟨0x108, 0x4, 1, [.plain 15 0 .rc 0]⟩,
  -- LAST_VFAIL
  ⟨0x10C, 0x4, 1, [.plain 31 31 .ro 0, .plain 30 16 .ro 0, .plain 15 0 .ro 0]⟩,
  -- LOAD
  ⟨0x110, 0x4, 1, [.plain 15 0 .ro 0]⟩,
  -- CHK_ERR
  ⟨0x114, 0x4, 1, [.plain 5 0 .ro 0]⟩]

/-- The register map of CODEC. -/
def codecRows : List RegRow := codecRows0

/-! ### MC block -/

def mcRows0 : List RegRow := [
  -- STATUS
  ⟨0x0, 0x4, 1, [.plain 15 13 .ro 0, .plain 12 10 .ro 0, .plain 9 9 .ro 0, .plain 8 8 .ro 0, .plain 7 7 .ro 0, .plain 6 6 .ro 0, .plain 5 4 .ro 0, .plain 2 0 .ro 0]⟩,
  -- ORG
  ⟨0x4, 0x4, 1, [.plain 31 16 .ro 0, .plain 11 10 .ro 0, .plain 9 9 .ro 0, .plain 7 4 .ro 0, .plain 3 0 .ro 0]⟩,
  -- TRAIN_CTRL
  ⟨0x8, 0x4, 1, [⟨2, 0, .ro, false, 0, .image, .module, .rng 1 4⟩]⟩,
  -- ECC_CTRL
  ⟨0x10, 0x4, 1, [.setting 23 16 .module .any, .setting 15 0 .module (.rng 1 65535)]⟩,
  -- ACT_CTRL
  ⟨0x14, 0x4, 1, [.setting 14 0 .module (.rng 256 16384)]⟩,
  -- SPARE
  ⟨0x18, 0x4, 1, [⟨3, 3, .ro, true, 0, .image, .module, .any⟩, ⟨1, 0, .ro, true, 0, .image, .module, .any⟩]⟩,
  -- MIG_CTRL
  ⟨0x1C, 0x4, 1, [⟨7, 0, .rws, true, 0, .image, .module, .rng 1 64⟩]⟩,
  -- MIGRATE
  ⟨0x20, 0x4, 1, [⟨31, 16, .wo, true, 0, .none, .module, .any⟩, ⟨2, 2, .wo, true, 0, .none, .module, .any⟩, ⟨1, 0, .wo, true, 0, .none, .module, .any⟩]⟩,
  -- MIG_STATUS
  ⟨0x24, 0x4, 1, [.plain 31 16 .ro 0, .plain 7 6 .ro 0, .plain 5 4 .ro 0, .plain 1 0 .ro 0]⟩,
  -- FREEZE
  ⟨0x28, 0x4, 1, [⟨31, 16, .wo, true, 0, .none, .module, .any⟩, ⟨0, 0, .wo, true, 0, .none, .module, .any⟩]⟩,
  -- RANK_STATE
  ⟨0x30, 0x4, 4, [.plain 5 4 .ro 0, .plain 2 0 .ro 0]⟩,
  -- ERR_CNT
  ⟨0x40, 0x4, 4, [.plain 31 16 .rc 0, .plain 15 0 .rc 0]⟩]

def mcRows1 : List RegRow := [
  -- UE_LAST
  ⟨0x50, 0x4, 1, [.plain 29 29 .ro 0, .plain 28 28 .ro 0, .plain 27 26 .ro 0, .plain 25 21 .ro 0, .plain 20 0 .ro 0]⟩,
  -- PAR_CNT
  ⟨0x58, 0x4, 1, [.plain 31 16 .rc 0, .plain 15 0 .rc 0]⟩,
  -- ACT_NREF
  ⟨0x60, 0x4, 1, [.plain 31 0 .rc 0]⟩,
  -- ACT_REPL
  ⟨0x64, 0x4, 1, [.plain 31 0 .rc 0]⟩,
  -- SR_CNT
  ⟨0x68, 0x4, 1, [.plain 31 16 .rc 0, .plain 15 0 .rc 0]⟩,
  -- SCRUB_STATUS
  ⟨0x6C, 0x4, 1, [.plain 31 16 .ro 0, .plain 6 0 .ro 0]⟩,
  -- RSV_SIZES
  ⟨0x400, 0x4, 1, [.plain 31 16 .ro 0, .plain 15 0 .ro 0]⟩,
  -- RSV_STATUS
  ⟨0x404, 0x4, 1, [.plain 2 2 .ro 0, .plain 1 1 .ro 0, .plain 0 0 .ro 0]⟩,
  -- RING_MIB
  ⟨0x408, 0x4, 1, [.plain 31 0 .ro 0]⟩,
  -- WRITE_RATE
  ⟨0x40C, 0x4, 1, [.plain 31 0 .ro 0]⟩,
  -- DEPTH_MS
  ⟨0x410, 0x4, 1, [.plain 31 0 .ro 0]⟩,
  -- OLDEST_A
  ⟨0x414, 0x4, 1, [.plain 31 0 .ro 0]⟩]

def mcRows2 : List RegRow := [
  -- OLDEST_B
  ⟨0x418, 0x4, 1, [.plain 31 0 .ro 0]⟩,
  -- RSV_REQ
  ⟨0x41C, 0x4, 1, [⟨31, 16, .ro, false, 0, .image, .module, .mul64 0 16384⟩, ⟨15, 0, .ro, false, 0, .image, .module, .mul64 64 16384⟩]⟩,
  -- SNAP
  ⟨0x800, 0x4, 48, [.plain 31 0 .ro 0]⟩]

/-- The register map of MC. -/
def mcRows : List RegRow := mcRows0 ++ mcRows1 ++ mcRows2

/-! ### NET block -/

def netRows0 : List RegRow := [
  -- PORT_CTRL
  ⟨0x0, 0x400, 4, [.setting 11 9 .module .any, .setting 8 8 .module .any, .setting 4 4 .module .any, .setting 3 3 .module .any, .setting 2 2 .module .any, .setting 0 0 .module .any]⟩,
  -- PORT_STATUS
  ⟨0x4, 0x400, 4, [.plain 10 10 .ro 0, .plain 9 9 .ro 0, .plain 8 8 .ro 0, .plain 7 7 .ro 0, .plain 6 6 .ro 0, .plain 5 5 .ro 0, .plain 2 0 .ro 0]⟩,
  -- MAC_LO
  ⟨0x8, 0x400, 4, [⟨31, 0, .ro, false, 0, .cal, .module, .any⟩]⟩,
  -- MAC_HI
  ⟨0xC, 0x400, 4, [⟨15, 0, .ro, false, 0, .cal, .module, .any⟩]⟩,
  -- VLAN
  ⟨0x10, 0x400, 4, [.setting 16 16 .module .any, .setting 15 13 .module .any, .setting 11 0 .module .any]⟩,
  -- TX_EQ
  ⟨0x14, 0x400, 4, [.setting 23 16 .module (.rng 80 200), .setting 13 8 .module (.rng 0 40), .setting 5 0 .module (.rng 0 25)]⟩,
  -- TX_EQ_NOW
  ⟨0x18, 0x400, 4, [.plain 23 16 .ro 0, .plain 13 8 .ro 0, .plain 5 0 .ro 0]⟩,
  -- RX_FRAMES
  ⟨0x20, 0x400, 4, [.plain 31 0 .rc 0]⟩,
  -- RX_BAD
  ⟨0x24, 0x400, 4, [.plain 31 16 .rc 0, .plain 15 0 .rc 0]⟩,
  -- RX_DROP
  ⟨0x28, 0x400, 4, [.plain 31 0 .rc 0]⟩,
  -- TX_FRAMES
  ⟨0x2C, 0x400, 4, [.plain 31 0 .rc 0]⟩,
  -- FEC_CORR
  ⟨0x30, 0x400, 4, [.plain 31 0 .rc 0]⟩]

def netRows1 : List RegRow := [
  -- FEC_UNCORR
  ⟨0x34, 0x400, 4, [.plain 31 0 .rc 0]⟩,
  -- BER_CNT
  ⟨0x38, 0x400, 4, [.plain 31 0 .rc 0]⟩,
  -- EB_CNT
  ⟨0x3C, 0x400, 4, [.plain 31 16 .rc 0, .plain 15 0 .rc 0]⟩,
  -- LINK_CNT
  ⟨0x40, 0x400, 4, [.plain 31 24 .rc 0, .plain 23 16 .rc 0, .plain 15 0 .rc 0]⟩,
  -- PRBS_CTRL
  ⟨0x50, 0x400, 4, [⟨29, 24, .rwi, false, 0, .none, .module, .injRate⟩, .plain 8 8 .w1s 0, ⟨6, 4, .rwi, false, 0, .none, .module, .rng 0 4⟩, .plain 1 1 .rwi 0, .plain 0 0 .rwi 0]⟩,
  -- PRBS_STATUS
  ⟨0x54, 0x400, 4, [.plain 0 0 .ro 0]⟩,
  -- PRBS_ERR
  ⟨0x58, 0x400, 4, [.plain 31 0 .rc 0]⟩,
  -- FWD_CTRL
  ⟨0x2000, 0x4, 1, [.setting 0 0 .module .any]⟩,
  -- FWD_DROP
  ⟨0x2004, 0x4, 2, [.plain 31 16 .rc 0, .plain 15 0 .rc 0]⟩,
  -- FWD_LEVEL
  ⟨0x200C, 0x4, 1, [.plain 31 16 .ro 0, .plain 15 0 .ro 0]⟩,
  -- REFCLK
  ⟨0x2010, 0x4, 1, [.plain 1 1 .w1c 0, .plain 0 0 .ro 0]⟩]

/-- The register map of NET. -/
def netRows : List RegRow := netRows0 ++ netRows1

/-! ### REC block -/

def recRows0 : List RegRow := [
  -- CTRL
  ⟨0x0, 0x4, 1, [.setting 18 16 .module (.rng 1 7), .setting 12 8 .module (.rng 8 20), .setting 0 0 .module .any]⟩,
  -- STATUS
  ⟨0x4, 0x4, 1, [.plain 31 16 .ro 0, .plain 6 0 .ro 0]⟩,
  -- REFUSE_CNT
  ⟨0x10, 0x4, 1, [.plain 31 24 .rc 0, .plain 23 16 .rc 0, .plain 15 8 .rc 0, .plain 7 0 .rc 0]⟩,
  -- RESEND_CNT
  ⟨0x14, 0x4, 1, [.plain 31 0 .rc 0]⟩,
  -- FAILOVER_CNT
  ⟨0x18, 0x4, 1, [.plain 31 16 .rc 0, .plain 15 0 .rc 0]⟩,
  -- CNP_CNT
  ⟨0x1C, 0x4, 1, [.plain 31 16 .rc 0, .plain 15 0 .rc 0]⟩,
  -- GAP_CNT
  ⟨0x20, 0x4, 1, [.plain 31 0 .rc 0]⟩,
  -- UDP_DROP
  ⟨0x24, 0x4, 1, [.plain 31 0 .rc 0]⟩,
  -- IP4_ADDR
  ⟨0x100, 0x40, 4, [.setting 31 0 .module .any]⟩,
  -- IP4_GW
  ⟨0x104, 0x40, 4, [.setting 31 0 .module .any]⟩,
  -- IP_CTRL
  ⟨0x108, 0x40, 4, [.setting 23 16 .module (.rng 1 128), .setting 15 8 .module (.rng 1 32), .setting 7 2 .module .any, .setting 1 1 .module .any, .setting 0 0 .module .any]⟩,
  -- IP6_ADDR
  ⟨0x110, 0x40, 4, [.setting 31 0 .module .any]⟩]

def recRows1 : List RegRow := [
  -- IP6_ADDR
  ⟨0x114, 0x40, 4, [.setting 31 0 .module .any]⟩,
  -- IP6_ADDR
  ⟨0x118, 0x40, 4, [.setting 31 0 .module .any]⟩,
  -- IP6_ADDR
  ⟨0x11C, 0x40, 4, [.setting 31 0 .module .any]⟩,
  -- IP6_GW
  ⟨0x120, 0x40, 4, [.setting 31 0 .module .any]⟩,
  -- IP6_GW
  ⟨0x124, 0x40, 4, [.setting 31 0 .module .any]⟩,
  -- IP6_GW
  ⟨0x128, 0x40, 4, [.setting 31 0 .module .any]⟩,
  -- IP6_GW
  ⟨0x12C, 0x40, 4, [.setting 31 0 .module .any]⟩,
  -- SESS_STATE
  ⟨0x400, 0x10, 64, [.plain 22 16 .ro 0, .plain 13 8 .ro 0, .plain 7 7 .ro 0, .plain 6 5 .ro 0, .plain 4 4 .ro 0, .plain 2 0 .ro 0]⟩,
  -- INFLIGHT
  ⟨0x404, 0x10, 64, [.plain 31 0 .ro 0]⟩,
  -- JOURNAL
  ⟨0x408, 0x10, 64, [.plain 31 0 .ro 0]⟩,
  -- CLOSE
  ⟨0x40C, 0x10, 64, [.plain 7 0 .ro 0]⟩]

/-- The register map of REC. -/
def recRows : List RegRow := recRows0 ++ recRows1

/-! ### PTP block -/

def ptpRows0 : List RegRow := [
  -- OC_CTRL
  ⟨0x0, 0x40, 4, [.setting 31 16 .module (.rng 1 65535), .setting 15 12 .module .log4, .setting 11 10 .module (.rng 0 2), .setting 9 9 .module .any, .setting 8 8 .module .any, .setting 5 4 .module .any, .setting 3 3 .module .any, .setting 1 0 .module .any]⟩,
  -- SERVO
  ⟨0x4, 0x40, 4, [.setting 31 24 .module (.rng 1 255), .setting 23 8 .module (.rng 1 65535), .setting 7 4 .module .any, .setting 3 0 .module .any]⟩,
  -- OC_STATUS
  ⟨0x8, 0x40, 4, [.plain 18 16 .ro 0, .plain 9 8 .ro 0, .plain 0 0 .ro 0]⟩,
  -- OFFSET
  ⟨0xC, 0x40, 4, [.plain 31 0 .ro 0]⟩,
  -- MPD
  ⟨0x10, 0x40, 4, [.plain 31 0 .ro 0]⟩,
  -- GM_ID_LO
  ⟨0x14, 0x40, 4, [.plain 31 0 .ro 0]⟩,
  -- GM_ID_HI
  ⟨0x18, 0x40, 4, [.plain 31 0 .ro 0]⟩,
  -- COUNTS
  ⟨0x1C, 0x40, 4, [.plain 31 16 .rc 0, .plain 15 0 .rc 0]⟩,
  -- ASYM
  ⟨0x400, 0x20, 4, [.setting 31 0 .module .any]⟩,
  -- PD_CTRL
  ⟨0x404, 0x20, 4, [.setting 4 4 .module .any, .setting 3 0 .module .log4]⟩,
  -- LINK_DELAY
  ⟨0x408, 0x20, 4, [.plain 31 0 .ro 0]⟩,
  -- TX_LAT
  ⟨0x40C, 0x20, 4, [⟨31, 0, .ro, false, 0, .cal, .module, .any⟩]⟩]

def ptpRows1 : List RegRow := [
  -- RX_LAT
  ⟨0x410, 0x20, 4, [⟨31, 0, .ro, false, 0, .cal, .module, .any⟩]⟩,
  -- TC_CTRL
  ⟨0x500, 0x4, 1, [.setting 1 0 .module (.rng 0 2)]⟩,
  -- TC_CNT
  ⟨0x504, 0x4, 1, [.plain 31 16 .rc 0, .plain 15 0 .rc 0]⟩,
  -- RES_MAX
  ⟨0x508, 0x4, 1, [.plain 31 0 .rc 0]⟩]

/-- The register map of PTP. -/
def ptpRows : List RegRow := ptpRows0 ++ ptpRows1

/-! ### CAL block -/

def calRows0 : List RegRow := [
  -- CTRL
  ⟨0x0, 0x4, 1, [.setting 11 8 .module (.rng 1 12), .setting 2 2 .module .any, .setting 1 1 .module .any, .setting 0 0 .module .any]⟩,
  -- APPLY_THR
  ⟨0x4, 0x4, 1, [.setting 23 16 .module (.rng 1 255), .setting 15 8 .module (.rng 1 255), .setting 7 0 .module (.rng 1 255)]⟩,
  -- USER_SEL
  ⟨0x8, 0x4, 1, [⟨3, 3, .rws, true, 0, .image, .module, .any⟩, ⟨2, 0, .rws, true, 0, .image, .module, .any⟩]⟩,
  -- STATUS
  ⟨0xC, 0x4, 1, [.plain 9 9 .ro 0, .plain 8 8 .ro 0, .plain 5 5 .ro 0, .plain 4 0 .ro 0]⟩,
  -- TEMP
  ⟨0x10, 0x4, 1, [.plain 31 0 .ro 0]⟩,
  -- LIMIT_CNT
  ⟨0x14, 0x4, 1, [.plain 31 0 .rc 0]⟩,
  -- BG_CNT
  ⟨0x18, 0x4, 1, [.plain 31 0 .rc 0]⟩,
  -- BG_LAST
  ⟨0x1C, 0x4, 1, [.plain 31 16 .ro 0, .plain 7 0 .ro 0]⟩,
  -- CMD
  ⟨0x20, 0x4, 1, [⟨31, 16, .wo, true, 0, .none, .module, .any⟩, ⟨14, 12, .wo, true, 0, .none, .module, .any⟩, ⟨8, 0, .wo, true, 0, .none, .module, .any⟩]⟩,
  -- ABORT
  ⟨0x24, 0x4, 1, [⟨31, 16, .wo, true, 0, .none, .module, .any⟩, ⟨0, 0, .wo, true, 0, .none, .module, .any⟩]⟩,
  -- CMD_STATUS
  ⟨0x28, 0x4, 1, [.plain 23 20 .ro 0, .plain 17 16 .ro 0, .plain 8 0 .ro 0]⟩,
  -- REF_UV
  ⟨0x2C, 0x4, 1, [.setting 19 0 .module (.rng 500000 1000000)]⟩]

def calRows1 : List RegRow := [
  -- START_SCOPE
  ⟨0x30, 0x4, 1, [.setting 14 12 .module .any, .setting 7 0 .module .any]⟩,
  -- FREQ_GATE
  ⟨0x34, 0x4, 1, [.setting 16 0 .module (.rng 1000 100000)]⟩,
  -- TRACE_REF
  ⟨0x40, 0x4, 1, [.plain 31 0 .ro 0]⟩,
  -- DAC_GAIN
  ⟨0x44, 0x4, 1, [.plain 31 0 .ro 0]⟩,
  -- DAC_OFS
  ⟨0x48, 0x4, 1, [.plain 31 0 .ro 0]⟩,
  -- XO_TRIM
  ⟨0x4C, 0x4, 1, [.plain 31 0 .ro 0]⟩,
  -- CHK_ERR
  ⟨0x50, 0x4, 1, [.plain 10 8 .ro 0, .plain 5 0 .ro 0]⟩]

/-- The register map of CAL. -/
def calRows : List RegRow := calRows0 ++ calRows1

/-- Every register whose reset value (R11) is not zero, by rising address. -/
def nonzeroResets : List (Nat × BitVec 32) := [
  (0x0000000, 0x71600000),
  (0x0000014, 0x10),
  (0x0030018, 0x38),
  (0x0040180, 0x3E8),
  (0x00401A0, 0x3E8),
  (0x0080010, 0x1F000000),
  (0x0080014, 0x1F000000),
  (0x0080018, 0x1F000000),
  (0x008001C, 0x1F000000),
  (0x0080020, 0x1F000000),
  (0x0080024, 0x1F000000),
  (0x0080028, 0x1F000000),
  (0x008002C, 0x1F000000),
  (0x0080030, 0xFF0000),
  (0x0080084, 0x1),
  (0x00E0100, 0x200)]

end Sys2Proof.Machine
end

