-- ==== Sys2Proof/Machine/Fields.lean ====
section
/-!
DEFINITION. Machine/Fields.lean: every named field of every register the spec maps (Tables 04-10 to 17-6: R89, R93, R94,
R118, R119, R142, R171, R172, R192, R219, R240, R273, R297, R298, R312, R347, R371, R372, R402, R421): its byte address
(the lowest appearance of Table 04-4) and its bits. Made by a script from the spec's own register tables.
A field name is F.<block>_<register>_<field>; the argument of an array's field is its index letter in the table
(h is the half of ESC and CPP, 0 port A and 1 port B, and of MC, 0 MC0 and 1 MC1).
-/
namespace Sys2Proof.Machine

/-- One field of a register: the byte address of its register and its bits (R7). -/
structure Fld where
  addr : Nat
  msb  : Nat
  lsb  : Nat
deriving DecidableEq, Repr

namespace F


/-! ### SYS block -/

def SYS_ID_PART : Fld := ⟨0x0000000, 31, 16⟩
def SYS_ID_DIE_REV : Fld := ⟨0x0000000, 15, 8⟩
def SYS_ID_MOD_REV : Fld := ⟨0x0000000, 7, 0⟩
def SYS_FW_VER : Fld := ⟨0x0000004, 31, 0⟩
def SYS_SERIAL_LO_SERIAL : Fld := ⟨0x0000008, 31, 0⟩
def SYS_SERIAL_HI_SERIAL : Fld := ⟨0x000000C, 31, 0⟩
def SYS_STATE_SLOT : Fld := ⟨0x0000010, 14, 14⟩
def SYS_STATE_HOLDUP_SHORT : Fld := ⟨0x0000010, 13, 13⟩
def SYS_STATE_IMAGE_FALLBACK : Fld := ⟨0x0000010, 12, 12⟩
def SYS_STATE_START_STEP : Fld := ⟨0x0000010, 11, 8⟩
def SYS_STATE_SAFE_REASON : Fld := ⟨0x0000010, 7, 4⟩
def SYS_STATE_MODE : Fld := ⟨0x0000010, 2, 0⟩
def SYS_POWER_OUT_FAULT : Fld := ⟨0x0000014, 5, 5⟩
def SYS_POWER_PFAIL : Fld := ⟨0x0000014, 4, 4⟩
def SYS_POWER_FEED_B_OVP : Fld := ⟨0x0000014, 3, 3⟩
def SYS_POWER_FEED_A_OVP : Fld := ⟨0x0000014, 2, 2⟩
def SYS_POWER_FEED_B_OK : Fld := ⟨0x0000014, 1, 1⟩
def SYS_POWER_FEED_A_OK : Fld := ⟨0x0000014, 0, 0⟩
def SYS_MEM_MC1_FROZEN : Fld := ⟨0x0000018, 3, 3⟩
def SYS_MEM_MC0_FROZEN : Fld := ⟨0x0000018, 2, 2⟩
def SYS_MEM_MC1_PRESENT : Fld := ⟨0x0000018, 1, 1⟩
def SYS_MEM_MC0_PRESENT : Fld := ⟨0x0000018, 0, 0⟩
def SYS_PWR_STATE_PSTATE : Fld := ⟨0x000001C, 2, 0⟩
def SYS_DEVTIME_LO_DEVTIME : Fld := ⟨0x0000020, 31, 0⟩
def SYS_DEVTIME_HI_DEVTIME : Fld := ⟨0x0000024, 31, 0⟩
def SYS_BOOT_EPOCH : Fld := ⟨0x0000028, 31, 0⟩
def SYS_RESET_CAUSE_CAUSE : Fld := ⟨0x000002C, 3, 0⟩
def SYS_VIOL_CNT_COUNT : Fld := ⟨0x0000030, 15, 0⟩
def SYS_VIOL_LAST_WRITE : Fld := ⟨0x0000034, 28, 28⟩
def SYS_VIOL_LAST_CLASS : Fld := ⟨0x0000034, 27, 26⟩
def SYS_VIOL_LAST_ADDR : Fld := ⟨0x0000034, 24, 0⟩
def SYS_ACC_ERR_CNT_COUNT : Fld := ⟨0x0000038, 15, 0⟩
def SYS_ACC_ERR_LAST_WRITE : Fld := ⟨0x000003C, 28, 28⟩
def SYS_ACC_ERR_LAST_CLASS : Fld := ⟨0x000003C, 27, 26⟩
def SYS_ACC_ERR_LAST_ADDR : Fld := ⟨0x000003C, 24, 0⟩
def SYS_MGMT_CTRL_CRC_EN : Fld := ⟨0x0000040, 0, 0⟩
def SYS_SCRATCH : Fld := ⟨0x0000044, 31, 0⟩
def SYS_RESET_KEY : Fld := ⟨0x0000050, 31, 16⟩
def SYS_RESET_ENGINE_SEL : Fld := ⟨0x0000050, 15, 10⟩
def SYS_RESET_ENGINE : Fld := ⟨0x0000050, 8, 8⟩
def SYS_RESET_LANE : Fld := ⟨0x0000050, 7, 4⟩
def SYS_RESET_PORT_B : Fld := ⟨0x0000050, 2, 2⟩
def SYS_RESET_PORT_A : Fld := ⟨0x0000050, 1, 1⟩
def SYS_RESET_WARM : Fld := ⟨0x0000050, 0, 0⟩

/-! ### CFG block -/

def CFG_COMMIT_MASK : Fld := ⟨0x0010000, 4, 0⟩
def CFG_COMMIT_STATUS_OWNER : Fld := ⟨0x0010004, 23, 22⟩
def CFG_COMMIT_STATUS_STATE : Fld := ⟨0x0010004, 21, 20⟩
def CFG_COMMIT_STATUS_APPLIED : Fld := ⟨0x0010004, 12, 8⟩
def CFG_COMMIT_STATUS_CODE : Fld := ⟨0x0010004, 7, 0⟩
def CFG_FAIL_ADDR_ADDR : Fld := ⟨0x0010008, 24, 0⟩
def CFG_EPOCH : Fld := ⟨0x001000C, 31, 0⟩
def CFG_EPOCH_PEND_EPOCH : Fld := ⟨0x0010010, 31, 0⟩
def CFG_ABORT : Fld := ⟨0x0010014, 0, 0⟩
def CFG_COUNTS_ABORT_IGN : Fld := ⟨0x0010018, 15, 8⟩
def CFG_COUNTS_FAILED : Fld := ⟨0x0010018, 7, 0⟩
def CFG_CRC_REF : Fld := ⟨0x0010020, 31, 0⟩
def CFG_CRC_CTRL_ACTION : Fld := ⟨0x0010024, 2, 1⟩
def CFG_CRC_CTRL_CRC_AUTO : Fld := ⟨0x0010024, 0, 0⟩
def CFG_CRC_LAST_CRC : Fld := ⟨0x0010028, 31, 0⟩
def CFG_CRC_STATUS_MISMATCH_CNT : Fld := ⟨0x001002C, 31, 16⟩
def CFG_CRC_STATUS_MISMATCH : Fld := ⟨0x001002C, 1, 1⟩
def CFG_CRC_STATUS_COMPARING : Fld := ⟨0x001002C, 0, 0⟩

/-! ### EVT block -/

def EVT_PEND : Fld := ⟨0x0020000, 31, 0⟩
def EVT_IRQ_EN : Fld := ⟨0x0020004, 31, 0⟩
def EVT_OUT_SEL_CLASSES (k : Nat) : Fld := ⟨0x0020010 + 0x4 * k, 31, 0⟩
def EVT_OUT_CTRL_PULSE_US : Fld := ⟨0x0020020, 15, 8⟩
def EVT_OUT_CTRL_LEVEL : Fld := ⟨0x0020020, 3, 0⟩
def EVT_LOG_COUNT_LOST : Fld := ⟨0x0020030, 15, 8⟩
def EVT_LOG_COUNT_COUNT : Fld := ⟨0x0020030, 4, 0⟩
def EVT_LOG_POP_POP : Fld := ⟨0x0020034, 0, 0⟩
def EVT_LOG_CODE_PORT : Fld := ⟨0x0020040, 25, 24⟩
def EVT_LOG_CODE_CLASS : Fld := ⟨0x0020040, 23, 16⟩
def EVT_LOG_CODE_CODE : Fld := ⟨0x0020040, 15, 0⟩
def EVT_LOG_TIME_LO_TIME : Fld := ⟨0x0020044, 31, 0⟩
def EVT_LOG_TIME_HI_TIME : Fld := ⟨0x0020048, 31, 0⟩
def EVT_LOG_ARG_ARG : Fld := ⟨0x002004C, 31, 0⟩

/-! ### CLK block -/

def CLK_XO_STATUS_SWITCH_CNT : Fld := ⟨0x0030000, 15, 8⟩
def CLK_XO_STATUS_PLL_HOLD : Fld := ⟨0x0030000, 5, 5⟩
def CLK_XO_STATUS_PLL_LOCK : Fld := ⟨0x0030000, 4, 4⟩
def CLK_XO_STATUS_XO1_OK : Fld := ⟨0x0030000, 2, 2⟩
def CLK_XO_STATUS_XO0_OK : Fld := ⟨0x0030000, 1, 1⟩
def CLK_XO_STATUS_ACTIVE : Fld := ⟨0x0030000, 0, 0⟩
def CLK_XO_CTRL_RETURN : Fld := ⟨0x0030004, 0, 0⟩
def CLK_TRIM : Fld := ⟨0x0030008, 31, 0⟩
def CLK_TRIM_MAN : Fld := ⟨0x003000C, 31, 0⟩
def CLK_REG_CTRL_SLEW : Fld := ⟨0x0030010, 15, 8⟩
def CLK_REG_CTRL_TAU : Fld := ⟨0x0030010, 7, 4⟩
def CLK_REG_CTRL_AUTO : Fld := ⟨0x0030010, 0, 0⟩
def CLK_REG_SRC_SRC : Fld := ⟨0x0030014, 31, 0⟩
def CLK_REG_STATUS_SRC : Fld := ⟨0x0030018, 5, 3⟩
def CLK_REG_STATUS_STATE : Fld := ⟨0x0030018, 2, 0⟩
def CLK_PHASE_ERR_E : Fld := ⟨0x003001C, 31, 0⟩
def CLK_AGE_RATE_A : Fld := ⟨0x0030020, 31, 0⟩
def CLK_AGE_HOURS_HOURS : Fld := ⟨0x0030024, 15, 0⟩
def CLK_AGE_CLEAR_CLEAR : Fld := ⟨0x0030028, 0, 0⟩
def CLK_PPS_OUT_CTRL_WIDTH : Fld := ⟨0x0030040, 15, 8⟩
def CLK_PPS_OUT_CTRL_SRC : Fld := ⟨0x0030040, 2, 0⟩
def CLK_PPS_OUT_DELAY_DELAY : Fld := ⟨0x0030044, 15, 0⟩
def CLK_DOM_CTRL_EN (d : Nat) : Fld := ⟨0x0030100 + 0x20 * d, 8, 8⟩
def CLK_DOM_CTRL_PTP_DOMAIN (d : Nat) : Fld := ⟨0x0030100 + 0x20 * d, 7, 0⟩
def CLK_DOM_NS_NS (d : Nat) : Fld := ⟨0x0030104 + 0x20 * d, 31, 0⟩
def CLK_DOM_SEC_LO_SEC (d : Nat) : Fld := ⟨0x0030108 + 0x20 * d, 31, 0⟩
def CLK_DOM_SEC_HI_SEC (d : Nat) : Fld := ⟨0x003010C + 0x20 * d, 15, 0⟩
def CLK_DOM_FRAC_FRAC (d : Nat) : Fld := ⟨0x0030110 + 0x20 * d, 15, 0⟩
def CLK_DOM_RATE_RATE (d : Nat) : Fld := ⟨0x0030114 + 0x20 * d, 31, 0⟩
def CLK_DOM_STEP_STEP (d : Nat) : Fld := ⟨0x0030118 + 0x20 * d, 31, 0⟩
def CLK_DOM_SET_SEC_SEC (d : Nat) : Fld := ⟨0x003011C + 0x20 * d, 31, 0⟩

/-! ### TIS block -/

def TIS_CTRL_FALL : Fld := ⟨0x0040000, 15, 10⟩
def TIS_CTRL_FALL_B : Fld := ⟨0x0040000, 9, 9⟩
def TIS_CTRL_FALL_A : Fld := ⟨0x0040000, 8, 8⟩
def TIS_CTRL_EN : Fld := ⟨0x0040000, 7, 2⟩
def TIS_CTRL_EN_B : Fld := ⟨0x0040000, 1, 1⟩
def TIS_CTRL_EN_A : Fld := ⟨0x0040000, 0, 0⟩
def TIS_STATUS_OVF : Fld := ⟨0x0040004, 0, 0⟩
def TIS_COARSE_LO_COARSE : Fld := ⟨0x0040008, 31, 0⟩
def TIS_COARSE_HI_COARSE : Fld := ⟨0x004000C, 15, 0⟩
def TIS_DEAD_LO_DEAD : Fld := ⟨0x0040010, 31, 0⟩
def TIS_DEAD_HI_DEAD : Fld := ⟨0x0040014, 31, 0⟩
def TIS_LOST_LO_LOST : Fld := ⟨0x0040018, 31, 0⟩
def TIS_LOST_HI_LOST : Fld := ⟨0x004001C, 31, 0⟩
def TIS_STAMP_LO_COARSE (i : Nat) : Fld := ⟨0x0040040 + 0x10 * i, 31, 0⟩
def TIS_STAMP_HI_OVF (i : Nat) : Fld := ⟨0x0040044 + 0x10 * i, 31, 31⟩
def TIS_STAMP_HI_LEVEL (i : Nat) : Fld := ⟨0x0040044 + 0x10 * i, 30, 26⟩
def TIS_STAMP_HI_FINE (i : Nat) : Fld := ⟨0x0040044 + 0x10 * i, 25, 16⟩
def TIS_STAMP_HI_COARSE (i : Nat) : Fld := ⟨0x0040044 + 0x10 * i, 15, 0⟩
def TIS_POP (i : Nat) : Fld := ⟨0x0040048 + 0x10 * i, 0, 0⟩
def TIS_IU_CTRL_TIMEOUT (u : Nat) : Fld := ⟨0x0040100 + 0x20 * u, 31, 16⟩
def TIS_IU_CTRL_CONT (u : Nat) : Fld := ⟨0x0040100 + 0x20 * u, 14, 14⟩
def TIS_IU_CTRL_ARM (u : Nat) : Fld := ⟨0x0040100 + 0x20 * u, 11, 11⟩
def TIS_IU_CTRL_STOP_SEL (u : Nat) : Fld := ⟨0x0040100 + 0x20 * u, 10, 8⟩
def TIS_IU_CTRL_START_SEL (u : Nat) : Fld := ⟨0x0040100 + 0x20 * u, 6, 4⟩
def TIS_IU_STATUS_OVERRUN_CNT (u : Nat) : Fld := ⟨0x0040104 + 0x20 * u, 15, 8⟩
def TIS_IU_STATUS_TIMEOUT (u : Nat) : Fld := ⟨0x0040104 + 0x20 * u, 5, 5⟩
def TIS_IU_STATUS_RANGE (u : Nat) : Fld := ⟨0x0040104 + 0x20 * u, 4, 4⟩
def TIS_IU_STATUS_SLEPT (u : Nat) : Fld := ⟨0x0040104 + 0x20 * u, 3, 3⟩
def TIS_IU_STATUS_ORDER (u : Nat) : Fld := ⟨0x0040104 + 0x20 * u, 2, 2⟩
def TIS_IU_STATUS_SUB_RES (u : Nat) : Fld := ⟨0x0040104 + 0x20 * u, 1, 1⟩
def TIS_IU_STATUS_DONE (u : Nat) : Fld := ⟨0x0040104 + 0x20 * u, 0, 0⟩
def TIS_IU_RES_LO_RES (u : Nat) : Fld := ⟨0x0040108 + 0x20 * u, 31, 0⟩
def TIS_IU_RES_HI_RES (u : Nat) : Fld := ⟨0x004010C + 0x20 * u, 31, 0⟩
def TIS_FU_CTRL_SEL (f : Nat) : Fld := ⟨0x0040180 + 0x20 * f, 30, 28⟩
def TIS_FU_CTRL_PRESCALE (f : Nat) : Fld := ⟨0x0040180 + 0x20 * f, 27, 23⟩
def TIS_FU_CTRL_CONT (f : Nat) : Fld := ⟨0x0040180 + 0x20 * f, 22, 22⟩
def TIS_FU_CTRL_START (f : Nat) : Fld := ⟨0x0040180 + 0x20 * f, 21, 21⟩
def TIS_FU_CTRL_GATE_MS (f : Nat) : Fld := ⟨0x0040180 + 0x20 * f, 16, 0⟩
def TIS_FU_STATUS_RMS (f : Nat) : Fld := ⟨0x0040184 + 0x20 * f, 31, 16⟩
def TIS_FU_STATUS_SHORT (f : Nat) : Fld := ⟨0x0040184 + 0x20 * f, 2, 2⟩
def TIS_FU_STATUS_NO_EDGES (f : Nat) : Fld := ⟨0x0040184 + 0x20 * f, 1, 1⟩
def TIS_FU_STATUS_DONE (f : Nat) : Fld := ⟨0x0040184 + 0x20 * f, 0, 0⟩
def TIS_FU_POINTS_M (f : Nat) : Fld := ⟨0x0040188 + 0x20 * f, 16, 0⟩
def TIS_FU_FREQ_LO_FREQ (f : Nat) : Fld := ⟨0x004018C + 0x20 * f, 31, 0⟩
def TIS_FU_FREQ_HI_FREQ (f : Nat) : Fld := ⟨0x0040190 + 0x20 * f, 31, 0⟩

/-! ### ESC block -/

def ESC_CTRL_RUN (h : Nat) : Fld := ⟨0x0050000 + 0x8000 * h, 0, 0⟩
def ESC_STATUS_PAT_STEP (h : Nat) : Fld := ⟨0x0050004 + 0x8000 * h, 19, 16⟩
def ESC_STATUS_INTLK_LOW (h : Nat) : Fld := ⟨0x0050004 + 0x8000 * h, 4, 4⟩
def ESC_STATUS_TRIPPED (h : Nat) : Fld := ⟨0x0050004 + 0x8000 * h, 3, 3⟩
def ESC_STATUS_DARK (h : Nat) : Fld := ⟨0x0050004 + 0x8000 * h, 2, 2⟩
def ESC_STATUS_RESTARTING (h : Nat) : Fld := ⟨0x0050004 + 0x8000 * h, 1, 1⟩
def ESC_STATUS_RUNNING (h : Nat) : Fld := ⟨0x0050004 + 0x8000 * h, 0, 0⟩
def ESC_BEAT_LO_BEAT (h : Nat) : Fld := ⟨0x0050008 + 0x8000 * h, 31, 0⟩
def ESC_BEAT_HI_BEAT (h : Nat) : Fld := ⟨0x005000C + 0x8000 * h, 31, 0⟩
def ESC_PLAN_ERR_SUBBAND (h : Nat) : Fld := ⟨0x0050010 + 0x8000 * h, 10, 8⟩
def ESC_PLAN_ERR_SUBCODE (h : Nat) : Fld := ⟨0x0050010 + 0x8000 * h, 4, 0⟩
def ESC_DARK_CNT_COUNT (h : Nat) : Fld := ⟨0x0050014 + 0x8000 * h, 31, 0⟩
def ESC_GATE_HOLD_HOLD (h : Nat) : Fld := ⟨0x0050020 + 0x8000 * h, 7, 0⟩
def ESC_PSY_FS_FS_MV (h : Nat) : Fld := ⟨0x0050024 + 0x8000 * h, 15, 0⟩
def ESC_LMON_CTRL_TERM (h : Nat) : Fld := ⟨0x0050030 + 0x8000 * h, 16, 16⟩
def ESC_LMON_CTRL_THR (h : Nat) : Fld := ⟨0x0050030 + 0x8000 * h, 7, 0⟩
def ESC_LMON_DELAY_DELAY (h : Nat) : Fld := ⟨0x0050034 + 0x8000 * h, 31, 0⟩
def ESC_LMON_MISS_CNT_COUNT (h : Nat) : Fld := ⟨0x0050038 + 0x8000 * h, 15, 0⟩
def ESC_LMON_STRAY_CNT_COUNT (h : Nat) : Fld := ⟨0x005003C + 0x8000 * h, 15, 0⟩
def ESC_SW_CTRL_SETTLE (h : Nat) : Fld := ⟨0x0050040 + 0x8000 * h, 25, 16⟩
def ESC_SW_CTRL_LEN (h : Nat) : Fld := ⟨0x0050040 + 0x8000 * h, 4, 0⟩
def ESC_SW_SEQ_LO_POS (h : Nat) : Fld := ⟨0x0050044 + 0x8000 * h, 31, 0⟩
def ESC_SW_SEQ_HI_POS (h : Nat) : Fld := ⟨0x0050048 + 0x8000 * h, 31, 0⟩
def ESC_SW_STATUS_SETTLING (h : Nat) : Fld := ⟨0x005004C + 0x8000 * h, 8, 8⟩
def ESC_SW_STATUS_INDEX (h : Nat) : Fld := ⟨0x005004C + 0x8000 * h, 7, 4⟩
def ESC_SW_STATUS_CODE (h : Nat) : Fld := ⟨0x005004C + 0x8000 * h, 3, 0⟩
def ESC_RTRIG_CTRL_WIDTH (h : Nat) : Fld := ⟨0x0050050 + 0x8000 * h, 7, 0⟩
def ESC_LIM_GATE_W_MAX (h : Nat) : Fld := ⟨0x0050080 + 0x8000 * h, 23, 8⟩
def ESC_LIM_GATE_AMP_MAX (h : Nat) : Fld := ⟨0x0050080 + 0x8000 * h, 7, 0⟩
def ESC_LIM_DUTY_DUTY_MAX (h : Nat) : Fld := ⟨0x0050084 + 0x8000 * h, 11, 0⟩
def ESC_LIM_PSY_AMP_MAX (h : Nat) : Fld := ⟨0x0050088 + 0x8000 * h, 10, 0⟩
def ESC_INTLK_OVR_OVR (h : Nat) : Fld := ⟨0x0050090 + 0x8000 * h, 0, 0⟩
def ESC_TRIP_TRIPPED (h : Nat) : Fld := ⟨0x0050094 + 0x8000 * h, 0, 0⟩

/-! ### AFE block -/

def AFE_CFE_CTRL_H (p : Nat) : Fld := ⟨0x0060000 + 0x100 * p, 15, 8⟩
def AFE_CFE_CTRL_FIX_Y (p : Nat) : Fld := ⟨0x0060000 + 0x100 * p, 5, 4⟩
def AFE_CFE_CTRL_FIX_X (p : Nat) : Fld := ⟨0x0060000 + 0x100 * p, 3, 2⟩
def AFE_CFE_CTRL_FIXED (p : Nat) : Fld := ⟨0x0060000 + 0x100 * p, 0, 0⟩
def AFE_CFE_CM_MON_EN (p : Nat) : Fld := ⟨0x0060004 + 0x100 * p, 19, 16⟩
def AFE_CFE_CM_CM_HI (p : Nat) : Fld := ⟨0x0060004 + 0x100 * p, 15, 8⟩
def AFE_CFE_CM_CM_LO (p : Nat) : Fld := ⟨0x0060004 + 0x100 * p, 7, 0⟩
def AFE_CFE_STATUS_CM_FAULT (p : Nat) : Fld := ⟨0x0060008 + 0x100 * p, 11, 8⟩
def AFE_CFE_STATUS_GAIN_Y (p : Nat) : Fld := ⟨0x0060008 + 0x100 * p, 5, 4⟩
def AFE_CFE_STATUS_GAIN_X (p : Nat) : Fld := ⟨0x0060008 + 0x100 * p, 3, 2⟩
def AFE_CFE_CLAMP_CNT_BYTES (p : Nat) : Fld := ⟨0x006000C + 0x100 * p, 31, 0⟩
def AFE_CFE_RANGE_CNT_DOWN (p : Nat) : Fld := ⟨0x0060010 + 0x100 * p, 31, 16⟩
def AFE_CFE_RANGE_CNT_UP (p : Nat) : Fld := ⟨0x0060010 + 0x100 * p, 15, 0⟩
def AFE_CFE_FAULT_CNT_BYTES (p : Nat) : Fld := ⟨0x0060014 + 0x100 * p, 31, 0⟩
def AFE_RFE_CTRL_CAP_AS (p : Nat) : Fld := ⟨0x0060040 + 0x100 * p, 5, 4⟩
def AFE_RFE_CTRL_CAP_ST (p : Nat) : Fld := ⟨0x0060040 + 0x100 * p, 3, 2⟩
def AFE_RFE_CTRL_EN (p : Nat) : Fld := ⟨0x0060040 + 0x100 * p, 0, 0⟩
def AFE_RFE_NBIN_N_BIN (p : Nat) : Fld := ⟨0x0060044 + 0x100 * p, 17, 0⟩
def AFE_RFE_SAT_CNT_AS (p : Nat) : Fld := ⟨0x0060048 + 0x100 * p, 31, 16⟩
def AFE_RFE_SAT_CNT_ST (p : Nat) : Fld := ⟨0x0060048 + 0x100 * p, 15, 0⟩
def AFE_RFE_BIN_BIN_K : Fld := ⟨0x0060200, 23, 16⟩
def AFE_RFE_BIN_BIN_DLY : Fld := ⟨0x0060200, 15, 0⟩
def AFE_APD_CTRL_TSRC (o : Nat) : Fld := ⟨0x0060300 + 0x10 * o, 17, 16⟩
def AFE_APD_CTRL_MODE (o : Nat) : Fld := ⟨0x0060300 + 0x10 * o, 15, 14⟩
def AFE_APD_CTRL_V_SET (o : Nat) : Fld := ⟨0x0060300 + 0x10 * o, 13, 0⟩
def AFE_APD_STATUS_LIMIT (o : Nat) : Fld := ⟨0x0060304 + 0x10 * o, 17, 17⟩
def AFE_APD_STATUS_SETTLING (o : Nat) : Fld := ⟨0x0060304 + 0x10 * o, 16, 16⟩
def AFE_APD_STATUS_V_NOW (o : Nat) : Fld := ⟨0x0060304 + 0x10 * o, 13, 0⟩
def AFE_APD_LIM_V_MAX (o : Nat) : Fld := ⟨0x0060308 + 0x10 * o, 13, 0⟩
def AFE_APD_SETTLE_SETTLE_THR : Fld := ⟨0x0060340, 23, 16⟩
def AFE_APD_SETTLE_SETTLE : Fld := ⟨0x0060340, 9, 0⟩

/-! ### HKC block -/

def HKC_HKC_CTRL_SCAN_LEN : Fld := ⟨0x0070000, 23, 16⟩
def HKC_HKC_CTRL_SCAN_PERIOD : Fld := ⟨0x0070000, 15, 0⟩
def HKC_RTD_CTRL_EXC_SETTLE : Fld := ⟨0x0070004, 23, 16⟩
def HKC_RTD_CTRL_EXC1 : Fld := ⟨0x0070004, 6, 6⟩
def HKC_RTD_CTRL_TYPE1 : Fld := ⟨0x0070004, 5, 5⟩
def HKC_RTD_CTRL_EN1 : Fld := ⟨0x0070004, 4, 4⟩
def HKC_RTD_CTRL_RTD0 : Fld := ⟨0x0070004, 2, 0⟩
def HKC_INJ_REQ_CH : Fld := ⟨0x0070008, 4, 0⟩
def HKC_INJ_STATUS_REJ : Fld := ⟨0x007000C, 9, 9⟩
def HKC_INJ_STATUS_OVF : Fld := ⟨0x007000C, 8, 8⟩
def HKC_INJ_STATUS_LEVEL : Fld := ⟨0x007000C, 2, 0⟩
def HKC_INJ_DONE_DONE : Fld := ⟨0x0070010, 31, 0⟩
def HKC_STATUS_OVERRUN_CNT : Fld := ⟨0x0070014, 31, 16⟩
def HKC_STATUS_CAL_WAIT : Fld := ⟨0x0070014, 2, 2⟩
def HKC_STATUS_CAL : Fld := ⟨0x0070014, 1, 1⟩
def HKC_STATUS_SCANNING : Fld := ⟨0x0070014, 0, 0⟩
def HKC_SCAN_LIST_ENTRY (i : Nat) : Fld := ⟨0x0070040 + 0x4 * i, 31, 0⟩
def HKC_VAL (c : Nat) : Fld := ⟨0x0070100 + 0x8 * c, 31, 0⟩
def HKC_RAW_VALID (c : Nat) : Fld := ⟨0x0070104 + 0x8 * c, 31, 31⟩
def HKC_RAW_BREAK (c : Nat) : Fld := ⟨0x0070104 + 0x8 * c, 30, 30⟩
def HKC_RAW_INJ (c : Nat) : Fld := ⟨0x0070104 + 0x8 * c, 29, 29⟩
def HKC_RAW_OVR (c : Nat) : Fld := ⟨0x0070104 + 0x8 * c, 28, 28⟩
def HKC_RAW_CODE (c : Nat) : Fld := ⟨0x0070104 + 0x8 * c, 11, 0⟩

/-! ### ADC block -/

def ADC_CTRL_RGATE : Fld := ⟨0x0080000, 1, 1⟩
def ADC_CTRL_GATE : Fld := ⟨0x0080000, 0, 0⟩
def ADC_STATUS_NO_SPARE : Fld := ⟨0x0080004, 31, 24⟩
def ADC_STATUS_GROUP_FAIL : Fld := ⟨0x0080004, 23, 16⟩
def ADC_STATUS_RSPARE_USED : Fld := ⟨0x0080004, 1, 0⟩
def ADC_GRP_MAP_SPARE_POS (g : Nat) : Fld := ⟨0x0080010 + 0x4 * g, 28, 24⟩
def ADC_GRP_MAP_RETIRED (g : Nat) : Fld := ⟨0x0080010 + 0x4 * g, 16, 0⟩
def ADC_RAMAN_MAP_FAIL : Fld := ⟨0x0080030, 31, 24⟩
def ADC_RAMAN_MAP_SPARE1_FOR : Fld := ⟨0x0080030, 23, 20⟩
def ADC_RAMAN_MAP_SPARE0_FOR : Fld := ⟨0x0080030, 19, 16⟩
def ADC_RAMAN_MAP_RETIRED : Fld := ⟨0x0080030, 9, 0⟩
def ADC_SPARE_POLICY_AUTO : Fld := ⟨0x0080040, 0, 0⟩
def ADC_SPARE_CTRL_KEY : Fld := ⟨0x0080044, 31, 16⟩
def ADC_SPARE_CTRL_RETIRE : Fld := ⟨0x0080044, 8, 8⟩
def ADC_SPARE_CTRL_SLICE : Fld := ⟨0x0080044, 7, 0⟩
def ADC_LAST_FAIL_SLICE : Fld := ⟨0x0080048, 15, 8⟩
def ADC_LAST_FAIL_CAUSE : Fld := ⟨0x0080048, 2, 0⟩
def ADC_FAIL_CNT_COUNT : Fld := ⟨0x008004C, 15, 0⟩
def ADC_CORR_GEN_A_GEN : Fld := ⟨0x0080050, 31, 0⟩
def ADC_CORR_GEN_B_GEN : Fld := ⟨0x0080054, 31, 0⟩
def ADC_CORR_GEN_RA_GEN : Fld := ⟨0x0080058, 31, 0⟩
def ADC_CORR_GEN_RB_GEN : Fld := ⟨0x008005C, 31, 0⟩
def ADC_ROT_ROT_B : Fld := ⟨0x0080060, 12, 8⟩
def ADC_ROT_ROT_A : Fld := ⟨0x0080060, 4, 0⟩
def ADC_RAW_START_START : Fld := ⟨0x0080080, 31, 0⟩
def ADC_RAW_LEN_BLOCKS : Fld := ⟨0x0080084, 16, 0⟩
def ADC_RAW_CTRL_BEATS : Fld := ⟨0x0080088, 15, 8⟩
def ADC_RAW_CTRL_PORT : Fld := ⟨0x0080088, 1, 1⟩
def ADC_RAW_CTRL_GO : Fld := ⟨0x0080088, 0, 0⟩
def ADC_RAW_STATUS_BEATS_DONE : Fld := ⟨0x008008C, 31, 16⟩
def ADC_RAW_STATUS_REJ_CODE : Fld := ⟨0x008008C, 6, 4⟩
def ADC_RAW_STATUS_CUT : Fld := ⟨0x008008C, 3, 3⟩
def ADC_RAW_STATUS_REJ : Fld := ⟨0x008008C, 2, 2⟩
def ADC_RAW_STATUS_DONE : Fld := ⟨0x008008C, 1, 1⟩
def ADC_RAW_STATUS_BUSY : Fld := ⟨0x008008C, 0, 0⟩

/-! ### CPP block -/

def CPP_CTRL_BLANK_MAX (h : Nat) : Fld := ⟨0x0090000 + 0x8000 * h, 31, 24⟩
def CPP_CTRL_FADE_THR (h : Nat) : Fld := ⟨0x0090000 + 0x8000 * h, 23, 20⟩
def CPP_CTRL_MEAN_SH (h : Nat) : Fld := ⟨0x0090000 + 0x8000 * h, 19, 16⟩
def CPP_CTRL_ALPHA (h : Nat) : Fld := ⟨0x0090000 + 0x8000 * h, 15, 12⟩
def CPP_CTRL_FILL_MAX (h : Nat) : Fld := ⟨0x0090000 + 0x8000 * h, 10, 8⟩
def CPP_CTRL_SETTLE_BLANK (h : Nat) : Fld := ⟨0x0090000 + 0x8000 * h, 1, 1⟩
def CPP_GAUGE_G (h : Nat) : Fld := ⟨0x0090004 + 0x8000 * h, 10, 0⟩
def CPP_CELL0_DLY_DLY (h : Nat) : Fld := ⟨0x0090008 + 0x8000 * h, 15, 0⟩
def CPP_LAMBDA_PM (h : Nat) : Fld := ⟨0x009000C + 0x8000 * h, 20, 0⟩
def CPP_XI_PE_XI (h : Nat) : Fld := ⟨0x0090010 + 0x8000 * h, 15, 0⟩
def CPP_SR_LSB_LSB (h : Nat) : Fld := ⟨0x0090014 + 0x8000 * h, 23, 0⟩
def CPP_SCALE_SH (h : Nat) : Fld := ⟨0x0090018 + 0x8000 * h, 29, 24⟩
def CPP_SCALE_MANT (h : Nat) : Fld := ⟨0x0090018 + 0x8000 * h, 23, 0⟩
def CPP_INFO_U_M1 (h : Nat) : Fld := ⟨0x009001C + 0x8000 * h, 27, 24⟩
def CPP_INFO_NFFT_LOG2 (h : Nat) : Fld := ⟨0x009001C + 0x8000 * h, 20, 16⟩
def CPP_INFO_TPC_MAX (h : Nat) : Fld := ⟨0x009001C + 0x8000 * h, 13, 0⟩
def CPP_STATE_BYTES_BYTES (h : Nat) : Fld := ⟨0x0090020 + 0x8000 * h, 31, 0⟩
def CPP_LAT_BOUND_NS (h : Nat) : Fld := ⟨0x0090024 + 0x8000 * h, 31, 0⟩
def CPP_STATUS_RESYNCING (h : Nat) : Fld := ⟨0x0090028 + 0x8000 * h, 1, 1⟩
def CPP_STATUS_ACTIVE (h : Nat) : Fld := ⟨0x0090028 + 0x8000 * h, 0, 0⟩
def CPP_INVALID_CNT_COUNT (h : Nat) : Fld := ⟨0x0090040 + 0x8000 * h, 31, 0⟩
def CPP_MARK_CNT_COUNT (h : Nat) : Fld := ⟨0x0090044 + 0x8000 * h, 31, 0⟩
def CPP_RESYNC_CNT_COUNT (h : Nat) : Fld := ⟨0x0090048 + 0x8000 * h, 31, 0⟩
def CPP_FILLED_CNT_COUNT (h : Nat) : Fld := ⟨0x009004C + 0x8000 * h, 31, 0⟩
def CPP_FADED_CNT_COUNT (h : Nat) : Fld := ⟨0x0090050 + 0x8000 * h, 31, 0⟩
def CPP_BLANK_CNT_COUNT (h : Nat) : Fld := ⟨0x0090054 + 0x8000 * h, 31, 0⟩
def CPP_CLIP_CNT_COUNT (h : Nat) : Fld := ⟨0x0090058 + 0x8000 * h, 31, 0⟩
def CPP_STATE_ECC_CNT_COUNT (h : Nat) : Fld := ⟨0x009005C + 0x8000 * h, 15, 0⟩

/-! ### DTS block -/

def DTS_SHOT_CTRL_MODE : Fld := ⟨0x00A0000, 17, 16⟩
def DTS_SHOT_CTRL_LOCK_DIV : Fld := ⟨0x00A0000, 15, 8⟩
def DTS_T_SHOT_CYCLES : Fld := ⟨0x00A0004, 24, 0⟩
def DTS_LOCK_OFS_CYCLES : Fld := ⟨0x00A0008, 20, 0⟩
def DTS_FRAME_SHOTS : Fld := ⟨0x00A000C, 24, 0⟩
def DTS_IDLE : Fld := ⟨0x00A0010, 15, 0⟩
def DTS_STATUS_IDLING : Fld := ⟨0x00A0014, 4, 4⟩
def DTS_STATUS_SUPPRESSING : Fld := ⟨0x00A0014, 3, 3⟩
def DTS_STATUS_LOCKED : Fld := ⟨0x00A0014, 2, 2⟩
def DTS_STATUS_B_IN_FRAME : Fld := ⟨0x00A0014, 1, 1⟩
def DTS_STATUS_A_IN_FRAME : Fld := ⟨0x00A0014, 0, 0⟩
def DTS_FRAME_SHOTS_SHOTS : Fld := ⟨0x00A0018, 24, 0⟩
def DTS_CHK_ERR_PORT : Fld := ⟨0x00A001C, 12, 12⟩
def DTS_CHK_ERR_FIBRE : Fld := ⟨0x00A001C, 11, 8⟩
def DTS_CHK_ERR_SUBCODE : Fld := ⟨0x00A001C, 4, 0⟩
def DTS_SUPP_CNT_COUNT : Fld := ⟨0x00A0020, 31, 0⟩
def DTS_EXCL_CNT_COUNT : Fld := ⟨0x00A0024, 31, 0⟩
def DTS_ABANDON_CNT_COUNT : Fld := ⟨0x00A0028, 15, 0⟩
def DTS_CTRL_MIN_FRAC (p : Nat) : Fld := ⟨0x00A0100 + 0x100 * p, 15, 8⟩
def DTS_CTRL_RAW (p : Nat) : Fld := ⟨0x00A0100 + 0x100 * p, 0, 0⟩
def DTS_GAMMA_MK (p : Nat) : Fld := ⟨0x00A0104 + 0x100 * p, 31, 0⟩
def DTS_NG_R_NG (p : Nat) : Fld := ⟨0x00A0108 + 0x100 * p, 31, 0⟩
def DTS_Z0_BIN_BIN (p : Nat) : Fld := ⟨0x00A010C + 0x100 * p, 17, 0⟩
def DTS_DARK_DARK_N (p : Nat) : Fld := ⟨0x00A0110 + 0x100 * p, 29, 18⟩
def DTS_DARK_DARK_FIRST (p : Nat) : Fld := ⟨0x00A0110 + 0x100 * p, 17, 0⟩
def DTS_PROF_CNT_COUNT (p : Nat) : Fld := ⟨0x00A0114 + 0x100 * p, 31, 0⟩
def DTS_LAST_FIBRE (p : Nat) : Fld := ⟨0x00A0118 + 0x100 * p, 19, 16⟩
def DTS_LAST_FLAGS (p : Nat) : Fld := ⟨0x00A0118 + 0x100 * p, 15, 0⟩
def DTS_LAST_CONST_CONST (p : Nat) : Fld := ⟨0x00A011C + 0x100 * p, 31, 0⟩
def DTS_LAST_INV_BINS (p : Nat) : Fld := ⟨0x00A0120 + 0x100 * p, 17, 0⟩

/-! ### TRAIN block -/

def TRAIN_CTRL_EN_B : Fld := ⟨0x00B0000, 1, 1⟩
def TRAIN_CTRL_EN_A : Fld := ⟨0x00B0000, 0, 0⟩
def TRAIN_POOL_LO_POOL : Fld := ⟨0x00B0004, 31, 0⟩
def TRAIN_POOL_HI_POOL : Fld := ⟨0x00B0008, 31, 0⟩
def TRAIN_ENTRY_ENTRY_B : Fld := ⟨0x00B000C, 25, 16⟩
def TRAIN_ENTRY_ENTRY_A : Fld := ⟨0x00B000C, 9, 0⟩
def TRAIN_CYC_MAX_A_CYCLES : Fld := ⟨0x00B0010, 16, 0⟩
def TRAIN_CYC_MAX_B_CYCLES : Fld := ⟨0x00B0014, 16, 0⟩
def TRAIN_STATUS_ACTIVE : Fld := ⟨0x00B0018, 22, 16⟩
def TRAIN_STATUS_BUF_USED : Fld := ⟨0x00B0018, 9, 0⟩
def TRAIN_RETIRED_LO_RETIRED : Fld := ⟨0x00B001C, 31, 0⟩
def TRAIN_RETIRED_HI_RETIRED : Fld := ⟨0x00B0020, 31, 0⟩
def TRAIN_RETIRE_KEY : Fld := ⟨0x00B0024, 31, 16⟩
def TRAIN_RETIRE : Fld := ⟨0x00B0024, 6, 6⟩
def TRAIN_RETIRE_ENGINE : Fld := ⟨0x00B0024, 5, 0⟩
def TRAIN_CHK_ERR_SUBCODE : Fld := ⟨0x00B0028, 4, 0⟩
def TRAIN_TILES_A_COUNT : Fld := ⟨0x00B0030, 31, 0⟩
def TRAIN_TILES_B_COUNT : Fld := ⟨0x00B0034, 31, 0⟩
def TRAIN_STEAL_CNT_COUNT : Fld := ⟨0x00B0038, 31, 0⟩
def TRAIN_RERUN_CNT_COUNT : Fld := ⟨0x00B003C, 15, 0⟩
def TRAIN_SKIP_CNT_COUNT : Fld := ⟨0x00B0040, 31, 0⟩
def TRAIN_TRAP_CNT_COUNT : Fld := ⟨0x00B0044, 15, 0⟩
def TRAIN_LAST_TRAP_CODE : Fld := ⟨0x00B0048, 31, 24⟩
def TRAIN_LAST_TRAP_SOFT : Fld := ⟨0x00B0048, 23, 16⟩
def TRAIN_LAST_TRAP_PORT : Fld := ⟨0x00B0048, 15, 15⟩
def TRAIN_LAST_TRAP_PC : Fld := ⟨0x00B0048, 9, 0⟩
def TRAIN_LAST_TROW_TROW : Fld := ⟨0x00B004C, 31, 0⟩
def TRAIN_ECC_CORR_COUNT : Fld := ⟨0x00B0050, 15, 0⟩
def TRAIN_MASTER_CRC_IMEM : Fld := ⟨0x00B0060, 31, 0⟩
def TRAIN_MASTER_CRC_C_CONST : Fld := ⟨0x00B0064, 31, 0⟩

/-! ### ZONE block -/

def ZONE_ZCTRL_NB (p : Nat) : Fld := ⟨0x00C0000 + 0x100 * p, 19, 16⟩
def ZONE_ZCTRL_ZROWS (p : Nat) : Fld := ⟨0x00C0000 + 0x100 * p, 15, 4⟩
def ZONE_ZCTRL_OV_EN (p : Nat) : Fld := ⟨0x00C0000 + 0x100 * p, 1, 1⟩
def ZONE_ZCTRL_Z_EN (p : Nat) : Fld := ⟨0x00C0000 + 0x100 * p, 0, 0⟩
def ZONE_OVCTRL_OV_BIN (p : Nat) : Fld := ⟨0x00C0004 + 0x100 * p, 22, 16⟩
def ZONE_OVCTRL_OV_ROWS (p : Nat) : Fld := ⟨0x00C0004 + 0x100 * p, 15, 0⟩
def ZONE_ZSTATUS_NZ (p : Nat) : Fld := ⟨0x00C0008 + 0x100 * p, 12, 0⟩
def ZONE_ROW_CNT_COUNT (p : Nat) : Fld := ⟨0x00C000C + 0x100 * p, 31, 0⟩
def ZONE_INC_CNT_COUNT (p : Nat) : Fld := ⟨0x00C0010 + 0x100 * p, 31, 0⟩
def ZONE_BADWORD_CNT_COUNT (p : Nat) : Fld := ⟨0x00C0014 + 0x100 * p, 15, 0⟩
def ZONE_BADLEN_CNT_COUNT (p : Nat) : Fld := ⟨0x00C0018 + 0x100 * p, 15, 0⟩
def ZONE_CHK_ERR_ZONE : Fld := ⟨0x00C0200, 27, 16⟩
def ZONE_CHK_ERR_PORT : Fld := ⟨0x00C0200, 8, 8⟩
def ZONE_CHK_ERR_SUBCODE : Fld := ⟨0x00C0200, 4, 0⟩

/-! ### CHR block -/

def CHR_CH_CTRL_EN (c : Nat) : Fld := ⟨0x00D0000 + 0x20 * c, 31, 31⟩
def CHR_CH_CTRL_MODE (c : Nat) : Fld := ⟨0x00D0000 + 0x20 * c, 30, 30⟩
def CHR_CH_CTRL_POL (c : Nat) : Fld := ⟨0x00D0000 + 0x20 * c, 29, 29⟩
def CHR_CH_CTRL_COND (c : Nat) : Fld := ⟨0x00D0000 + 0x20 * c, 28, 28⟩
def CHR_CH_CTRL_PORT (c : Nat) : Fld := ⟨0x00D0000 + 0x20 * c, 27, 27⟩
def CHR_CH_CTRL_TYPE (c : Nat) : Fld := ⟨0x00D0000 + 0x20 * c, 26, 24⟩
def CHR_CH_CTRL_SRC (c : Nat) : Fld := ⟨0x00D0000 + 0x20 * c, 23, 20⟩
def CHR_CH_CTRL_MASK_SEL (c : Nat) : Fld := ⟨0x00D0000 + 0x20 * c, 19, 18⟩
def CHR_CH_CTRL_ZONE (c : Nat) : Fld := ⟨0x00D0000 + 0x20 * c, 11, 0⟩
def CHR_THR_HI_THR (c : Nat) : Fld := ⟨0x00D0004 + 0x20 * c, 31, 0⟩
def CHR_THR_LO_THR (c : Nat) : Fld := ⟨0x00D0008 + 0x20 * c, 31, 0⟩
def CHR_WIDTH_W_MAX (c : Nat) : Fld := ⟨0x00D000C + 0x20 * c, 31, 16⟩
def CHR_WIDTH_W_MIN (c : Nat) : Fld := ⟨0x00D000C + 0x20 * c, 15, 0⟩
def CHR_PRE_TICKS (c : Nat) : Fld := ⟨0x00D0010 + 0x20 * c, 23, 0⟩
def CHR_POST_TICKS (c : Nat) : Fld := ⟨0x00D0014 + 0x20 * c, 23, 0⟩
def CHR_CAP_ZCOUNT (c : Nat) : Fld := ⟨0x00D0018 + 0x20 * c, 28, 16⟩
def CHR_CAP_CAP_MARGIN (c : Nat) : Fld := ⟨0x00D0018 + 0x20 * c, 12, 0⟩
def CHR_CH_STATUS_STATE (c : Nat) : Fld := ⟨0x00D001C + 0x20 * c, 31, 30⟩
def CHR_CH_STATUS_REASON (c : Nat) : Fld := ⟨0x00D001C + 0x20 * c, 17, 16⟩
def CHR_CH_STATUS_MISSED (c : Nat) : Fld := ⟨0x00D001C + 0x20 * c, 15, 0⟩
def CHR_ARM : Fld := ⟨0x00D0400, 31, 0⟩
def CHR_SLOT_BUSY_BUSY : Fld := ⟨0x00D0408, 15, 0⟩
def CHR_CAP_CNT_COUNT : Fld := ⟨0x00D040C, 31, 0⟩
def CHR_MISS_CNT_NO_SLOT : Fld := ⟨0x00D0410, 31, 16⟩
def CHR_MISS_CNT_REARM : Fld := ⟨0x00D0410, 15, 0⟩
def CHR_GAP_CNT_COUNT : Fld := ⟨0x00D0414, 15, 0⟩
def CHR_CHK_ERR_REASON : Fld := ⟨0x00D0418, 15, 13⟩
def CHR_CHK_ERR_CH : Fld := ⟨0x00D0418, 12, 8⟩
def CHR_CHK_ERR_SUBCODE : Fld := ⟨0x00D0418, 4, 0⟩
def CHR_NEXT_ID_CAP_ID : Fld := ⟨0x00D041C, 31, 0⟩
def CHR_SLOT_BUSY (s : Nat) : Fld := ⟨0x00D0500 + 0x10 * s, 31, 31⟩
def CHR_SLOT_PORT (s : Nat) : Fld := ⟨0x00D0500 + 0x10 * s, 8, 8⟩
def CHR_SLOT_PRIMARY (s : Nat) : Fld := ⟨0x00D0500 + 0x10 * s, 4, 0⟩
def CHR_SLOT_ID_CAP_ID (s : Nat) : Fld := ⟨0x00D0504 + 0x10 * s, 31, 0⟩
def CHR_SLOT_TICKS_TICKS (s : Nat) : Fld := ⟨0x00D0508 + 0x10 * s, 31, 0⟩
def CHR_MISS_T_LO_TIME (c : Nat) : Fld := ⟨0x00D0600 + 0x8 * c, 31, 0⟩
def CHR_MISS_T_HI_TIME (c : Nat) : Fld := ⟨0x00D0604 + 0x8 * c, 31, 0⟩

/-! ### CODEC block -/

def CODEC_CTRL_EFFORT (p : Nat) : Fld := ⟨0x00E0000 + 0x40 * p, 6, 4⟩
def CODEC_CTRL_POLICY (p : Nat) : Fld := ⟨0x00E0000 + 0x40 * p, 2, 2⟩
def CODEC_CTRL_QUAL (p : Nat) : Fld := ⟨0x00E0000 + 0x40 * p, 1, 1⟩
def CODEC_CTRL_EN (p : Nat) : Fld := ⟨0x00E0000 + 0x40 * p, 0, 0⟩
def CODEC_BLOCKS_COUNT (p : Nat) : Fld := ⟨0x00E0004 + 0x40 * p, 31, 0⟩
def CODEC_IN_BYTES_BYTES (p : Nat) : Fld := ⟨0x00E0008 + 0x40 * p, 31, 0⟩
def CODEC_OUT_BYTES_BYTES (p : Nat) : Fld := ⟨0x00E000C + 0x40 * p, 31, 0⟩
def CODEC_INCOMP_CNT_COUNT (p : Nat) : Fld := ⟨0x00E0010 + 0x40 * p, 31, 0⟩
def CODEC_ROWRAW_CNT_COUNT (p : Nat) : Fld := ⟨0x00E0014 + 0x40 * p, 31, 0⟩
def CODEC_STATUS_POOL_FREE : Fld := ⟨0x00E0100, 9, 0⟩
def CODEC_VERIFY_CNT_COUNT : Fld := ⟨0x00E0104, 15, 0⟩
def CODEC_DROP_CNT_COUNT : Fld := ⟨0x00E0108, 15, 0⟩
def CODEC_LAST_VFAIL_PORT : Fld := ⟨0x00E010C, 31, 31⟩
def CODEC_LAST_VFAIL_TCOL : Fld := ⟨0x00E010C, 30, 16⟩
def CODEC_LAST_VFAIL_TROW : Fld := ⟨0x00E010C, 15, 0⟩
def CODEC_LOAD_MEVAL : Fld := ⟨0x00E0110, 15, 0⟩
def CODEC_CHK_ERR_SUBCODE : Fld := ⟨0x00E0114, 5, 0⟩

/-! ### MC block -/

def MC_STATUS_REASON (h : Nat) : Fld := ⟨0x00F0000 + 0x8000 * h, 15, 13⟩
def MC_STATUS_SPEED (h : Nat) : Fld := ⟨0x00F0000 + 0x8000 * h, 12, 10⟩
def MC_STATUS_DIMM1_DROPPED (h : Nat) : Fld := ⟨0x00F0000 + 0x8000 * h, 9, 9⟩
def MC_STATUS_SPARE_BAD (h : Nat) : Fld := ⟨0x00F0000 + 0x8000 * h, 8, 8⟩
def MC_STATUS_SPARE_AVAIL (h : Nat) : Fld := ⟨0x00F0000 + 0x8000 * h, 7, 7⟩
def MC_STATUS_MIGRATING (h : Nat) : Fld := ⟨0x00F0000 + 0x8000 * h, 6, 6⟩
def MC_STATUS_SR (h : Nat) : Fld := ⟨0x00F0000 + 0x8000 * h, 5, 4⟩
def MC_STATUS_STATE (h : Nat) : Fld := ⟨0x00F0000 + 0x8000 * h, 2, 0⟩
def MC_ORG_CAP_GIB (h : Nat) : Fld := ⟨0x00F0004 + 0x8000 * h, 31, 16⟩
def MC_ORG_DENSITY (h : Nat) : Fld := ⟨0x00F0004 + 0x8000 * h, 11, 10⟩
def MC_ORG_WIDTH (h : Nat) : Fld := ⟨0x00F0004 + 0x8000 * h, 9, 9⟩
def MC_ORG_RANKS (h : Nat) : Fld := ⟨0x00F0004 + 0x8000 * h, 7, 4⟩
def MC_ORG_DIMMS (h : Nat) : Fld := ⟨0x00F0004 + 0x8000 * h, 3, 0⟩
def MC_TRAIN_CTRL_MAXSPEED (h : Nat) : Fld := ⟨0x00F0008 + 0x8000 * h, 2, 0⟩
def MC_ECC_CTRL_SCRUB_H (h : Nat) : Fld := ⟨0x00F0010 + 0x8000 * h, 23, 16⟩
def MC_ECC_CTRL_CE_THR (h : Nat) : Fld := ⟨0x00F0010 + 0x8000 * h, 15, 0⟩
def MC_ACT_CTRL_ACT_THR (h : Nat) : Fld := ⟨0x00F0014 + 0x8000 * h, 14, 0⟩
def MC_SPARE_EN (h : Nat) : Fld := ⟨0x00F0018 + 0x8000 * h, 3, 3⟩
def MC_SPARE_RANK (h : Nat) : Fld := ⟨0x00F0018 + 0x8000 * h, 1, 0⟩
def MC_MIG_CTRL_MIG_RATE (h : Nat) : Fld := ⟨0x00F001C + 0x8000 * h, 7, 0⟩
def MC_MIGRATE_KEY (h : Nat) : Fld := ⟨0x00F0020 + 0x8000 * h, 31, 16⟩
def MC_MIGRATE_GO (h : Nat) : Fld := ⟨0x00F0020 + 0x8000 * h, 2, 2⟩
def MC_MIGRATE_RANK (h : Nat) : Fld := ⟨0x00F0020 + 0x8000 * h, 1, 0⟩
def MC_MIG_STATUS_PTR_GIB (h : Nat) : Fld := ⟨0x00F0024 + 0x8000 * h, 31, 16⟩
def MC_MIG_STATUS_LAST_REFUSE (h : Nat) : Fld := ⟨0x00F0024 + 0x8000 * h, 7, 6⟩
def MC_MIG_STATUS_CAUSE (h : Nat) : Fld := ⟨0x00F0024 + 0x8000 * h, 5, 4⟩
def MC_MIG_STATUS_SRC (h : Nat) : Fld := ⟨0x00F0024 + 0x8000 * h, 1, 0⟩
def MC_FREEZE_KEY (h : Nat) : Fld := ⟨0x00F0028 + 0x8000 * h, 31, 16⟩
def MC_FREEZE (h : Nat) : Fld := ⟨0x00F0028 + 0x8000 * h, 0, 0⟩
def MC_RANK_STATE_SERVES (h : Nat) (r : Nat) : Fld := ⟨0x00F0030 + 0x8000 * h + 0x4 * r, 5, 4⟩
def MC_RANK_STATE_STATE (h : Nat) (r : Nat) : Fld := ⟨0x00F0030 + 0x8000 * h + 0x4 * r, 2, 0⟩
def MC_ERR_CNT_UE (h : Nat) (r : Nat) : Fld := ⟨0x00F0040 + 0x8000 * h + 0x4 * r, 31, 16⟩
def MC_ERR_CNT_CE (h : Nat) (r : Nat) : Fld := ⟨0x00F0040 + 0x8000 * h + 0x4 * r, 15, 0⟩
def MC_UE_LAST_POISON (h : Nat) : Fld := ⟨0x00F0050 + 0x8000 * h, 29, 29⟩
def MC_UE_LAST_SUB (h : Nat) : Fld := ⟨0x00F0050 + 0x8000 * h, 28, 28⟩
def MC_UE_LAST_RANK (h : Nat) : Fld := ⟨0x00F0050 + 0x8000 * h, 27, 26⟩
def MC_UE_LAST_BANK (h : Nat) : Fld := ⟨0x00F0050 + 0x8000 * h, 25, 21⟩
def MC_UE_LAST_ROW (h : Nat) : Fld := ⟨0x00F0050 + 0x8000 * h, 20, 0⟩
def MC_PAR_CNT_REPLAY (h : Nat) : Fld := ⟨0x00F0058 + 0x8000 * h, 31, 16⟩
def MC_PAR_CNT_PAR (h : Nat) : Fld := ⟨0x00F0058 + 0x8000 * h, 15, 0⟩
def MC_ACT_NREF_COUNT (h : Nat) : Fld := ⟨0x00F0060 + 0x8000 * h, 31, 0⟩
def MC_ACT_REPL_COUNT (h : Nat) : Fld := ⟨0x00F0064 + 0x8000 * h, 31, 0⟩
def MC_SR_CNT_SR_ABORT (h : Nat) : Fld := ⟨0x00F0068 + 0x8000 * h, 31, 16⟩
def MC_SR_CNT_ENTRIES (h : Nat) : Fld := ⟨0x00F0068 + 0x8000 * h, 15, 0⟩
def MC_SCRUB_STATUS_PASSES (h : Nat) : Fld := ⟨0x00F006C + 0x8000 * h, 31, 16⟩
def MC_SCRUB_STATUS_PCT (h : Nat) : Fld := ⟨0x00F006C + 0x8000 * h, 6, 0⟩
def MC_RSV_SIZES_RAW_MIB : Fld := ⟨0x00F0400, 31, 16⟩
def MC_RSV_SIZES_JRN_MIB : Fld := ⟨0x00F0400, 15, 0⟩
def MC_RSV_STATUS_RESYNC : Fld := ⟨0x00F0404, 2, 2⟩
def MC_RSV_STATUS_LAYOUT_CUT : Fld := ⟨0x00F0404, 1, 1⟩
def MC_RSV_STATUS_SINGLE : Fld := ⟨0x00F0404, 0, 0⟩
def MC_RING_MIB_MIB : Fld := ⟨0x00F0408, 31, 0⟩
def MC_WRITE_RATE_KBPS : Fld := ⟨0x00F040C, 31, 0⟩
def MC_DEPTH_MS_MS : Fld := ⟨0x00F0410, 31, 0⟩
def MC_OLDEST_A_BEAT : Fld := ⟨0x00F0414, 31, 0⟩
def MC_OLDEST_B_BEAT : Fld := ⟨0x00F0418, 31, 0⟩
def MC_RSV_REQ_RAW_MIB : Fld := ⟨0x00F041C, 31, 16⟩
def MC_RSV_REQ_JRN_MIB : Fld := ⟨0x00F041C, 15, 0⟩
def MC_SNAP (h : Nat) (w : Nat) : Fld := ⟨0x00F0800 + 0x8000 * h + 0x4 * w, 31, 0⟩

/-! ### NET block -/

def NET_PORT_CTRL_PFC_PRI (n : Nat) : Fld := ⟨0x0100000 + 0x400 * n, 11, 9⟩
def NET_PORT_CTRL_PFC_EN (n : Nat) : Fld := ⟨0x0100000 + 0x400 * n, 8, 8⟩
def NET_PORT_CTRL_TRAIN_EN (n : Nat) : Fld := ⟨0x0100000 + 0x400 * n, 4, 4⟩
def NET_PORT_CTRL_FEC (n : Nat) : Fld := ⟨0x0100000 + 0x400 * n, 3, 3⟩
def NET_PORT_CTRL_SPEED (n : Nat) : Fld := ⟨0x0100000 + 0x400 * n, 2, 2⟩
def NET_PORT_CTRL_EN (n : Nat) : Fld := ⟨0x0100000 + 0x400 * n, 0, 0⟩
def NET_PORT_STATUS_RF_RX (n : Nat) : Fld := ⟨0x0100004 + 0x400 * n, 10, 10⟩
def NET_PORT_STATUS_LF (n : Nat) : Fld := ⟨0x0100004 + 0x400 * n, 9, 9⟩
def NET_PORT_STATUS_HI_BER (n : Nat) : Fld := ⟨0x0100004 + 0x400 * n, 8, 8⟩
def NET_PORT_STATUS_FEC_ALIGN (n : Nat) : Fld := ⟨0x0100004 + 0x400 * n, 7, 7⟩
def NET_PORT_STATUS_BLOCK_LOCK (n : Nat) : Fld := ⟨0x0100004 + 0x400 * n, 6, 6⟩
def NET_PORT_STATUS_TRAINED (n : Nat) : Fld := ⟨0x0100004 + 0x400 * n, 5, 5⟩
def NET_PORT_STATUS_STATE (n : Nat) : Fld := ⟨0x0100004 + 0x400 * n, 2, 0⟩
def NET_MAC_LO_MAC (n : Nat) : Fld := ⟨0x0100008 + 0x400 * n, 31, 0⟩
def NET_MAC_HI_MAC (n : Nat) : Fld := ⟨0x010000C + 0x400 * n, 15, 0⟩
def NET_VLAN_TAG_EN (n : Nat) : Fld := ⟨0x0100010 + 0x400 * n, 16, 16⟩
def NET_VLAN_PCP (n : Nat) : Fld := ⟨0x0100010 + 0x400 * n, 15, 13⟩
def NET_VLAN_VID (n : Nat) : Fld := ⟨0x0100010 + 0x400 * n, 11, 0⟩
def NET_TX_EQ_SWING (n : Nat) : Fld := ⟨0x0100014 + 0x400 * n, 23, 16⟩
def NET_TX_EQ_POST (n : Nat) : Fld := ⟨0x0100014 + 0x400 * n, 13, 8⟩
def NET_TX_EQ_PRE (n : Nat) : Fld := ⟨0x0100014 + 0x400 * n, 5, 0⟩
def NET_TX_EQ_NOW_SWING (n : Nat) : Fld := ⟨0x0100018 + 0x400 * n, 23, 16⟩
def NET_TX_EQ_NOW_POST (n : Nat) : Fld := ⟨0x0100018 + 0x400 * n, 13, 8⟩
def NET_TX_EQ_NOW_PRE (n : Nat) : Fld := ⟨0x0100018 + 0x400 * n, 5, 0⟩
def NET_RX_FRAMES_COUNT (n : Nat) : Fld := ⟨0x0100020 + 0x400 * n, 31, 0⟩
def NET_RX_BAD_FCS (n : Nat) : Fld := ⟨0x0100024 + 0x400 * n, 31, 16⟩
def NET_RX_BAD_LEN (n : Nat) : Fld := ⟨0x0100024 + 0x400 * n, 15, 0⟩
def NET_RX_DROP_COUNT (n : Nat) : Fld := ⟨0x0100028 + 0x400 * n, 31, 0⟩
def NET_TX_FRAMES_COUNT (n : Nat) : Fld := ⟨0x010002C + 0x400 * n, 31, 0⟩
def NET_FEC_CORR_COUNT (n : Nat) : Fld := ⟨0x0100030 + 0x400 * n, 31, 0⟩
def NET_FEC_UNCORR_COUNT (n : Nat) : Fld := ⟨0x0100034 + 0x400 * n, 31, 0⟩
def NET_BER_CNT_COUNT (n : Nat) : Fld := ⟨0x0100038 + 0x400 * n, 31, 0⟩
def NET_EB_CNT_DEL (n : Nat) : Fld := ⟨0x010003C + 0x400 * n, 31, 16⟩
def NET_EB_CNT_INS (n : Nat) : Fld := ⟨0x010003C + 0x400 * n, 15, 0⟩
def NET_LINK_CNT_EB_ERR (n : Nat) : Fld := ⟨0x0100040 + 0x400 * n, 31, 24⟩
def NET_LINK_CNT_TRAIN_FAIL (n : Nat) : Fld := ⟨0x0100040 + 0x400 * n, 23, 16⟩
def NET_LINK_CNT_DOWN_CNT (n : Nat) : Fld := ⟨0x0100040 + 0x400 * n, 15, 0⟩
def NET_PRBS_CTRL_INJ_RATE (n : Nat) : Fld := ⟨0x0100050 + 0x400 * n, 29, 24⟩
def NET_PRBS_CTRL_INJ (n : Nat) : Fld := ⟨0x0100050 + 0x400 * n, 8, 8⟩
def NET_PRBS_CTRL_PATTERN (n : Nat) : Fld := ⟨0x0100050 + 0x400 * n, 6, 4⟩
def NET_PRBS_CTRL_CHK_EN (n : Nat) : Fld := ⟨0x0100050 + 0x400 * n, 1, 1⟩
def NET_PRBS_CTRL_GEN_EN (n : Nat) : Fld := ⟨0x0100050 + 0x400 * n, 0, 0⟩
def NET_PRBS_STATUS_LOCK (n : Nat) : Fld := ⟨0x0100054 + 0x400 * n, 0, 0⟩
def NET_PRBS_ERR_COUNT (n : Nat) : Fld := ⟨0x0100058 + 0x400 * n, 31, 0⟩
def NET_FWD_CTRL_EN : Fld := ⟨0x0102000, 0, 0⟩
def NET_FWD_DROP_FULL (k : Nat) : Fld := ⟨0x0102004 + 0x4 * k, 31, 16⟩
def NET_FWD_DROP_DOWN (k : Nat) : Fld := ⟨0x0102004 + 0x4 * k, 15, 0⟩
def NET_FWD_LEVEL_P3_P2 : Fld := ⟨0x010200C, 31, 16⟩
def NET_FWD_LEVEL_P2_P3 : Fld := ⟨0x010200C, 15, 0⟩
def NET_REFCLK_LOST : Fld := ⟨0x0102010, 1, 1⟩
def NET_REFCLK_OK : Fld := ⟨0x0102010, 0, 0⟩

/-! ### REC block -/

def REC_CTRL_RETRY : Fld := ⟨0x0110000, 18, 16⟩
def REC_CTRL_TIMEOUT : Fld := ⟨0x0110000, 12, 8⟩
def REC_CTRL_UDP_EN : Fld := ⟨0x0110000, 0, 0⟩
def REC_STATUS_JRN_KIB_FREE : Fld := ⟨0x0110004, 31, 16⟩
def REC_STATUS_OPEN : Fld := ⟨0x0110004, 6, 0⟩
def REC_REFUSE_CNT_FULL : Fld := ⟨0x0110010, 31, 24⟩
def REC_REFUSE_CNT_POLICY : Fld := ⟨0x0110010, 23, 16⟩
def REC_REFUSE_CNT_VERSION : Fld := ⟨0x0110010, 15, 8⟩
def REC_REFUSE_CNT_AUTH : Fld := ⟨0x0110010, 7, 0⟩
def REC_RESEND_CNT_COUNT : Fld := ⟨0x0110014, 31, 0⟩
def REC_FAILOVER_CNT_CI_BAD : Fld := ⟨0x0110018, 31, 16⟩
def REC_FAILOVER_CNT_FAILOVER : Fld := ⟨0x0110018, 15, 0⟩
def REC_CNP_CNT_RX : Fld := ⟨0x011001C, 31, 16⟩
def REC_CNP_CNT_TX : Fld := ⟨0x011001C, 15, 0⟩
def REC_GAP_CNT_COUNT : Fld := ⟨0x0110020, 31, 0⟩
def REC_UDP_DROP_COUNT : Fld := ⟨0x0110024, 31, 0⟩
def REC_IP4_ADDR_ADDR (n : Nat) : Fld := ⟨0x0110100 + 0x40 * n, 31, 0⟩
def REC_IP4_GW_ADDR (n : Nat) : Fld := ⟨0x0110104 + 0x40 * n, 31, 0⟩
def REC_IP_CTRL_PFX6 (n : Nat) : Fld := ⟨0x0110108 + 0x40 * n, 23, 16⟩
def REC_IP_CTRL_PFX4 (n : Nat) : Fld := ⟨0x0110108 + 0x40 * n, 15, 8⟩
def REC_IP_CTRL_DSCP (n : Nat) : Fld := ⟨0x0110108 + 0x40 * n, 7, 2⟩
def REC_IP_CTRL_IP6_EN (n : Nat) : Fld := ⟨0x0110108 + 0x40 * n, 1, 1⟩
def REC_IP_CTRL_IP4_EN (n : Nat) : Fld := ⟨0x0110108 + 0x40 * n, 0, 0⟩
def REC_IP6_ADDR_ADDR (n : Nat) (w : Nat) : Fld := ⟨0x0110110 + 0x40 * n + 0x4 * w, 31, 0⟩
def REC_IP6_GW_ADDR (n : Nat) (w : Nat) : Fld := ⟨0x0110120 + 0x40 * n + 0x4 * w, 31, 0⟩
def REC_SESS_STATE_STREAMS (s : Nat) : Fld := ⟨0x0110400 + 0x10 * s, 22, 16⟩
def REC_SESS_STATE_POLICY (s : Nat) : Fld := ⟨0x0110400 + 0x10 * s, 13, 8⟩
def REC_SESS_STATE_ON_ALT (s : Nat) : Fld := ⟨0x0110400 + 0x10 * s, 7, 7⟩
def REC_SESS_STATE_PORT (s : Nat) : Fld := ⟨0x0110400 + 0x10 * s, 6, 5⟩
def REC_SESS_STATE_SECURE (s : Nat) : Fld := ⟨0x0110400 + 0x10 * s, 4, 4⟩
def REC_SESS_STATE_STATE (s : Nat) : Fld := ⟨0x0110400 + 0x10 * s, 2, 0⟩
def REC_INFLIGHT_KIB (s : Nat) : Fld := ⟨0x0110404 + 0x10 * s, 31, 0⟩
def REC_JOURNAL_KIB (s : Nat) : Fld := ⟨0x0110408 + 0x10 * s, 31, 0⟩
def REC_CLOSE_REASON (s : Nat) : Fld := ⟨0x011040C + 0x10 * s, 7, 0⟩

/-! ### PTP block -/

def PTP_OC_CTRL_REVERT_S (d : Nat) : Fld := ⟨0x0120000 + 0x40 * d, 31, 16⟩
def PTP_OC_CTRL_LOG_DREQ (d : Nat) : Fld := ⟨0x0120000 + 0x40 * d, 15, 12⟩
def PTP_OC_CTRL_TRANSPORT (d : Nat) : Fld := ⟨0x0120000 + 0x40 * d, 11, 10⟩
def PTP_OC_CTRL_DELAY (d : Nat) : Fld := ⟨0x0120000 + 0x40 * d, 9, 9⟩
def PTP_OC_CTRL_MANUAL (d : Nat) : Fld := ⟨0x0120000 + 0x40 * d, 8, 8⟩
def PTP_OC_CTRL_BACKUP (d : Nat) : Fld := ⟨0x0120000 + 0x40 * d, 5, 4⟩
def PTP_OC_CTRL_BK_EN (d : Nat) : Fld := ⟨0x0120000 + 0x40 * d, 3, 3⟩
def PTP_OC_CTRL_PRIMARY (d : Nat) : Fld := ⟨0x0120000 + 0x40 * d, 1, 0⟩
def PTP_SERVO_LOCK_NS (d : Nat) : Fld := ⟨0x0120004 + 0x40 * d, 31, 24⟩
def PTP_SERVO_STEP_NS (d : Nat) : Fld := ⟨0x0120004 + 0x40 * d, 23, 8⟩
def PTP_SERVO_KI_SH (d : Nat) : Fld := ⟨0x0120004 + 0x40 * d, 7, 4⟩
def PTP_SERVO_KP_SH (d : Nat) : Fld := ⟨0x0120004 + 0x40 * d, 3, 0⟩
def PTP_OC_STATUS_STATE (d : Nat) : Fld := ⟨0x0120008 + 0x40 * d, 18, 16⟩
def PTP_OC_STATUS_PORT (d : Nat) : Fld := ⟨0x0120008 + 0x40 * d, 9, 8⟩
def PTP_OC_STATUS_ON_BACKUP (d : Nat) : Fld := ⟨0x0120008 + 0x40 * d, 0, 0⟩
def PTP_OFFSET_PS (d : Nat) : Fld := ⟨0x012000C + 0x40 * d, 31, 0⟩
def PTP_MPD_PS (d : Nat) : Fld := ⟨0x0120010 + 0x40 * d, 31, 0⟩
def PTP_GM_ID_LO_ID (d : Nat) : Fld := ⟨0x0120014 + 0x40 * d, 31, 0⟩
def PTP_GM_ID_HI_ID (d : Nat) : Fld := ⟨0x0120018 + 0x40 * d, 31, 0⟩
def PTP_COUNTS_STEPS (d : Nat) : Fld := ⟨0x012001C + 0x40 * d, 31, 16⟩
def PTP_COUNTS_FALLBACKS (d : Nat) : Fld := ⟨0x012001C + 0x40 * d, 15, 0⟩
def PTP_ASYM_PS (n : Nat) : Fld := ⟨0x0120400 + 0x20 * n, 31, 0⟩
def PTP_PD_CTRL_PD_1STEP (n : Nat) : Fld := ⟨0x0120404 + 0x20 * n, 4, 4⟩
def PTP_PD_CTRL_LOG_PDELAY (n : Nat) : Fld := ⟨0x0120404 + 0x20 * n, 3, 0⟩
def PTP_LINK_DELAY_PS (n : Nat) : Fld := ⟨0x0120408 + 0x20 * n, 31, 0⟩
def PTP_TX_LAT_PS (n : Nat) : Fld := ⟨0x012040C + 0x20 * n, 31, 0⟩
def PTP_RX_LAT_PS (n : Nat) : Fld := ⟨0x0120410 + 0x20 * n, 31, 0⟩
def PTP_TC_CTRL_MODE : Fld := ⟨0x0120500, 1, 0⟩
def PTP_TC_CNT_FU_NOMATCH : Fld := ⟨0x0120504, 31, 16⟩
def PTP_TC_CNT_TC_FULL : Fld := ⟨0x0120504, 15, 0⟩
def PTP_RES_MAX_NS : Fld := ⟨0x0120508, 31, 0⟩

/-! ### CAL block -/

def CAL_CTRL_BG_SH : Fld := ⟨0x0130000, 11, 8⟩
def CAL_CTRL_RBG_EN : Fld := ⟨0x0130000, 2, 2⟩
def CAL_CTRL_BG_EN : Fld := ⟨0x0130000, 1, 1⟩
def CAL_CTRL_INTERP_EN : Fld := ⟨0x0130000, 0, 0⟩
def CAL_APPLY_THR_SKEW_THR : Fld := ⟨0x0130004, 23, 16⟩
def CAL_APPLY_THR_GAIN_THR : Fld := ⟨0x0130004, 15, 8⟩
def CAL_APPLY_THR_OFS_THR : Fld := ⟨0x0130004, 7, 0⟩
def CAL_USER_SEL_EN : Fld := ⟨0x0130008, 3, 3⟩
def CAL_USER_SEL_SET : Fld := ⟨0x0130008, 2, 0⟩
def CAL_STATUS_DAC_BUSY : Fld := ⟨0x013000C, 9, 9⟩
def CAL_STATUS_USER_ACTIVE : Fld := ⟨0x013000C, 8, 8⟩
def CAL_STATUS_STORE_BAD : Fld := ⟨0x013000C, 5, 5⟩
def CAL_STATUS_SETS_OK : Fld := ⟨0x013000C, 4, 0⟩
def CAL_TEMP_MK : Fld := ⟨0x0130010, 31, 0⟩
def CAL_LIMIT_CNT_COUNT : Fld := ⟨0x0130014, 31, 0⟩
def CAL_BG_CNT_COUNT : Fld := ⟨0x0130018, 31, 0⟩
def CAL_BG_LAST_OFS : Fld := ⟨0x013001C, 31, 16⟩
def CAL_BG_LAST_SLICE : Fld := ⟨0x013001C, 7, 0⟩
def CAL_CMD_KEY : Fld := ⟨0x0130020, 31, 16⟩
def CAL_CMD_DEST : Fld := ⟨0x0130020, 14, 12⟩
def CAL_CMD_SCOPE : Fld := ⟨0x0130020, 8, 0⟩
def CAL_ABORT_KEY : Fld := ⟨0x0130024, 31, 16⟩
def CAL_ABORT : Fld := ⟨0x0130024, 0, 0⟩
def CAL_CMD_STATUS_REASON : Fld := ⟨0x0130028, 23, 20⟩
def CAL_CMD_STATUS_STATE : Fld := ⟨0x0130028, 17, 16⟩
def CAL_CMD_STATUS_DONE : Fld := ⟨0x0130028, 8, 0⟩
def CAL_REF_UV_UV : Fld := ⟨0x013002C, 19, 0⟩
def CAL_START_SCOPE_DEST : Fld := ⟨0x0130030, 14, 12⟩
def CAL_START_SCOPE_SCOPE : Fld := ⟨0x0130030, 7, 0⟩
def CAL_FREQ_GATE_MS : Fld := ⟨0x0130034, 16, 0⟩
def CAL_TRACE_REF_UV : Fld := ⟨0x0130040, 31, 0⟩
def CAL_DAC_GAIN_GAIN : Fld := ⟨0x0130044, 31, 0⟩
def CAL_DAC_OFS_UV : Fld := ⟨0x0130048, 31, 0⟩
def CAL_XO_TRIM_TRIM : Fld := ⟨0x013004C, 31, 0⟩
def CAL_CHK_ERR_SET : Fld := ⟨0x0130050, 10, 8⟩
def CAL_CHK_ERR_SUBCODE : Fld := ⟨0x0130050, 5, 0⟩

end F

end Sys2Proof.Machine
end

