-- ==== Sys2Proof/Machine/StateBase.lean ====
section
/-!
DEFINITION. Machine/StateBase.lean: the parts of the state that belong to the module as a whole: the register bank, supplies and
the core's phase (chapters 02, 18), non-volatile memory and the running image (chapter 03), the management port and the event
unit (chapter 04). Every part carries its value at reset as the default of its field.
-/
namespace Sys2Proof.Machine

/-- One value for each sensing port. -/
structure Pair (α : Type) where
  a : α
  b : α
deriving DecidableEq, Repr

/-- The registers and the words of the table region. A field of a register is kept under the key 32 × address + lowest bit (Fld.key),
a table word under 32 × address. `act` holds active copies and live registers, `shd` the shadow copies of settings (R77),
`staged` the staging copy of the commit in progress (R62), `ret` the retained copy of the active settings (R430). -/
structure RegFile where
  act    : List (Nat × Nat)
  shd    : List (Nat × Nat) := []
  staged : List (Nat × Nat) := []
  ret    : List (Nat × Nat) := []
deriving DecidableEq, Repr

/-- Where the core stands: without supply; held in reset after a sequence of Table 02-8, an output fault or a trip; waiting for the start sequence; in
it; past it. -/
inductive Phase where
  | off | held | reset | starting | running
deriving DecidableEq, Repr

/-- What holds the core in reset until its own row ends it: a thermal trip (R28), the loss of both crystals (R98), an output fault (R38), a power-fail
sequence (R35). Several may hold it at once. -/
inductive Hold where
  | thermal | crystals | output | powerFail
deriving DecidableEq, Repr

/-- One entry of a power-fail marker (Table 16-11). -/
structure MarkerEntry where
  slot      : Nat
  start     : Nat
  oldestK   : Nat
  nextK     : Nat
  beatWord  : Nat
deriving DecidableEq, Repr

/-- A power-fail marker (R51, R394). -/
structure Marker where
  bootEpoch : Nat
  epoch     : Nat
  time      : Nat
  cause     : Nat
  beatA     : Nat
  beatB     : Nat
  lastStep  : Nat
  entries   : List MarkerEntry
deriving DecidableEq, Repr

/-- Supplies, pins and the phase of the core (chapters 02 and 18). -/
structure Power where
  phase     : Phase := .off
  holds     : List Hold := []        -- what holds the core in reset
  resetN    : Bool := true           -- RESET_N land as last seen (pull-up, Table 02-12)
  supply    : Bool := false          -- converters running: VBULK has crossed UVLO rising (Table 02-4)
  pgood     : Bool := false          -- PGOOD land
  intlkN    : Bool := false          -- INTLK_N land (pull-down, Table 02-12)
  intlkCut  : Bool := false          -- the present low of INTLK_N has cut drive (R136)
  lightAt   : Option Nat := none     -- device time since which INTLK_N and PFAIL_N have both been high (R47)
  feedSeen  : Pair Bool := ⟨false, false⟩  -- the feed's first debounced state has been taken (R33)
  vaux12    : Bool := false          -- VAUX12 on (R37, R38)
  v33       : Bool := false          -- V33_OUT on
  mcPwrEn   : Bool := false          -- MC0_PWR_EN and MC1_PWR_EN lands (Table 02-12)
  mcDrstN   : Bool := false          -- MC0_DRST_N and MC1_DRST_N lands (R316, R338)
  ppsOut    : Bool := false          -- PPS_OUT land
  ppsSrc    : Nat := 0               -- source of PPS_OUT in use (R111)
  ppsLast   : Option Nat := none     -- the second of the source that PPS_OUT last rose for, none after a step
  ppsEnd    : Nat := 0               -- device time at which the pulse in progress ends
  thermWarn : Bool := false          -- THERM_WARN in force (R28)
  dieMk     : Int := 0               -- last die temperature, mK, 273,150 for 0 °C (R165)
  tS        : Nat := 0               -- device time of step 1 of the running start (R59)
  startDone : Bool := false          -- the start sequence has ended (Table 03-1)
  trained   : Pair Bool := ⟨false, false⟩  -- training results held in the AO domain (R318)
  safeKept  : Nat := 0               -- reason of the SAFE state that a watchdog-class reset was taken in (R424)
  wakeHold  : Nat := 0               -- device time up to which no state deeper than DOZE is selected (R435)
  wakeAt    : Option Nat := none     -- device time at which the scheduled wake starts (R434)
  waking    : Option Nat := none     -- device time at which a management frame has begun an unscheduled wake (R435)
  entering  : Option Nat := none     -- NAP or SLEEP, chosen and being entered (R336, R337)
  drain     : Option Nat := none     -- t_R of a warm reset whose drain goes on (R425)
  marker    : Option Marker := none  -- the power-fail marker that entry to SLEEP has formed (R436)
deriving DecidableEq, Repr

/-- One copy of the boot record (R49): erased, torn or otherwise not valid, or valid with its content. -/
inductive BootCopy where
  | erased
  | torn
  | valid (counter running slot imgSeq : Nat)
deriving DecidableEq, Repr

/-- One customer key hash slot of the OTP (R58). -/
structure KeySlot where
  hash    : Option (BitVec 256) := none
  revoked : Bool := false
deriving DecidableEq, Repr

/-- The one-time-programmable fuses (R55, R58). -/
structure Otp where
  keys   : List KeySlot := [{}, {}, {}, {}]
  secVer : Nat := 0
deriving DecidableEq, Repr

/-- What outlasts every reset (Table 18-3): OTP, the SPI NOR, the supervisor firmware and the calibration store. The NOR's boot
record copies and marker log are kept as their contents; the image slots as bytes (an unlisted byte reads 0xFF, erased). -/
structure NonVol where
  otp      : Otp := {}
  boot0    : BootCopy := .erased
  boot1    : BootCopy := .erased
  markers  : List (Option Marker) := [none, none, none, none, none, none]   -- sector 0 then sector 1, three entries each (Table 03-2)
  nor      : Mem := []
  fwVer    : Nat := 0
  macBase  : Nat := 0                   -- MAC_BASE, 48 bits (R359, R405)
  calRegs  : List (Nat × Nat) := []     -- values of the fields that the store loads (R11), by key
  serial   : BitVec 64 := 0
  cert     : List Byte := []
  calStore : Mem := []
deriving DecidableEq, Repr

/-- A session policy (Table 16-2); `host` 0 permits any host. -/
structure Policy where
  autostart : Bool
  authReq   : Bool
  udp       : Bool
  primary   : Nat
  alt       : Option Nat
  domain    : Nat
  windowKib : Nat
  jrnKib    : Nat
  evtMask   : Nat
  host      : BitVec 128
  udpPort   : Nat
  streams   : List (Nat × Nat × Nat)    -- TYPE, PORT, OPTIONS of streams 1 to NSTREAM
deriving DecidableEq, Repr

/-- A management public key of the SESSION section, with its role (R377). -/
structure MgmtKey where
  x      : BitVec 256
  y      : BitVec 256
  secure : Bool
deriving DecidableEq, Repr

/-- A section of an image (Table 03-5): type, OPTIONAL, target and content. -/
structure Section where
  typ      : Nat
  optional : Bool
  target   : Nat
  content  : List Byte
deriving DecidableEq, Repr

/-- An image as read from a slot (Table 03-4, R53), with the digest that its signature covers. -/
structure Image where
  fmtMajor  : Nat
  hdrLen    : Nat
  imgSeq    : Nat
  secVer    : Nat
  raiseSv   : Bool
  startCal  : Bool
  part      : Nat
  minFw     : Nat
  lengthsOk : Bool
  sections  : List Section
  keySlot   : Nat
  keyHash   : BitVec 256
  pubX      : BitVec 256
  pubY      : BitVec 256
  sigR      : BitVec 256
  sigS      : BitVec 256
  digest    : BitVec 256
deriving DecidableEq, Repr

/-- The running image and what the start sequence found (chapter 03). -/
structure Boot where
  image      : Option Image := none
  slot       : Nat := 0
  policies   : List Policy := []
  mgmtKeys   : List MgmtKey := []
  counter    : Nat := 0                -- counter of the highest valid boot record (R50)
  verify     : Nat := 0                -- result of the last IMAGE_VERIFY: 0 none, 1 PASS, 2 and above the first failure
  keyLast    : Bool := false           -- the last KEY_REVOKE was refused with KEY_LAST (R58)
  nvmRefused : Nat := 0                -- refused writes of the NVM window, counted (procedure of chapter 03, step 2)
  burned     : Bool := false           -- the security version has been burned, or found not to need it, in this start (R55)
  endedRun   : Option Nat := none      -- boot epoch of the run before this start, when a valid record was found (R378)
  applied    : List (Nat × Nat) := []  -- the settings that the image gave at step 8, by key
deriving DecidableEq, Repr

/-- The commit and the checker, beside their registers (R61 to R68). -/
structure Commit where
  mask      : Nat := 0                 -- domains the commit in progress names
  reload    : Bool := false            -- the commit in progress is a reload of R67 and holds the lock
  wantReload : Nat := 0                -- what waits for a host commit to end (R68): 1, 2 the ACTION of a reload, 3 SAFE
  ref       : Nat := 0                 -- the reference that CRC_AUTO computed (R66)
  reloaded  : Bool := false            -- the first full pass after a reload is still to come (R68)
  skipPass  : Bool := false            -- no comparison until a pass that starts after completion has ended (R67)
  crcFault  : Bool := false            -- CRC_FAULT of ATTEST records (R68)
deriving DecidableEq, Repr

/-- A span of a domain clock's history (R110): the TIS count at which it began, the clock's time then, and RATE and whether the clock ran from there on. -/
structure DomSpan where
  edge : Nat
  t    : Nat
  rate : Int
  run  : Bool
deriving DecidableEq, Repr

/-- A PTP domain clock (R108): its time as a count of 2^-48 ns, whether it has been set (R110), whether it runs: EN as last applied, which a reset
of the core leaves (Table 18-3), and its history of 2 s, newest first (R110). -/
structure Dom where
  t    : Nat := 0
  set  : Bool := false
  run  : Bool := false
  hist : List DomSpan := []
deriving DecidableEq, Repr

/-- The Regulator beside its registers (R100 to R105): I and y as fractions of frequency; the stored offset of R103 in seconds; the
updates within ±100 ns; the temperatures T_0 and T_h; y over the last 70 s with its device times; y_h and t_h of holdover; the
ageing samples of the last 24 h with their device times; the stamps of the source's edges that R101 uses: edge 0, the edges since, and the number and
stamp of the last used edge that no update has taken; and the −Δ that TRIM has taken on in FREE (R98). -/
structure Regul where
  i       : Rat := 0
  y       : Rat := 0
  off     : Option Rat := none
  good    : Nat := 0
  t0      : Int := 0
  th      : Int := 0
  hist    : List (Nat × Rat) := []
  yh      : Rat := 0
  tHold   : Nat := 0
  ageing  : List (Nat × Rat) := []
  ageN    : Nat := 0
  edge0   : Option Nat := none
  edges   : Nat := 0
  edge    : Option (Nat × Nat) := none
  shift   : Int := 0
deriving DecidableEq, Repr

/-- Clocks and time bases (chapter 05): device time in ns with its 32-bit fraction (R106), the TIS coarse count and its wraps (R114), the
domain clocks (R108), Δ in 10^-12 (R98), windows of disagreement, the Regulator and the qualification of its sources (Table 05-3). -/
structure Clocks where
  dev      : Nat := 0
  frac     : Nat := 0
  coarse   : Nat := 0
  wraps    : Nat := 0
  nap      : Nat := 0                 -- in NAP and SLEEP, cycles since the last 25 ns step of the crystal (R109)
  doms     : List Dom := [{}, {}, {}, {}]
  delta    : Int := 0
  disagree : Nat := 0
  reg      : Regul := {}
  qual     : List (Nat × Nat) := []   -- qualified sources, coded as REG_SRC, with the device time since which they are (Table 05-3)
  refGood  : Nat := 0                 -- good measurements of REF_IN in a row
  ppsGood  : Nat := 0                 -- good PPS_IN intervals in a row
  ppsLast  : Option Nat := none       -- fine LSBs of the last PPS_IN pulse
deriving DecidableEq, Repr

/-- A stamp of the TIS (R113): wraps × 2^48 + coarse count, fine code, OVF. -/
structure Stamp where
  coarse : Nat
  fine   : Nat
  ovf    : Bool
deriving DecidableEq, Repr

/-- An input of the TIS: its FIFO, oldest first, and its last stamp (R112 to R114). -/
structure TisInput where
  fifo : List Stamp := []
  last : Option Stamp := none
deriving DecidableEq, Repr

/-- An interval unit (R115, R116): the edges taken since ARM in fine LSBs, whether NAP or SLEEP fell since the first of
them, and the device time of ARM. -/
structure IntUnit where
  start  : Option Nat := none
  stop   : Option Nat := none
  slept  : Bool := false
  armAt  : Nat := 0
deriving DecidableEq, Repr

/-- A frequency unit (R117): the device time at which its gate began, edges seen in the gate, points taken, the first point and the sums of the fit. -/
structure FreqUnit where
  from_ : Nat := 0
  edges : Nat := 0
  m     : Nat := 0
  t0    : Nat := 0
  st    : Int := 0
  skt   : Int := 0
  stt   : Int := 0
  short : Bool := false
deriving DecidableEq, Repr

/-- The interval stamper beside its registers. -/
structure Tis where
  inputs : List (Nat × TisInput) := []
  iu     : List (Nat × IntUnit) := []
  fu     : List (Nat × FreqUnit) := []
deriving DecidableEq, Repr

/-- One entry of the event log (Table 04-12). -/
structure LogEntry where
  cls  : Nat
  code : Nat
  port : Nat
  arg  : Nat
  time : Nat
deriving DecidableEq, Repr

/-- The event unit beside its registers: the log, oldest first, the levels of EVT_OUT[3:0], the pins now pulsing and the device time of each pin's latest
request of a pulse (R95). -/
structure Events where
  log     : List LogEntry := []
  out     : Nat := 0
  pulsing : Nat := 0
  pulseAt : List (Nat × Nat) := []
deriving DecidableEq, Repr

/-- The last access of the register bus: its read data and error flag (R75, R76). -/
structure BusResult where
  data : Word := 0
  err  : Bool := false
deriving DecidableEq, Repr

/-- The management SPI (R83 to R88): whether it serves, the result byte of the last completed frame, and the bytes that the last frame drove on MGMT_SDO: of
each run of poll bytes the one that shows READY, words, and a CRC byte. Between frames MGMT_SDO is at high impedance. Before any READ or WRITE frame has
completed the result byte is 0x00: the spec gives STATUS no value for it (DESIGN CHOICE, log entry 83). -/
structure Mgmt where
  serving : Bool := false
  result  : Byte := 0
  sdo     : List Byte := []
deriving DecidableEq, Repr

/-- Latches of the latching registers (R92), one value per register for a master class: keyed by the address of the low register,
for classes 0, 1 and 2 in turn; the Jewels' own latches of DEVTIME are with the engines. -/
structure Latches where
  sup  : List (Nat × Nat) := []
  spi  : List (Nat × Nat) := []
  net  : List (Nat × Nat) := []
deriving DecidableEq, Repr

end Sys2Proof.Machine
end

