-- ==== Sys2Proof/Machine/StateTrain.lean ====
section
/-!
DEFINITION. Machine/StateTrain.lean: the state of the Train, the Jewels, the zone unit and the Chronograph (chapters 11 and 12), and of
the codec and the Reserve (chapters 13 and 14).
-/
namespace Sys2Proof.Machine

/-- The settings of a beat that its ticks keep on their way through the pipe, the Train and the zone unit (R65, R209 to R211, R279): taken from the
port's plan, CPP, zone and codec settings in force at its t_B. -/
structure PipeSet where
  n         : Nat := 1
  d         : Nat := 2                 -- D: 1.2 GHz cycles per cell
  wide      : Bool := false
  flips     : List Nat := []           -- DIR_FLIP of each pattern step in use
  phases    : List Nat := []           -- PHASE0 of each pattern step in use
  bands     : List (List Nat) := []    -- per sub-band: CENTRE, BW, TP, AMP, TAPER, DIR
  range     : Nat := 0
  tl        : Nat := 0
  g         : Nat := 0
  dly       : Nat := 0
  fill      : Nat := 0
  alpha     : Nat := 0
  meanSh    : Nat := 0
  fadeThr   : Nat := 0
  blankMax  : Nat := 0
  settleBl  : Bool := false
  mant      : Nat := 0
  sh        : Nat := 0
  srLsb     : Nat := 0
  codec     : Nat := 0                 -- CODEC.CTRL as coded in Table 13-6
  nb        : Nat := 0
  zones     : List (Nat × Nat × Nat) := []   -- zone, first cell, cells
  zEn       : Bool := false            -- Z_EN, ZROWS, OV_EN, OV_BIN, OV_ROWS (R279, R280)
  zRows     : Nat := 0
  ovEn      : Bool := false
  ovBin     : Nat := 0
  ovRows    : Nat := 0
deriving DecidableEq, Repr

/-- A tile (R260, Table 11-11): its place, its size, what its descriptor carries, its values and quality bytes (keyed 512 × t + c; an
unlisted position holds 0x8000 and 0xC0, R246), the record flags of its ticks, and the codec settings and epoch it belongs to. -/
structure Tile where
  id      : TileId
  cells   : Nat
  ticks   : Nat
  row0    : Bool := false
  epoch   : Nat := 0
  part    : Bool := false              -- PARTIAL (R5)
  m0      : Nat := 0                   -- first tick, counted since the start of acquisition (R283)
  beat    : Nat := 0
  tick0   : Nat := 0
  nsub    : Nat := 1
  tl      : Nat := 0
  srLsb   : Nat := 0
  acq     : Nat := 0                   -- the run of acquisition it belongs to: start or plan restart (R290)
  timeEnd : Nat := 0                   -- device time at which its last sample is in: the tile end (R17, R20)
  timeLast : Nat := 0                  -- launch of its last tick, device time (R289)
  lsbs    : List Nat := []             -- optical launch instant of each tick, fine LSBs of the TIS (R16)
  marks   : List Nat := []             -- LMON_MISS, NO_LAUNCH, CONV_SUSPECT of each tick, as record FLAGS bits (Table 16-5)
  nb      : Nat := 0
  segs    : List (Nat × Nat × Nat) := []   -- zone, first cell in the tile, cell count
  codec   : Nat := 0                   -- CODEC.CTRL of the tile's epoch: EN, QUAL, POLICY, EFFORT as coded in Table 13-6
  set     : PipeSet := {}              -- the settings of its first beat
  vals    : List (Nat × Nat) := []
  quals   : List (Nat × Nat) := []
  pool    : Nat := 0                   -- pool, entry bundle and CYC_MAX in force when it entered the arrival queue (R263)
  entry   : Nat := 0
  cycMax  : Nat := 0
  moved   : Bool := false              -- it has moved between local queues (R265)
  seq     : Nat := 0                   -- order of arrival (R266)
deriving DecidableEq, Repr

/-- A MAC slot (R248): op, accumulator, operands, SAT. -/
structure MacSlot where
  op  : Nat
  acc : Nat
  a   : Nat
  b   : Nat
  sat : Bool
deriving DecidableEq, Repr

/-- The ALU slot (R249): op and its 18 operand bits as the destination, the two sources and sub; the imm forms use [7:0]. -/
structure AluSlot where
  op  : Nat
  dst : Nat
  a   : Nat
  b   : Nat
  sub : Nat
deriving DecidableEq, Repr

/-- A memory slot (R250). -/
structure MemSlot where
  op   : Nat
  d    : Nat
  ptr  : Nat
  mode : Nat
  mod  : Nat
deriving DecidableEq, Repr

/-- A bundle as its fields (Table 11-3); `bad` marks a reserved encoding that has no field of its own. -/
inductive Bundle where
  | compute (mac0 mac1 : MacSlot) (alu : AluSlot) (mx my : MemSlot) (rot : Bool)
  | br (target cond d : Nat)
  | loop (start stop count : Nat) (creg : Option Nat)
  | done
  | rdreg (dst addr : Nat)
  | trap (code : Nat)
  | ctlNop
  | ldi (dst : Nat) (imm : Word)
  | ldis (dst : Nat) (imm : Word)
  | bad
deriving DecidableEq, Repr

/-- The loop of an engine (R256): none, armed with START, END and count, or running from START to END. -/
inductive Loop where
  | none
  | armed (start stop count : Nat)
  | running (start stop : Nat)
deriving DecidableEq, Repr

/-- An engine (Table 11-1, R245, R255, R264). `d` is keyed by physical register, the accumulators by 2 × accumulator + lane (0 L, 1 H):
`acc` as an accumulating MAC sees them, `accVis` as the ALU sees them; `landing` holds the loads that land at the end of the
next bundle. -/
structure Jewel where
  d        : List (Nat × Word) := []
  acc      : List (Nat × Int) := []
  accVis   : List (Nat × Int) := []
  p        : List (Nat × Nat) := []
  m        : List (Nat × Nat) := []
  lc       : Nat := 0
  rb       : Nat := 0
  ovf      : Bool := false
  berr     : Bool := false
  pc       : Nat := 0
  loop     : Loop := .none
  landing  : List (Nat × Word) := []
  openB    : Option Bundle := none     -- the compute bundle that the operation commands are filling
  stall    : Nat := 0                  -- cycles in which nothing issues (a taken BR, the start of a tile)
  rdreg    : Option (Nat × Nat) := none -- RDREG waiting: physical destination, byte address
  cycles   : Nat := 0                  -- cycles of the running tile
  devLatch : Nat := 0                  -- its latch of DEVTIME (R92)
  idleAt   : Option Nat := none        -- TIS count at which its last tile reached DONE or a trap (R264)
  run      : Option Tile := none
  bank     : Option Tile := none       -- the tile whose data the current bank holds, which stay there once it has ended (R264, R272)
  next     : Option Tile := none
  wait     : List Tile := []           -- WAIT0, WAIT1, oldest first
  stole    : Bool := false             -- its tile is a steal (R265)
  back     : Bool := false             -- reset and reloaded; serves from the next module boundary (R266)
  imem     : Mem := []
  x        : Mem := []
  y        : Mem := []
deriving DecidableEq, Repr

/-- A tile's result on its way to the zone unit (R262): status 0 OK, 1 TRAP, 2 SKIPPED. -/
structure TileResult where
  tile   : Tile
  status : Nat
  trap   : Nat
  words  : List Word
deriving DecidableEq, Repr

/-- The Train (R263 to R268). `order` lists the tiles of a port whose results have not been handed on, in (restart, TROW, TCOL) order;
`results` the results that wait for their turn. -/
structure Train where
  ready    : Pair (List Tile) := ⟨[], []⟩  -- completed tiles that have not yet entered the arrival queue
  jewels   : List (Nat × Jewel) := []
  arrival  : List Tile := []
  order    : Pair (List TileId) := ⟨[], []⟩
  results  : List TileResult := []
  rr       : Nat := 0                  -- the next pool engine in round-robin order
  bridge   : Nat := 63                 -- the engine served last by the Train bridge (R257)
  seq      : Nat := 0
  overload : Bool := false             -- TRAIN_OVERLOAD issued since the last module boundary (R268)
  mImem    : Mem := []                 -- the master copy (R272)
  mCx      : Mem := []
  mCy      : Mem := []
deriving DecidableEq, Repr

/-- The accumulators of one zone (R277): N; S1, S2 and the bands in units of 2^-32; the extremes, none when N = 0. -/
structure ZAcc where
  n    : Nat := 0
  s1   : Int := 0
  s2   : Int := 0
  e    : List Int := []
  ext  : Option (Int × Int) := none
  inc  : Bool := false                 -- some result of the row was dropped (R277)
  incRows : Nat := 0                   -- INCOMPLETE rows of an interval (Table 12-4)
deriving DecidableEq, Repr

/-- A completed row of a zone, as a channel sees it (R281): row, its last tick m_T, the epoch, and the row product's sums. -/
structure RowProd where
  acq     : Nat
  restart : Nat
  row     : Nat
  no      : Nat                        -- rows counted by the zone unit, through every restart of tile counting (W of R282)
  mT      : Nat
  time    : Nat
  beat    : Nat                        -- beat and tick index of m_T
  tick    : Nat
  nsub    : Nat := 1                   -- ticks of a beat
  zones   : List (Nat × ZAcc)
deriving DecidableEq, Repr

/-- The zone unit of one port (R277 to R280). -/
structure ZoneUnit where
  row      : List (Nat × ZAcc) := []   -- accumulators of the row in progress, by zone
  int      : List (Nat × ZAcc) := []   -- sums of the interval in progress, by zone
  rows     : Nat := 0
  firstRow : Nat := 0
  first    : Option Tile := none       -- first tile of the interval (epoch, beat, time of its record)
  flags    : Nat := 0                  -- flags of the ticks of the interval (R16)
  overs     : List (Nat × (Int × Int)) := []   -- overview bins: least and greatest valid value
  ovRows   : Nat := 0
  ovFirst  : Option Tile := none
  ovFlags  : Nat := 0
  ovBins   : List (Nat × List (Nat × (Int × Int))) := []   -- bins of the rows being formed, by restart × 2^48 + TROW
  cur      : Option (Nat × Nat) := none -- restart and TROW of the row in progress
  rowNo    : Nat := 0                  -- rows begun so far
  cols     : List Nat := []            -- tile columns of the row in progress whose results have been received (R277)
  last     : Nat × Nat := (0, 0)       -- beat and tick of the last tick of the interval, and of the overview interval
  ovLast   : Nat × Nat := (0, 0)
deriving DecidableEq, Repr

/-- A trigger channel (R281 to R289). `q` holds the completed rows that it has not yet considered. -/
structure Channel where
  primed  : Bool := false
  inp     : Bool := false
  inr     : Bool := false
  hiSeen  : Bool := false
  s       : Nat := 0
  cnt     : Nat := 0
  lastLow : Nat := 0
  prev    : Option Nat := none         -- class of the row before: 0 LOW, 1 MID, 2 HIGH
  q       : List RowProd := []
  missT   : Nat := 0                   -- device time of the first missed fire pending report
deriving DecidableEq, Repr

/-- One cause of a capture (Table 12-5): channel, reason and count of its missed fires, time of the first. -/
structure CauseEntry where
  ch     : Nat
  reason : Nat
  missed : Nat
  time   : Nat
deriving DecidableEq, Repr

/-- The record in progress of a capture in one form (R389): its index, the tile of its first tick, that tick, its ticks and their flags (R16), restart and TROW of
the tile row whose blocks FORM 0 holds already, and its body. -/
structure CapRec where
  part   : Nat := 0
  first  : Option Tile := none
  firstM : Nat := 0
  ticks  : Nat := 0
  flags  : Nat := 0
  row    : Option (Nat × Nat) := none
  body   : List Byte := []
deriving DecidableEq, Repr

/-- A capture slot that is busy (R288 to R294). `next` is the next tick to read, `last` the last tick of the window. -/
structure Capture where
  port     : Port
  capId    : Nat
  acq      : Nat
  restart  : Nat
  row      : Nat
  mT       : Nat
  beat     : Nat
  tick     : Nat
  causes   : List CauseEntry
  primary  : Nat
  preReq   : Nat
  preAvail : Nat
  post     : Nat
  c0       : Nat
  c1       : Nat                       -- one past the last cell
  maskZone : Nat
  mask     : Bool
  value    : Nat
  next     : Nat                       -- next tick to read
  last     : Nat                       -- last tick of the window
  postShort : Bool := false
  split    : Bool := false
  gap      : Bool := false
  nsub     : Nat := 1                  -- ticks of a beat
  gapFrom  : Option Nat := none        -- first tick of a run that the Reserve no longer holds
  total    : Nat := 0
  epochSeen : Option Nat := none       -- the epoch of the last tick read (R292)
  form0    : CapRec := {}              -- the records in progress in FORM 0, FORM 1, and FORM 1 with quality (R389)
  form1    : CapRec := {}
  form1q   : CapRec := {}
deriving DecidableEq, Repr

/-- A block of the codec (Table 13-1) with its tile's place and ticks, its bytes, and its place in the ring (R342). -/
structure Block where
  tile  : Tile
  bytes : List Byte
  pos   : Nat := 0                     -- byte count of the ring stream at which it begins
deriving DecidableEq, Repr

/-- The codec (R309): tiles waiting to be coded per port, blocks in the output buffers in order, and the byte counts written into and
taken out of the buffers; events of the interval since the last module boundary (R307, R309). -/
structure Codec where
  queue    : Pair (List Tile) := ⟨[], []⟩
  out      : List Block := []
  wr       : Nat := 0
  rd       : Nat := 0
  outBytes : Pair Nat := ⟨0, 0⟩       -- block bytes with padding, beside IN_BYTES (Table 13-6)
  incomp   : Bool := false
  dropped  : Bool := false
deriving DecidableEq, Repr

/-- Where a burst lies (Table 14-7): rank, sub-channel, bank, row. -/
structure BurstAddr where
  rank : Nat
  sub  : Nat
  bank : Nat
  row  : Nat
deriving DecidableEq, Repr

/-- What a read of a burst meets (R319, R320). -/
inductive BurstRead where
  | clean | corrected | uncorrectable
deriving DecidableEq, Repr

/-- The refreshes of a rank (R324): the nominal instant of the last one (device time), whether the sensor reports above 85 °C, and how many were postponed and
issued back to back then. -/
structure RefreshRun where
  last      : Nat := 0
  hot       : Bool := false
  postponed : Nat := 0
deriving DecidableEq, Repr

/-- A memory channel beside its registers (chapter 14): its DIMMs in use, the activate tables keyed by ((rank × 2 + sub-channel) × 32 + bank)
with entries (row, count) in entry order, and the device time at which the refresh window began; the CE counts of the open window by rank, and the device time at
which it closes (R322); each rank's refreshes, and the device time from which they are due (R324); the bytes that the migration has copied, in whole units of 4 KiB, and how far it has come into
the next, in thousandths of a byte; by channel address, the errors that stand in the arrays and the
poisoned bursts; the 2 MiB segments written since training, the burst that the scrubber reads next, and the device time at which its pass
began (R321); and what R332 and Table 14-6 count. -/
structure MemChan where
  dimms    : List Dimm := []
  act      : List (Nat × List (Nat × Nat)) := []
  winStart : Nat := 0
  ceWin    : List (Nat × Nat) := []
  ceEnd    : Option Nat := none
  refreshed : List (Nat × RefreshRun) := []
  refBase  : Nat := 0
  migBytes : Nat := 0
  migPart  : Nat := 0
  errs     : List (Nat × ReadErr) := []
  poison   : List Nat := []
  written  : List Nat := []
  scrubAt  : Nat := 0
  scrubT   : Option Nat := none
  alerts   : Nat := 0
  parTimes : List Nat := []
  trainCrc : Word := 0
deriving DecidableEq, Repr

/-- The Reserve (R339 to R346): the ring's byte stream count, its regions in bytes per channel, and the blocks held, oldest first. -/
structure Reserve where
  ring0   : Nat := 0
  ring1   : Nat := 0
  wpos    : Nat := 0                   -- bytes written into the ring since layout
  blocks  : List Block := []
  secBytes : Nat := 0                  -- ring bytes written since the last second boundary (WRITE_RATE)
deriving DecidableEq, Repr

end Sys2Proof.Machine
end

