-- ==== Sys2Proof/Machine/StateAcq.lean ====
section
/-!
DEFINITION. Machine/StateAcq.lean: the state of acquisition: the Escapement's beats and launches (chapter 06), front ends and the HKC (chapter 07),
the conversion array (chapter 08), the coherent pipe and the tiles it forms (chapter 09), Raman temperature (chapter 10) and calibration
(chapter 17).
-/
namespace Sys2Proof.Machine

/-- A probe as the PSY synthesises it (R128): first frequency word and its step (signed, 2^-48 cycles per sample), start phase (2^-48 cycles),
length in samples, amplitude and window. -/
structure Probe where
  w0    : Int
  dlt   : Int
  phi   : Nat
  tp    : Nat
  amp   : Nat
  taper : Nat
deriving DecidableEq, Repr

/-- What a launch drives (R128 to R130): the probe with the scale FS_MV of both DAC outputs, and the gate's codes with their start and width in steps of
416.67 ps relative to t_k, around its hold code; `gate` is false when the gate stays at its hold level (R138). -/
structure Drive where
  probe   : Probe
  fsMv    : Nat := 0
  hold    : Int := 0
  gate    : Bool := true
  preAt   : Int := 0
  preW    : Nat := 0
  preAmp  : Nat := 0
  gateAt  : Int := 0
  gateW   : Nat := 0
  gateAmp : Nat := 0
deriving DecidableEq, Repr

/-- A launch and its tick (R122, R133, R137): tick `m` of acquisition `acq`, its beat and sub-band, nominal instant as TIS count, optical launch
instant as device time and as a stamp in fine LSBs (R16), pattern step, what its record flags will say, and the row of tiles it belongs to. `dark` covers suppressed launches, launches
under override and truncated ones. `gen` names the pipe state it forms on; `seg` counts the commits applied, which runs of fades do not cross
(R209, R210); `formed` counts its cells that the pipe has formed;
`t0` is the TIS count of its acquisition's first t_B. -/
structure Launch where
  acq     : Nat
  m       : Nat
  beat    : Nat
  k       : Nat
  edge    : Nat
  time    : Nat
  lsb     : Nat := 0
  step    : Nat
  dark    : Bool := false
  missed  : Bool := false
  suspect : Bool := false
  seg     : Nat := 0
  gen     : Nat := 0
  restart : Nat := 0
  trow    : Nat := 0
  set     : PipeSet := {}
  epoch   : Nat := 0
  part    : Bool := false
  formed  : Nat := 0
  t0      : Nat := 0
deriving DecidableEq, Repr

/-- A gain code of a ranger from a position on, and the position up to which its samples carry the settle flag (R147, R148). Positions count half cycles of
1.2 GHz on the TIS count: sample k of a port lies 2k of them after its first t_B, or k in wideband mode (R175). -/
structure GainSpan where
  from_  : Nat
  code   : Nat
  settle : Nat := 0
deriving DecidableEq, Repr

/-- The correction set and the spare map that a port's samples are taken with from a position on (R180, R194), and its CORR_GEN. -/
structure SetSpan where
  from_ : Nat
  gen   : Nat
  bank  : List (Nat × Nat)
  pos   : List Nat
deriving DecidableEq, Repr

/-- A fibre-end gap (R181, R186): its blocks lie from `from_` to `to_`, before the t_B at `tB`; SUB of those blocks, which of the port's four groups lend
their spare, the groups whose lending goes on to t_B (R185), and of gap gating whether it is in force and where the slices wake. -/
structure LendSpan where
  from_  : Nat
  to_    : Nat
  tB     : Nat
  sub    : Nat := 31
  groups : List Bool := []
  held   : List Nat := []
  gate   : Bool := false
  wake   : Nat := 0
deriving DecidableEq, Repr

/-- A mark on a port's samples from a position on, up to one where it has ended: an input in common-mode fault (R151), a slice that failed the watchdog
(R184), a group that failed twice (R185). -/
structure MarkSpan where
  key   : Nat
  from_ : Nat
  to_   : Option Nat := none
deriving DecidableEq, Repr

/-- What a port's samples were taken with, newest first, as far back as a tick or a raw window still needs: the rangers' codes, correction sets, gaps and
marks. The words and descriptors of Tables 08-3 and 08-5 are formed from it. -/
structure TakeLog where
  gx   : List GainSpan := []
  gy   : List GainSpan := []
  sets : List SetSpan := []
  gaps : List LendSpan := []
  cmf  : List MarkSpan := []
  bad  : List MarkSpan := []
  fail : List MarkSpan := []
deriving DecidableEq, Repr

/-- The LMON window of a launch (R133): opening in fine LSBs after t_k; `live` is false once a cut has truncated the launch. -/
structure LmonWin where
  m     : Nat
  edge  : Nat
  lo    : Int
  live  : Bool := true
  stamp : Bool := false
deriving DecidableEq, Repr

/-- What stood before the launch monitor took a stamp for launch `m` or missed it (R133, R134): LMON_DELAY and the delay, the runs, the launch's instants, and
whether it counted as a miss. A cut that truncates the launch's probe puts it back. -/
structure LmonWas where
  m       : Nat
  delay   : Nat
  lmonLsb : Int
  missRun : Nat
  hitRun  : Nat
  time    : Nat
  lsb     : Nat
  missed  : Bool := false
deriving DecidableEq, Repr

/-- The epoch and PARTIAL that the ticks of acquisition `acq` carry from tick `m` on (R64). -/
structure EpochMark where
  acq   : Nat
  m     : Nat
  epoch : Nat
  part  : Bool
deriving DecidableEq, Repr

/-- A row of tiles (R260): first tick, ticks so far, closed. -/
structure TileRow where
  restart : Nat
  trow    : Nat
  m0      : Nat
  ticks   : Nat := 0
  closed  : Bool := false
  done    : List Nat := []             -- columns whose tile is complete
deriving DecidableEq, Repr

/-- A tile being filled: values and quality bytes so far (keys as in Tile), and how many cell-ticks it holds. -/
structure OpenTile where
  restart : Nat
  trow    : Nat
  tcol    : Nat
  got     : Nat := 0
  vals    : List (Nat × Nat) := []
  quals   : List (Nat × Nat) := []
deriving DecidableEq, Repr

/-- A tick of a cell that stage 8 holds (R206 to R209): its launch, Φ as formed, the pair u, the state (0 GOOD, 1 FILLED, 2 RESYNC, 3 INVALID) and
the quality bits. -/
structure HeldTick where
  acq    : Nat := 0
  m      : Nat
  phi    : Int
  pair   : Nat := 0
  state  : Nat
  faded  : Bool := false
  blank  : Bool := false
  marked : Bool := false
  amp    : Nat := 0
  seg    : Nat := 0
deriving DecidableEq, Repr

/-- The state of a cell (R205, R206): Φ, offsets θ by pair, initialised pairs, Lbar, whether the last tick was invalid, Φ of the last tick emitted,
ticks formed and not emitted (oldest first), the last formed tick with its increment (R207), and the unfaded GOOD tick before the present run of
faded ticks (R208). -/
structure Cell where
  phi    : Int := 0
  theta  : List (Nat × Nat) := []
  init   : List Nat := []
  lbar   : Option Nat := none
  bad    : Bool := false
  out    : Int := 0
  held   : List HeldTick := []
  prev   : Option (HeldTick × Int) := none
  anchor : Option HeldTick := none
deriving DecidableEq, Repr

/-- The Escapement and pipe of one port beside their registers. -/
structure Acq where
  startAt  : Option Nat := none        -- device time at which a first t_B is due before what R47 holds back (R47, R135)
  acqNo    : Nat := 0                  -- acquisition starts and plan restarts so far
  beat     : Nat := 0
  m        : Nat := 0                  -- launches so far in this acquisition
  k        : Nat := 0                  -- sub-bands launched in the present beat
  b0       : Nat := 0                  -- beat at which the pattern last restarted (R123)
  t0       : Nat := 0                  -- TIS count at the first t_B of this acquisition (R175)
  edge0    : Nat := 0                  -- TIS count at the present t_B, in cycles, wraps included
  tB       : Nat := 0                  -- device time of the present t_B
  cut      : Bool := false             -- drive is cut on this port until a t_B at which it may resume (R137)
  clearAt  : Option Nat := none        -- device time since which everything permits launching
  drive    : Option Drive := none      -- what the PSY and the gate drive for the launch in progress
  window   : Option LmonWin := none
  early    : List Nat := []            -- LMON stamps in the window of the next launch, which opens before t_k, in fine LSBs (R133)
  lmonLsb  : Int := 0                  -- the most recent measured launch delay, fine LSBs (R133)
  was      : Option LmonWas := none    -- what the latest launch's stamp or miss has changed (R134)
  energy   : Nat := 0                  -- the gate's integral since t_B but for the launch in progress, steps × code² (R140)
  missRun  : Nat := 0
  hitRun   : Nat := 0
  lmonBad  : Bool := false
  tiles0   : Nat := 0                  -- restarts of tile counting so far (R260)
  nextRow  : Nat := 0                  -- TROW of the next row
  seg      : Nat := 0
  gen      : Nat := 0
  resetAt  : Option Nat := none        -- beat of the last state reset of the whole port
  restarting : Option Nat := none      -- TIS count at which the plan restart interval ends (R124)
  ends     : List (Nat × Nat) := []    -- acquisitions that have ended and their number of ticks, for captures (R292)
  epochs   : List EpochMark := []      -- newest first
  set      : PipeSet := {}
  launches : List Launch := []
  rows     : List TileRow := []
  tiles    : List OpenTile := []
  ended    : Bool := true              -- no further launch joins this acquisition
  cells    : List (Nat × List (Nat × Cell)) := []   -- per pipe state (gen), by cell
  gaps     : Nat := 0                  -- fibre-end gaps since the acquisition start (R181)
  lending  : Bool := false
  lent     : Bool := false             -- the gap of the present beat has begun
  log      : TakeLog := {}
  suspect  : Option Nat := none        -- the beat whose ticks carry CONV_SUSPECT (R184)
  resetWrite : Option Nat := none      -- device time of a port reset that has not yet let acquisition start again (R428)
deriving DecidableEq, Repr

/-- A ranger (R145 to R149): its blocks so far in this acquisition, low blocks counted, blocks left unevaluated, a decided code that applies when the next
block ends, and on I and Q the samples that a clamp still flags (R150). -/
structure Ranger where
  blk  : Nat := 0
  low  : Nat := 0
  hold : Nat := 0
  next : Option Nat := none
  clI  : Nat := 0
  clQ  : Nat := 0
deriving DecidableEq, Repr

/-- The front ends of one port beside their registers; `since` is the device time since when each input in fault has been in its window (R152). -/
structure Cfe where
  x : Ranger := {}
  y : Ranger := {}
  since : List Nat := [0, 0, 0, 0]
deriving DecidableEq, Repr

/-- The HKC beside its registers (R166 to R170): queued injections, how many of them a calibration waits for (R168), the next entry of a
running scan, whether another scan is due at its end, the device times at which calibration was given the HKC and the last scan was due, the good measurements since a break per RTD,
the device time of the last conversion of the die temperature, and whether a wake lets nothing else convert before it (R435). -/
structure Hkc where
  inj    : List Nat := []
  before : Nat := 0
  pos    : Option Nat := none
  due    : Bool := false
  calAt  : Nat := 0
  scanAt : Option Nat := none
  dieAt  : Option Nat := none
  first  : Bool := false
  good0  : Nat := 0
  good1  : Nat := 0
deriving DecidableEq, Repr

/-- A slice failure that waits for its boundary (R184, R185): slice and cause. -/
structure SliceFault where
  slice : Nat
  cause : Nat
deriving DecidableEq, Repr

/-- One beat that a raw window takes: acquisition and beat index, the TIS count of the acquisition's first t_B, the first block taken, the launch instant of its
first tick in fine LSBs, epoch, PARTIAL, and the record flags of its ticks by sub-band (R16). -/
structure RawBeat where
  acq   : Nat
  beat  : Nat
  t0    : Nat
  block : Nat
  wide  : Bool
  lsb   : Nat
  epoch : Nat
  part  : Bool
  marks : List (Nat × Nat) := []
  pos   : Nat := 0                     -- its place in the raw area copies (R344)
  len   : Nat := 0
  ticks : Nat := 1                     -- the beat's sub-bands
deriving DecidableEq, Repr

/-- A raw window (R188): latched port, start, blocks and beats; it starts at the first t_B from device time `from_`; the beats it has taken. -/
structure RawWin where
  port   : Port
  start  : Nat
  blocks : Nat
  beats  : Nat
  from_  : Nat
  taken  : List RawBeat := []
  ended  : Bool := false
deriving DecidableEq, Repr

/-- The conversion array beside its registers. -/
structure Adc where
  pend   : List SliceFault := []
  raw    : Option RawWin := none
  rturn  : Nat := 136                  -- the Raman slice measured next (R412)
  rdone  : Option Nat := none          -- the shot whose interval has been used for it, by its instant
deriving DecidableEq, Repr

/-- The settings that a Raman frame is computed with. -/
structure DtsSet where
  entry   : List Byte := []            -- its fibre entry, 64 bytes (Table 10-2)
  minFrac : Nat := 0
  raw     : Bool := false
  gamma   : Nat := 0
  ng      : Nat := 0
  z0      : Nat := 0
  darkN   : Nat := 0
  darkF   : Nat := 0
  binK    : Nat := 0
  shots   : Nat := 0
deriving DecidableEq, Repr

/-- A frame (R225 to R228): its sums and counts by 2 × bin + channel (0 Stokes, 1 anti-Stokes), and what its header reports. -/
structure RFrame where
  fibre   : Nat := 0
  sums    : List (Nat × (Nat × Nat)) := []
  shots   : Nat := 0
  excl    : Nat := 0
  supp    : Nat := 0
  tStart  : Option Nat := none
  lsb     : Nat := 0                   -- the first accumulated shot in fine LSBs of the TIS
  tEnd    : Nat := 0
  suspect : Bool := false
  stale   : Bool := false
  epoch   : Nat := 0
  part    : Bool := false
  set     : DtsSet := {}
  refs    : List (Option Int) := []    -- HKC channels 22 and 23 at the boundary, when VALID, mK
deriving DecidableEq, Repr

/-- The Raman path of one port beside its registers. -/
structure Raman where
  frame   : RFrame := {}
  closed  : Option RFrame := none
  fwd     : Option RFrame := none      -- a dual forward frame that waits for its reverse frame
  lost    : Nat := 0                   -- ABANDONED since the previous profile
  waits   : Bool := false              -- joins at the other port's next frame boundary (R225)
  consts  : List (Nat × (Int × Int)) := []   -- per fibre: the constant and Δa of its last profile
  satST   : Nat := 0                   -- SAT bins in a row
  satAS   : Nat := 0
  rstFor  : List Nat := []             -- APD outputs to return to their mode at the next boundary (R163)
  pos     : Option Nat := none         -- position of SW_SEQ in use
  idle    : Bool := false              -- the wait of IDLE × 10 ms is in progress (R226)
  idleEnd : Nat := 0                   -- device times at which the idle interval and the switch settle end (R132, R226)
  settleEnd : Nat := 0
  biasEnd  : Nat := 0                  -- device time at which the bias settle ends (R161)
  trigEnd : Option Nat := none         -- TIS count at which RTRIG falls again, while it is high (R131)
deriving DecidableEq, Repr

/-- Calibration beside its registers (chapter 17): background deltas by 3 × slice + (0 OFS, 1 GAIN, 2 SKEW); of the on-command run in progress the
scopes that it named (0 when none is in progress), those still to end, the set that receives the result, and what the ended scopes measured as (byte
offset, bytes, value). -/
structure Cal where
  bg      : List (Nat × Int) := []
  scope   : Nat := 0
  todo    : List Nat := []
  dest    : Nat := 0
  result  : List (Nat × Nat × Int) := []
  startAt : Nat := 0                     -- device time at which the scopes started
  ends    : List (Nat × Nat) := []       -- scopes that have ended, with the device time of their end
deriving DecidableEq, Repr

end Sys2Proof.Machine
end

