-- ==== Sys2Proof/Machine/StateNet.lean ====
section
/-!
DEFINITION. Machine/StateNet.lean: the state of the Ethernet ports beside their registers, of the forwarding pair and its transparent
clock, and of the ordinary clocks (chapter 15).
-/
namespace Sys2Proof.Machine

/-- A forwarded frame held whole until it leaves (R361), with stamps in fine LSBs of the TIS (R362): its ingress stamp, its egress stamp, at which it leaves,
and of a Follow_Up both stamps of its Sync (R368). -/
structure HeldFrame where
  enters : Nat
  leaves : Nat
  frame  : Frame
  sync   : Option (Nat × Nat) := none
deriving DecidableEq, Repr

/-- A residence entry of a two-step Sync (R368): its key, the Sync's ingress and egress stamps in fine LSBs of the TIS, and the device time of its making. -/
structure TcEntry where
  domain : Nat
  source : Nat
  seqId  : Nat
  enters : Nat
  leaves : Nat
  made   : Nat
deriving DecidableEq, Repr

/-- One direction of the forwarding pair: frames held in the order of their egress, how many of the module's own frames wait with them (R23), residence
entries, and the last frame that left. -/
structure Forward where
  queue : List HeldFrame := []
  own   : Nat := 0
  table : List TcEntry := []
  last  : Option Frame := none
deriving DecidableEq, Repr

/-- A port beside its registers: quanta for which its own frames are held, the device time of the PAUSE, and how many of them wait meanwhile (R360); the tag of
its last own frame (R359); device time of the lane's last entry to a state (R356) and since when it has met a fault (R352); the fill of the elastic buffer in
blocks (R353); the PRBS generator's pattern bits, newest first, how many it has sent, whether INJ waits for the next one, how many were inverted, and the bits that
it put on the line last, in order; the checker's pattern bits, newest first, its run of error-free bits and, newest first, which of its last 1,024 bits were
errors (R358); whether a Pdelay_Req of its own waits for its answer, its egress stamp, versionPTP and minorVersionPTP and the device time of the last one, the last
eight peer delays in ps, newest first, and the time that the last answer to a peer has told, 2^-16 ns (R369). -/
structure NetPort where
  held     : Nat := 0
  heldAt   : Nat := 0
  waiting  : Nat := 0
  tci      : Option Nat := none
  entered  : Nat := 0
  faultAt  : Option Nat := none
  fill     : Int := 16
  gen      : List Bool := []
  prbsSent : Nat := 0
  inject   : Bool := false
  inverted : Nat := 0
  line     : List Bool := []
  chk      : List Bool := []
  goodRun  : Nat := 0
  errs     : List Bool := []
  pdWait   : Bool := false
  pdOut    : Nat := 0
  pdSent   : Option (Nat × Nat) := none
  pdAt     : Option Nat := none
  pdLast   : List Int := []
  pdTurn   : Option Int := none
deriving DecidableEq, Repr

/-- The ports, the forwarding directions P2 to P3 and P3 to P2, and whether a loss of REFCLK_SD was issued and has not ended. -/
structure Net where
  p0      : NetPort := {}
  p1      : NetPort := {}
  p2      : NetPort := {}
  p3      : NetPort := {}
  fwd     : Pair Forward := ⟨{}, {}⟩
  refLost : Bool := false
  refAt   : Nat := 0                   -- device time of the last loss of REFCLK_SD
deriving DecidableEq, Repr

/-- A foreign master heard on a port: its Announce and how many were received. -/
structure Foreign where
  port  : Nat
  ann   : Announce
  count : Nat
deriving DecidableEq, Repr

/-- An ordinary clock beside its registers (R364 to R366): foreign masters, the selected master, whether a Delay_Req waits for its
answer, whether the path delay is known, whether the first offset of ACQUIRE is still to come, the last offset in ps, and the
consecutive offsets within LOCK_NS and above STEP_NS; the device times of the last Delay_Req, of the last accepted Sync with the log of its
interval, and since when PRIMARY has held a qualified master without a break; versionPTP and minorVersionPTP of the clock's last message (R364), the Delay_Req's
egress stamp in domain time and its correction, and by how much the last Sync came later than its corrected origin time (R363), all in 2^-16 ns. -/
structure OrdClock where
  foreign  : List Foreign := []
  selected : Option Announce := none
  dreqWait : Bool := false
  mpdKnown : Bool := false
  first    : Bool := true
  last     : Option Int := none
  inLock   : Nat := 0
  overs    : Nat := 0
  dreqAt   : Option Nat := none
  syncAt   : Option (Nat × Int) := none
  primAt   : Option Nat := none
  sent     : Option (Nat × Nat) := none
  t3       : Nat := 0
  reqCorr  : Int := 0
  behind   : Option Int := none
deriving DecidableEq, Repr

/-- The four ordinary clocks, by domain. -/
structure Ptp where
  clocks : List (Nat × OrdClock) := []
deriving DecidableEq, Repr

end Sys2Proof.Machine
end

