-- ==== Sys2Proof/Machine/StateRec.lean ====
section
/-!
DEFINITION. Machine/StateRec.lean: the state of the record engine (chapter 16): drafts of records on their way to the slots, session
slots with their streams, journals and command state, neighbours, and the UDP streams.
-/
namespace Sys2Proof.Machine

/-- What a producing block hands to the record engine: a record before it has a slot. `bodies` holds the payload in each form that a
stream may select: one form for most types; for CAPTURE, FORM 0, FORM 1 and FORM 1 with quality (R389); for DAS-CELL, the block as
stored and the block without its quality plane. `period` is that of a HOUSEKEEPING record; `slot` names the one slot of an ATTEST_NOW. -/
structure Draft where
  typ     : Nat                        -- Table 16-6
  port    : Nat                        -- 0 A, 1 B, 2 module
  codec   : Nat := 0
  flags   : Nat := 0
  epoch   : Nat := 0
  beat    : Nat := 0
  tick    : Nat := 0
  lsb     : Nat := 0                   -- the instant of its timestamp as a stamp of the TIS, fine LSBs (R16, R110, R388)
  first   : Nat := 0
  count   : Nat := 0
  bodies  : List (List Byte) := []
  cls     : Nat := 0                   -- event class, for EVENT drafts (R392)
  forced  : Bool := false              -- POWER_FAIL enters every EVENT stream (R392)
  period  : Nat := 0
  slot    : Option Nat := none
  gap     : Bool := false              -- a GAP record in the streams of type `typ`
  form    : Option Nat := none         -- of a CAPTURE record, the form it is in (R389): 0 FORM 0, 1 FORM 1, 2 FORM 1 with quality
  last    : Option (Nat × Nat) := none -- beat and tick of its last tick, where that is not its first
deriving DecidableEq, Repr

/-- A record (Table 16-5). -/
structure Rec where
  minor   : Nat
  typ     : Nat
  stream  : Nat
  port    : Nat
  codec   : Nat
  flags   : Nat
  seq     : Nat
  epoch   : Nat
  beat    : Nat
  tick    : Nat
  domain  : Nat
  tsFrac  : Nat
  tsNs    : Nat
  tsSec   : Nat
  first   : Nat
  count   : Nat
  payload : List Byte
deriving DecidableEq, Repr

/-- A record in a slot's journal: the byte count of the journal copies at which it stands (R345); whether it has been written into the host's ring, and the count at which it stands there (R383);
`ord` is its place in the order of sending, `last` the beat and tick of its last tick. -/
structure JRec where
  body : Rec
  pos  : Nat := 0
  sent : Option Nat := none
  ord  : Nat := 0
  last : Nat × Nat := (0, 0)
deriving DecidableEq, Repr

/-- An RDMA WRITE into host memory (R383, R384, R399): its address, its key and its bytes. -/
structure HostWrite where
  va    : Nat
  rkey  : Word
  bytes : List Byte
deriving DecidableEq, Repr

/-- A write into host memory besides a record, sent and not yet accepted: its place in the order of sending, its stream where it belongs to one, and the write
(R375, R383, R384, R397, R399). -/
structure OtherSend where
  ord    : Nat
  stream : Option Nat
  write  : HostWrite
deriving DecidableEq, Repr

/-- A NAK toward the host (Table 16-1, R375): of a remote access error, or that the receiver is not ready, with its timer in ns. -/
inductive Nak where
  | remoteAccess
  | notReady (timerNs : Nat)
deriving DecidableEq, Repr

/-- What a stream did not produce during a pause: beats, ticks and cells, first and last (R396, Table 16-10), and the
epoch and PARTIAL of the first record (R64). -/
structure Missed where
  beat0 : Nat
  tick0 : Nat
  beat1 : Nat
  tick1 : Nat
  first : Nat
  count : Nat
  epoch : Nat := 0
  part  : Bool := false
deriving DecidableEq, Repr

/-- A stream of a slot (R383 to R385): its type, port and options, the ring and index addresses of the Hello, the byte count P, the
producer index last written, the consumer index last taken, and what a pause kept back. -/
structure Stream where
  typ      : Nat
  port     : Nat := 2
  opts     : Nat := 0
  ringVa   : BitVec 64 := 0
  ringLog2 : Nat := 0
  rkey     : Word := 0
  piVa     : BitVec 64 := 0
  p        : Nat := 0
  pi       : Nat := 0
  ci       : Nat := 0
  missed   : Option Missed := none
  refused  : Bool := false             -- CAPTURE with FORM 1 under minor 0 (R381)
  udpGap   : Option (Nat × Nat) := none   -- first and last SEQ of the UDP records dropped since the last one sent (R400)
deriving DecidableEq, Repr

/-- The body of a management reply (Table 16-7): of HELLO the version chosen, START, the SEQ base and each stream's starting P; a signature; words;
a certificate's total length and a part of it; device time. -/
inductive ReplyBody where
  | empty
  | hello (major minor start base : Nat) (ps : List Nat)
  | signature (bytes : List Byte)
  | words (ws : List Word)
  | cert (total : Nat) (part : List Byte)
  | time (ns : Nat)
deriving DecidableEq, Repr

/-- A management reply (R399): OP, STATUS, CMD_SEQ and body. STATUS is 0 OK, 1 ERR, 2 BAD_CMD, 3 AUTH_FAIL, 4 NOT_AUTH, 5 VERSION or
6 RING_CHANGED. With it stands where the host takes it. -/
structure Reply where
  op     : Nat
  status : Nat
  cmdSeq : Nat
  body   : ReplyBody
  va     : Nat := 0
  rkey   : Word := 0
deriving DecidableEq, Repr

/-- A session slot beside its registers (R377 to R399). -/
structure Slot where
  start    : Nat := 0                  -- S (R393)
  k        : Nat := 0                  -- next k
  prev     : Nat := 0                  -- STATE before CONNECTING, taken back when no Hello comes (R379)
  streams  : List Stream := []
  journal  : List JRec := []           -- oldest first
  greeted  : Bool := false             -- a Hello has been taken (R392)
  minor    : Nat := 1
  mask     : Nat := 0                  -- the Hello's event mask
  authOk   : Bool := false
  authFail : Bool := false             -- AUTH failed; the session closes 1 ms later (R382)
  authAt   : Nat := 0                  -- device time of the last failed AUTH
  connAt   : Nat := 0                  -- device time of the OK reply that waits for its Hello (R379)
  ackAt    : Nat := 0                  -- device time from which the ACK timeout runs (R375)
  rateAt   : Nat := 0                  -- device time of the last CNP or rise of the rate (R376)
  holdFlag : Bool := false             -- the next EVENT record carries HOLDUP_SHORT (R388)
  replyVa  : BitVec 64 := 0
  replyRk  : Word := 0
  cmdFirst : Nat := 0                  -- the CMD_SEQ of the first command
  cmdNext  : Option Nat := none        -- the CMD_SEQ expected; none before the first command (R399)
  replies  : List Reply := []          -- the last eight, newest first
  paused   : Bool := false             -- production paused at the quota (R396)
  sends    : Nat := 0                  -- writes into host memory sent, the next place in the order of sending
  others   : List OtherSend := []      -- those sent and not accepted that are no records, oldest first
  wrote    : List HostWrite := []      -- those of the last turn of sending, in order
  psn      : Nat := 0                  -- PSN of the next packet sent (R374)
  rxPsn    : Nat := 0                  -- PSN of the next packet expected from the host
  nak      : Option Nak := none        -- the last NAK sent
  migReq   : Bool := false             -- MigReq in the packets sent (R397)
  hostAddr : BitVec 128 := 0           -- the host's address on the path in use
  hostAlt  : BitVec 128 := 0           -- its address on the other path; 0 where that is the same (log entry 83)
  hostQpn  : Nat := 0
  hostPsn  : Nat := 0
  pmtu     : Nat := 0
  nonce    : BitVec 128 := 0           -- DEV_NONCE
  rate     : Nat := 0                  -- send rate, b/s (R376)
  cnpAt    : Option Nat := none        -- device time of the last halving
  cnpTx    : Option Nat := none        -- device time of the last CNP sent (R376)
  tries    : Nat := 0                  -- failed tries on the path in use (R375)
  devAlt   : BitVec 128 := 0
deriving DecidableEq, Repr

/-- An answered CONNECT_REQ (R379): source, HOST_QPN and device time, and the CONNECT_REP of Table 16-3. -/
structure ConnectReply where
  source : BitVec 128
  qpn    : Nat
  time   : Nat
  status : Nat
  slot   : Nat
  pmtu   : Nat
  start  : Nat
  devQpn : Nat
  devPsn : Nat
  dbVa   : Nat
  dbRkey : Nat
  nonce  : BitVec 128
  devAlt : BitVec 128
deriving DecidableEq, Repr

/-- A neighbour whose MAC address is asked for, known, or was asked for three times without an answer (R373). -/
inductive NbState where
  | asking | resolved | unreachable
deriving DecidableEq, Repr

/-- A neighbour of a port (R373): its state and since when, and how many frames for it wait. -/
structure Neighbour where
  port    : Nat
  addr    : BitVec 128
  st      : NbState
  time    : Nat
  waiting : Nat := 0
deriving DecidableEq, Repr

/-- A datagram of UDP mode (R400): its target and its bytes, the fragment header first. -/
structure Datagram where
  host  : BitVec 128
  port  : Nat
  bytes : List Byte
deriving DecidableEq, Repr

/-- The record engine (chapter 16). `lastK` keeps, per slot number, the start in which it was last opened fresh and its next k (R393); `connects` holds the
CONNECT_REP datagrams of the last 10 s, newest first; `reply` is the management reply written last, with its slot. -/
structure RecEngine where
  slots      : List (Nat × Slot) := []
  lastK      : List (Nat × (Nat × Nat)) := []
  ready      : List Draft := []        -- drafts in the order of their production
  udpReady   : List (Nat × Draft) := []
  udpOut     : List Datagram := []     -- the datagrams of the last turn of a UDP policy (R400)
  connects   : List ConnectReply := []
  neighbours : List Neighbour := []
  answered   : Nat := 0                -- ARP, neighbour and echo requests answered
  reply      : Option (Nat × Reply) := none
  jrnPos     : Nat := 0                -- bytes written into the journal copies, the write pointer (R345)
  copyOf     : Nat := 0                -- the channel whose copies serve while SINGLE is set (R346)
  copyAt     : Option Nat := none      -- device time at which the copying to the other channel began
deriving DecidableEq, Repr

end Sys2Proof.Machine
end

