-- ==== Sys2Proof/Machine/State.lean ====
section
/-!
DEFINITION. Machine/State.lean: the state of the block: the queue of waiting commands, what outlasts every reset, and the module's volatile
and always-on state; the reasons for stopping; and the state right after reset.
-/
namespace Sys2Proof.Machine

/-- The machine beside the queue and the non-volatile stores. -/
structure Mach where
  regs   : RegFile
  pwr    : Power := {}
  boot   : Boot := {}
  commit : Commit := {}
  evt    : Events := {}
  bus    : BusResult := {}
  clk    : Clocks := {}
  tis    : Tis := {}
  mgmt   : Mgmt := {}
  latch  : Latches := {}
  train  : Train := {}
  zones  : Pair ZoneUnit := ⟨{}, {}⟩
  chans  : List (Nat × Channel) := []
  caps   : List (Nat × Capture) := []
  codec  : Codec := {}
  mcs    : Pair MemChan := ⟨{}, {}⟩
  rsv    : Reserve := {}
  net    : Net := {}
  ptp    : Ptp := {}
  recs   : RecEngine := {}
  acq    : Pair Acq := ⟨{}, {}⟩
  cfe    : Pair Cfe := ⟨{}, {}⟩
  hkc    : Hkc := {}
  adc    : Adc := {}
  dts    : Pair Raman := ⟨{}, {}⟩
  shotAt : Option Nat := none          -- TIS count of the last shot fired (R221)
  inst   : Option Nat := none          -- TIS count of the last shot instant, fired or suppressed
  grid   : Nat := 0                    -- TIS count that the FREE grid of shots is anchored at (R220, R222)
  cal    : Cal := {}
  free   : Nat := 0                    -- the model's own: how many free values have been taken
deriving DecidableEq, Repr

/-- The state of the block. -/
structure State where
  pending : List Instr
  nv      : NonVol
  m       : Mach
deriving DecidableEq, Repr

/-- Reasons to stop with a fault. No command of this block stops the machine (log entry 3). -/
inductive Fault where
  /-- Raised by no meaning: every command has an effect the spec gives. Safe: nothing ends here. -/
  | none
deriving DecidableEq, Repr

/-- Reasons to refuse a command. -/
inductive Refusal where
  /-- A command whose meaning is not written. Raised by an arm of exec only. Safe: nothing is claimed of it. -/
  | notModelled (mnemonic : String)
deriving DecidableEq, Repr

/-- The registers whose reset value is not zero (R11), by key. -/
def resetFields : List (Nat × Nat) :=
  [(F.SYS_ID_PART.addr * 32 + 16, 0x7160),
   (F.SYS_POWER_PFAIL.addr * 32 + 4, 1),
   (F.CLK_REG_STATUS_SRC.addr * 32 + 3, 7),
   ((F.TIS_FU_CTRL_GATE_MS 0).addr * 32, 1000),
   ((F.TIS_FU_CTRL_GATE_MS 1).addr * 32, 1000),
   ((F.ADC_GRP_MAP_SPARE_POS 0).addr * 32 + 24, 31),
   ((F.ADC_GRP_MAP_SPARE_POS 1).addr * 32 + 24, 31),
   ((F.ADC_GRP_MAP_SPARE_POS 2).addr * 32 + 24, 31),
   ((F.ADC_GRP_MAP_SPARE_POS 3).addr * 32 + 24, 31),
   ((F.ADC_GRP_MAP_SPARE_POS 4).addr * 32 + 24, 31),
   ((F.ADC_GRP_MAP_SPARE_POS 5).addr * 32 + 24, 31),
   ((F.ADC_GRP_MAP_SPARE_POS 6).addr * 32 + 24, 31),
   ((F.ADC_GRP_MAP_SPARE_POS 7).addr * 32 + 24, 31),
   (F.ADC_RAMAN_MAP_SPARE0_FOR.addr * 32 + 16, 15),
   (F.ADC_RAMAN_MAP_SPARE1_FOR.addr * 32 + 20, 15),
   (F.ADC_RAW_LEN_BLOCKS.addr * 32, 1),
   (F.CODEC_STATUS_POOL_FREE.addr * 32, 0x200)]

/-- The machine right after power-on reset, before the supply rises. -/
def Mach.reset : Mach := { regs := { act := resetFields } }

/-- The block after reset: no command waits, the stores are blank (log entry 5), every register at its reset value. -/
def State.reset : State := { pending := [], nv := {}, m := Mach.reset }

end Sys2Proof.Machine
end

