-- ==== Sys2Proof/Machine/Ops.lean ====
section
/-!
DEFINITION. Machine/Ops.lean: the named operations over the register bank, the settings and their domains, events, drafts of records, and
free values.
-/
namespace Sys2Proof.Machine

/-! ### Ports and pairs -/

/-- 0 for port A, 1 for port B. -/
def portIx : Port → Nat
  | .A => 0
  | .B => 1

/-- Port A for 0, port B otherwise. -/
def ixPort (n : Nat) : Port := if n = 0 then .A else .B

/-- The other port. -/
def otherPort : Port → Port
  | .A => .B
  | .B => .A

/-- The port of an event: 1 port A, 2 port B (Table 16-8). -/
def evPort (p : Port) : Nat := portIx p + 1

/-- The value of a pair at a port. -/
def Pair.at {α : Type} (x : Pair α) : Port → α
  | .A => x.a
  | .B => x.b

/-- A pair with one value replaced. -/
def Pair.put {α : Type} (x : Pair α) (p : Port) (v : α) : Pair α :=
  match p with
  | .A => { x with a := v }
  | .B => { x with b := v }

/-- The value of a pair at index 0 or 1. -/
def Pair.ix {α : Type} (x : Pair α) (n : Nat) : α := x.at (ixPort n)

/-- A pair with the value at index 0 or 1 replaced. -/
def Pair.putIx {α : Type} (x : Pair α) (n : Nat) (v : α) : Pair α := x.put (ixPort n) v

/-! ### Fields of registers -/

/-- The key of a field: 32 × address + lowest bit. -/
def Fld.key (f : Fld) : Nat := f.addr * 32 + f.lsb

/-- The width of a field. -/
def Fld.width (f : Fld) : Nat := f.msb - f.lsb + 1

/-- The largest value of a field. -/
def Fld.max (f : Fld) : Nat := 2 ^ f.width - 1

/-- The active value of a field (the live value of a field that is no setting). -/
def Mach.get (m : Mach) (f : Fld) : Nat := mapGet 0 m.regs.act f.key

/-- Write the active or live value of a field. -/
def Mach.put (m : Mach) (f : Fld) (v : Nat) : Mach :=
  { m with regs := { m.regs with act := mapPut 0 m.regs.act f.key (v % 2 ^ f.width) } }

/-- The shadow copy of a setting. -/
def Mach.shadow (m : Mach) (f : Fld) : Nat := mapGet 0 m.regs.shd f.key

/-- The staged copy of a setting. -/
def Mach.staged (m : Mach) (f : Fld) : Nat := mapGet 0 m.regs.staged f.key

/-- Whether a one-bit field is 1. -/
def Mach.on (m : Mach) (f : Fld) : Bool := m.get f == 1

/-- Add to a counter that saturates at its largest value. -/
def Mach.bumpBy (m : Mach) (f : Fld) (n : Nat) : Mach := m.put f (min (m.get f + n) f.max)

/-- Count one on a saturating counter. -/
def Mach.bump (m : Mach) (f : Fld) : Mach := m.bumpBy f 1

/-- Set or clear a one-bit field. -/
def Mach.putB (m : Mach) (f : Fld) (b : Bool) : Mach := m.put f (bit b)

/-- A 64-bit value in a low and a high register. -/
def Mach.put64 (m : Mach) (lo hi : Fld) (v : Nat) : Mach := (m.put lo v).put hi (v / 2 ^ 32)

/-- Set bit `n` of a field that is a set of bits. -/
def Mach.putBit (m : Mach) (f : Fld) (n : Nat) (b : Bool) : Mach := m.put f (setBit (m.get f) n b)

/-! ### Words of the table region -/

/-- Whether an address lies in the table region (Table 04-3). -/
def isTable (a : Nat) : Bool := decide (0x0C00000 ≤ a) && decide (a < 0x1000000)

/-- A word of a bank of settings at a table address. -/
def bankWord (b : List (Nat × Nat)) (a : Nat) : Nat := mapGet 0 b (a * 32)

/-- A byte of a bank at a table address (R8). -/
def bankByte (b : List (Nat × Nat)) (a : Nat) : Nat := bankWord b (a / 4 * 4) / 2 ^ (8 * (a % 4)) % 256

/-- An `n`-byte little-endian field of a bank at a table address. -/
def bankLe (b : List (Nat × Nat)) (a : Nat) : Nat → Nat
  | 0 => 0
  | n + 1 => bankByte b a + 256 * bankLe b (a + 1) n

/-- `n` bytes of a bank from a table address, lowest first. -/
def bankBytes (b : List (Nat × Nat)) (a : Nat) : Nat → List Byte
  | 0 => []
  | n + 1 => BitVec.ofNat 8 (bankByte b a) :: bankBytes b (a + 1) n

/-- An active table field. -/
def Mach.tab (m : Mach) (a n : Nat) : Nat := bankLe m.regs.act a n

/-- The base of a port's beat plan (R120). -/
def planBase (p : Nat) : Nat := 0x0FC0000 + 0x1000 * p

/-- A field of a port's active beat plan: `n` bytes at an offset (Tables 06-1 to 06-3). -/
def Mach.plan (m : Mach) (p : Port) (off n : Nat) : Nat := m.tab (planBase (portIx p) + off) n

/-! ### The register map -/

/-- The blocks that do not decode offset bits [15:12] (R80). -/
def fullDecode (blk : Nat) : Bool := blk == 5 || blk == 9 || blk == 15 || blk == 16 || blk == 17

/-- The register map of a block, by bits [20:16] of the address (Table 04-3). SEC has no map: none of its offsets is defined. -/
def blockRows (blk : Nat) : List RegRow :=
  match blk with
  | 0 => sysRows | 1 => cfgRows | 2 => evtRows | 3 => clkRows | 4 => tisRows | 5 => escRows | 6 => afeRows
  | 7 => hkcRows | 8 => adcRows | 9 => cppRows | 10 => dtsRows | 11 => trainRows | 12 => zoneRows | 13 => chrRows
  | 14 => codecRows | 15 => mcRows | 16 => netRows | 17 => recRows | 18 => ptpRows | 19 => calRows
  | _ => []

/-- Blocks whose map repeats at +0x8000 for the second half: ESC, CPP and MC. -/
def twoHalves (blk : Nat) : Bool := blk == 5 || blk == 9 || blk == 15

/-- The lowest appearance of a register address below 0x040_0000 (Table 04-4): bit 21 is not decoded, nor bits [15:12] in a block of
the 4 KiB group. -/
def lowest (a : Nat) : Nat :=
  let b := a % 0x200000
  if fullDecode (b / 0x10000) then b else b / 0x10000 * 0x10000 + b % 0x1000

/-- Registers of the Reserve as a whole and of MC snapshots: the Reserve registers read the same in both halves (R347). -/
def unifyMc (a : Nat) : Nat := if 0x00F8400 ≤ a ∧ a < 0x00F8800 then a - 0x8000 else a

/-- The offset of an address within its block, halves folded. -/
def blockOff (a : Nat) : Nat := if twoHalves (a / 0x10000) then a % 0x8000 else a % 0x10000

/-- Whether a row of a map holds an offset. -/
def RegRow.holds (r : RegRow) (off : Nat) : Bool :=
  decide (r.off ≤ off) && decide ((off - r.off) % r.stride = 0) && decide ((off - r.off) / r.stride < r.count)

/-- The row of the map that defines the register at a lowest address, if its block's map defines it (R76). -/
def findRow (a : Nat) : Option RegRow := (blockRows (a / 0x10000)).find? fun r => r.holds (blockOff a)

/-- The array index of a register in its row. -/
def rowIndex (r : RegRow) (a : Nat) : Nat := (blockOff a - r.off) / r.stride

/-- The field of a register that starts at bit `lsb`. -/
def findField (a lsb : Nat) : Option FieldSpec := (findRow a).bind fun r => r.fields.find? fun f => f.lsb == lsb

/-- The port that a register of a per-port block or array belongs to: the half of ESC and CPP, else the array index (R119, R171). -/
def regPort (r : RegRow) (a : Nat) : Nat :=
  if twoHalves (a / 0x10000) then a % 0x10000 / 0x8000 else rowIndex r a

/-- The domain of a setting field (Table 00-3: 0 and 1 the beats, 2 and 3 the Raman frames, 4 the module boundary). -/
def fieldDomain (r : RegRow) (f : FieldSpec) (a : Nat) : Nat :=
  match f.dom with
  | .module => 4
  | .beat => regPort r a % 2
  | .raman => 2 + regPort r a % 2
  | .raman2 => 2 + regPort r a / 2 % 2
  | .tisCtrl => if f.lsb = 0 ∨ f.lsb = 8 then 0 else if f.lsb = 1 ∨ f.lsb = 9 then 1 else 4

/-- Whether a word of the table region can be written: all but the factory sets and the set in force (R404). -/
def tableWritable (a : Nat) : Bool :=
  !(decide (0x0E40000 ≤ a) && decide (a < 0x0E68000)) && !(decide (0x0E80000 ≤ a) && decide (a < 0x0E88000))

/-- The domain of a word of the table region, by the table that holds it (R120, R158, R159, R236, R274, R286, R432, R404); a word
that no table holds belongs to the module boundary. -/
def tableDomain (a : Nat) : Nat :=
  if a < 0x0C10000 then 0
  else if a < 0x0C20000 then 1
  else if 0x0FC0000 ≤ a ∧ a < 0x0FC1000 then 0
  else if 0x0FC1000 ≤ a ∧ a < 0x0FC2000 then 1
  else if 0x0FC4000 ≤ a ∧ a < 0x0FC4400 then 2 + (a - 0x0FC4000) / 0x80 / 2 % 2
  else if 0x0FC4400 ≤ a ∧ a < 0x0FC4500 then 2 + (a - 0x0FC4400) / 0x40 / 2 % 2
  else if 0x0FC5000 ≤ a ∧ a < 0x0FC5800 then 2
  else if 0x0FC5800 ≤ a ∧ a < 0x0FC6000 then 3
  else 4

/-- The domain that a key of the register bank belongs to, none for a key that is no setting (R4). -/
def domainOf (k : Nat) : Option Nat :=
  let a := k / 32
  if isTable a then (if tableWritable a then some (tableDomain a) else none)
  else (findRow a).bind fun r =>
    match r.fields.find? fun f => f.lsb == k % 32 with
    | some f => if f.acc = .rws then some (fieldDomain r f a) else none
    | none => none

/-! ### Free values -/

/-- Take the next free value's number: the model's own count, which every step that takes one advances (log entry 4). -/
def Mach.fresh (m : Mach) : Nat × Mach := (m.free, { m with free := m.free + 1 })

/-! ### Time -/

/-- Device time, ns (R106). -/
def Mach.now (m : Mach) : Nat := m.clk.dev

/-- The TIS count, wraps included (R114). -/
def Mach.count (m : Mach) : Nat := m.clk.wraps * 2 ^ 48 + m.clk.coarse

/-- The present instant as a stamp: fine LSBs of the TIS, fine code 0. -/
def Mach.lsbNow (m : Mach) : Nat := m.count * 1024

/-! ### Epochs (R5, R64) -/

/-- The epoch in force in a domain and whether records of it carry PARTIAL (R5): a domain that has applied a commit still in progress
carries the pending epoch with PARTIAL. -/
def Mach.epochOf (m : Mach) (d : Nat) : Nat × Bool :=
  if m.get F.CFG_COMMIT_STATUS_STATE == 2 && bitOf (m.get F.CFG_COMMIT_STATUS_APPLIED) d
  then (m.get F.CFG_EPOCH_PEND_EPOCH, true) else (m.get F.CFG_EPOCH, false)

/-! ### Drafts and events -/

/-- Hand a record to the record engine. -/
def Mach.draft (m : Mach) (d : Draft) : Mach := { m with recs := { m.recs with ready := m.recs.ready ++ [d] } }

/-- The pins of EVT_OUT that a class is routed to (R94). -/
def Mach.routed (m : Mach) (cls : Nat) : List Nat :=
  [0, 1, 2, 3].filter fun k => bitOf (m.get (F.EVT_OUT_SEL_CLASSES k)) cls

/-- Drive the EVT_OUT pins from PEND for the pins in level mode (Table 04-12). -/
def Mach.driveLevels (m : Mach) : Mach :=
  let out := [0, 1, 2, 3].foldl (fun o k =>
    if bitOf (m.get F.EVT_OUT_CTRL_LEVEL) k
    then setBit o k (m.get F.EVT_PEND &&& m.get (F.EVT_OUT_SEL_CLASSES k) != 0)
    else setBit o k (bitOf m.evt.pulsing k)) 0
  { m with evt := { m.evt with out := out } }

/-- The EVENT payload of Table 16-8. -/
def eventPayload (cls n port arg time arg2 : Nat) : List Byte :=
  leBytes 2 (0x100 * cls + n) ++ leBytes 1 cls ++ leBytes 1 port ++ leBytes 4 arg ++ leBytes 8 time ++ leBytes 8 arg2 ++ leBytes 8 0

/-- The domain of an event's source block (Table 03-8): the module boundary for an event of no port; the Raman frame domain for the
Raman and APD faults and the DTS class; else the port's beat domain. -/
def eventDomain (cls n port : Nat) : Nat :=
  if port = 0 then 4
  else if cls = 16 ∨ ((cls = 6 ∨ cls = 7) ∧ (n = 2 ∨ n = 3)) then 1 + port
  else port - 1

/-- Issue an event: its PEND bit is set, it is logged or counted lost (R95), its EVT_OUT pins pulse or follow, and an EVENT record
is drafted for every session whose mask holds the class (R391, R392). An event holds no tick: BEAT and TICK of its record are 0 on a port's record as on a
module's, for which alone Table 16-5 says so (DESIGN CHOICE, log entry 81).
THERMAL_TRIP, issued in place of POWER_FAIL (R28), obeys the sessions' masks: the spec exempts POWER_FAIL alone from them (R392) and does not say whether
step 3 of Table 02-8, which writes it to every event queue, does too (DESIGN CHOICE, log entry 83). -/
def Mach.emit2 (m : Mach) (cls n port arg arg2 : Nat) : Mach :=
  let m := m.putBit F.EVT_PEND cls true
  let e : LogEntry := ⟨cls, 0x100 * cls + n, port, arg, m.now⟩
  let m := if m.evt.log.length < 16 then { m with evt := { m.evt with log := m.evt.log ++ [e] } }
           else m.bump F.EVT_LOG_COUNT_LOST
  let pins := (m.routed cls).filter fun k => !bitOf (m.get F.EVT_OUT_CTRL_LEVEL) k
  let m := { m with evt := { m.evt with pulsing := pins.foldl (fun o k => setBit o k true) m.evt.pulsing
                                        pulseAt := pins.foldl (fun l k => mapPut 0 l k m.now) m.evt.pulseAt } }
  let m := m.driveLevels
  let ep := m.epochOf (eventDomain cls n port)
  m.draft { typ := 6, port := if port = 0 then 2 else port - 1, flags := bit ep.2, epoch := ep.1, lsb := m.lsbNow,
            bodies := [eventPayload cls n port arg m.now arg2], cls := cls, forced := cls == 0 && n == 0 }

/-- Issue an event whose ARG2 is zero. -/
def Mach.emit (m : Mach) (cls n port arg : Nat) : Mach := m.emit2 cls n port arg 0

/-- ARG of an event: unit, cause, second unit (Table 16-8). -/
def evArg (unit cause second : Nat) : Nat := unit % 256 + 256 * (cause % 256) + 65536 * (second % 256)

/-! ### The state around them -/

/-- What a command answers. -/
abbrev Out := Host.Outcome State Fault Refusal

/-- A command's effect on the machine alone. -/
def State.upd (s : State) (f : Mach → Mach) : State := { s with m := f s.m }

/-- Change the power part. -/
def Mach.modPwr (m : Mach) (f : Power → Power) : Mach := { m with pwr := f m.pwr }

end Sys2Proof.Machine
end

