-- ==== Sys2Proof/Machine/Jewel.lean ====
section
/-!
DEFINITION. Machine/Jewel.lean: one engine: its registers (R242, R243), its memories as a program sees them (R245, R246, R261), the operations of
Tables 11-4 to 11-7, tagged words (R253, R254), and the issue of one bundle with its latencies and traps (R255 to R258).
-/
namespace Sys2Proof.Machine

/-! ### Registers -/

/-- The physical register that a logical name reaches (R243). -/
def physReg (rb r : Nat) : Nat := if r < 8 then r else 8 + (r - 8 + rb) % 24

/-- A d register by its logical name. -/
def Jewel.rd (j : Jewel) (r : Nat) : Word := mapGet 0 j.d (physReg j.rb r)

/-- The lo half as a signed number. -/
def lo16 (w : Word) : Int := signedOf 16 (w.toNat % 65536)

/-- The hi half as a signed number. -/
def hi16 (w : Word) : Int := signedOf 16 (w.toNat / 65536)

/-- A word from its two halves, each taken modulo 2^16. -/
def pack16 (l h : Int) : Word := BitVec.ofNat 32 (codeOf 16 l + 65536 * codeOf 16 h)

/-- sat16 (R249). -/
def sat16 (x : Int) : Int := clampInt (-32768) 32767 x

/-- sat32 (R249). -/
def sat32 (x : Int) : Int := clampInt (-2147483648) 2147483647 x

/-- Accumulator `n`, lane L (0) or H (1), as an accumulating MAC sees it. -/
def Jewel.accAt (j : Jewel) (n lane : Nat) : Int := mapGet 0 j.acc (2 * n + lane)

/-- Accumulator `n`, lane L or H, as the ALU sees it (Table 11-8). -/
def Jewel.accAlu (j : Jewel) (n lane : Nat) : Int := mapGet 0 j.accVis (2 * n + lane)

/-- A special register by its number (R251): p0 to p7, m0 to m7, lc, rb, STATUS. -/
def Jewel.special (j : Jewel) (n : Nat) : Nat :=
  if n < 8 then mapGet 0 j.p n
  else if n < 16 then mapGet 0 j.m (n - 8)
  else if n = 16 then j.lc
  else if n = 17 then j.rb
  else bit j.ovf + 2 * bit j.berr

/-- Write a special register, truncated to its width; rb is taken modulo 24, STATUS acts on OVF and BERR alone (R251). -/
def Jewel.putSpecial (j : Jewel) (n v : Nat) : Jewel :=
  if n < 8 then { j with p := mapPut 0 j.p n (v % 65536) }
  else if n < 16 then { j with m := mapPut 0 j.m (n - 8) (v % 65536) }
  else if n = 16 then { j with lc := v % 65536 }
  else if n = 17 then { j with rb := v % 24 }
  else { j with ovf := bitOf v 0, berr := bitOf v 1 }

/-! ### Tagged words -/

/-- The number of bits above the sign bit of a 40-bit lane that equal the sign bit (R253). -/
def laneExp (x : Int) : Nat :=
  let a := if x < 0 then -x - 1 else x
  39 - (if a = 0 then 0 else a.toNat.log2 + 1)

/-- A tagged word of mantissa μ and exponent e (R253). -/
def tagged (mu e : Int) : Word := BitVec.ofNat 32 (codeOf 16 mu + 65536 * codeOf 8 e)

/-- The mantissa of a tagged word. -/
def tagMu (w : Nat) : Int := signedOf 16 (w % 65536)

/-- The exponent of a tagged word. -/
def tagExp (w : Nat) : Int := signedOf 8 (w / 65536 % 256)

/-- NORM (R253). -/
def normLane (x : Int) : Word :=
  if x = 0 then 0
  else
    let r := laneExp x
    let mu := (x * 2 ^ r + 2 ^ 23) / 2 ^ 24
    let e : Int := 24 - r
    if mu = 32768 then tagged 16384 (e + 1) else tagged mu e

/-- DNRM (R254): the mantissa of a tagged word shifted to exponent k. -/
def dnrm (w : Word) (k : Int) : Word :=
  let mu := tagMu w.toNat
  let e := tagExp w.toNat
  if k ≤ e then pack16 (sat16 (mu * 2 ^ (e - k).toNat)) 0
  else pack16 (roundShift (min (k - e).toNat 31) mu) 0

/-! ### MAC slots -/

/-- Wrap a lane at 40 bits, or limit it with SAT; the flag tells that it wrapped or was limited (R248). -/
def lane40 (sat : Bool) (x : Int) : Int × Bool :=
  let lo : Int := -(2 ^ 39)
  let hi : Int := 2 ^ 39 - 1
  let y := if sat then clampInt lo hi x else signedOf 40 (codeOf 40 x)
  (y, y != x)

/-- Both lanes of a MAC operation (Table 11-4), exact, from the lanes L and H and the operands A and B. -/
def macLanes (op : Nat) (l h : Int) (a b : Word) : Int × Int :=
  let al := lo16 a
  let ah := hi16 a
  let bl := lo16 b
  let bh := hi16 b
  match op with
  | 1 => (l + al * bl, h + ah * bh)
  | 2 => (l - al * bl, h - ah * bh)
  | 3 => (al * bl, ah * bh)
  | 4 => (l + al * bl + ah * bh, h)
  | 5 => (l + al * bl - ah * bh, h + al * bh + ah * bl)
  | 6 => (l + al * bl + ah * bh, h + ah * bl - al * bh)
  | 7 => (al * bl - ah * bh, al * bh + ah * bl)
  | 8 => (al * bl + ah * bh, ah * bl - al * bh)
  | _ => (l, h)

/-! ### The ALU slot -/

/-- An operation on each half (R249). -/
def halfwise (f : Int → Int → Int) (a b : Word) : Word := pack16 (f (lo16 a) (lo16 b)) (f (hi16 a) (hi16 b))

/-- The 8-bit immediate of an ALU slot: [7:3] is the field of source B, [2:0] sub (R249). -/
def AluSlot.k (u : AluSlot) : Nat := u.b % 32 * 8 + u.sub % 8

/-- QZ2 (R249): each half of A, or 0 where its quality byte has STATE INVALID or RESYNC (Table 09-6: bit 7 set). -/
def qz2 (a b : Word) (sub : Nat) : Word :=
  let q := b.toNat / 2 ^ (16 * sub)
  pack16 (if bitOf q 7 then 0 else lo16 a) (if bitOf q 15 then 0 else hi16 a)

/-- What an ALU slot writes. -/
inductive AluOut where
  | nothing
  | reg (v : Word)
  | special (n v : Nat)
  | acc (n : Nat) (l h : Int)
  | illegal
deriving DecidableEq, Repr

/-- The result of an ALU slot (Table 11-5) on an engine's registers as they stand before the bundle's writes. An op, an immediate, an
accumulator field or a special register number outside its range is a reserved encoding (R247). -/
def aluOut (j : Jewel) (u : AluSlot) : AluOut :=
  let a := j.rd u.a
  let b := j.rd u.b
  let k := u.k
  let n := u.a % 8
  let lane := u.a / 8 % 2
  let accOk := decide (u.a < 16)
  let dn := u.dst % 8
  match u.op with
  | 0x00 => .nothing
  | 0x01 => .reg (halfwise (fun x y => x + y) a b)
  | 0x02 => .reg (halfwise (fun x y => sat16 (x + y)) a b)
  | 0x03 => .reg (halfwise (fun x y => x - y) a b)
  | 0x04 => .reg (halfwise (fun x y => sat16 (x - y)) a b)
  | 0x05 => .reg (a &&& b)
  | 0x06 => .reg (a ||| b)
  | 0x07 => .reg (a ^^^ b)
  | 0x08 => if k ≤ 15 then .reg (halfwise (fun x _ => sat16 (x * 2 ^ k)) a a) else .illegal
  | 0x09 => if k ≤ 15 then .reg (halfwise (fun x _ => x / 2 ^ k) a a) else .illegal
  | 0x0A => if k ≤ 31 then .reg (a >>> k) else .illegal
  | 0x0B => .reg (halfwise (fun x y => max x y) a b)
  | 0x0C => .reg (halfwise (fun x y => min x y) a b)
  | 0x0D => .reg (halfwise (fun x _ => sat16 (if x < 0 then -x else x)) a a)
  | 0x0E => .reg (halfwise (fun x y => if x = y then -1 else 0) a b)
  | 0x0F => if u.sub ≤ 1 then .reg (qz2 a b u.sub) else .illegal
  | 0x10 => .reg (BitVec.ofNat 32 (a.toNat / 2 ^ (8 * (u.sub % 4)) % 256))
  | 0x11 => .reg (pack16 (lo16 a) (lo16 b))
  | 0x12 => .reg a
  | 0x13 =>
    if u.sub % 2 = 0 then (if u.a ≤ 18 then .reg (BitVec.ofNat 32 (j.special u.a)) else .illegal)
    else (if u.dst ≤ 18 then .special u.dst a.toNat else .illegal)
  | 0x14 => if k ≤ 39 ∧ accOk then .reg (pack16 (sat16 (roundShift k (j.accAlu n 0))) (sat16 (roundShift k (j.accAlu n 1)))) else .illegal
  | 0x15 => if k ≤ 39 ∧ accOk then .reg (BitVec.ofInt 32 (sat32 (roundShift k (j.accAlu n lane)))) else .illegal
  | 0x16 => if accOk then .reg (BitVec.ofNat 32 (laneExp (j.accAlu n lane))) else .illegal
  | 0x17 => if accOk then .reg (normLane (j.accAlu n lane)) else .illegal
  | 0x18 => .reg (dnrm a (signedOf 8 k))
  | 0x19 => if u.dst < 16 then .acc dn 0 0 else .illegal
  | 0x1A => if u.dst < 16 then .acc dn (lane40 false (j.accAlu dn 0 + j.accAlu dn 1)).1 0 else .illegal
  | _ => .illegal

/-! ### Memory -/

/-- The descriptor of a tile (Table 11-11). -/
def Tile.descBytes (t : Tile) : List Byte :=
  leBytes 2 1 ++ leBytes 1 (portIx t.id.port) ++ leBytes 1 t.ticks ++ leBytes 2 t.cells ++
  leBytes 2 (bit (t.ticks < 8) + 2 * bit (t.cells < 512) + 4 * bit t.row0) ++ leBytes 4 t.id.trow ++ leBytes 2 t.id.tcol ++
  leBytes 2 t.segs.length ++ leBytes 4 (512 * t.id.tcol) ++ leBytes 4 t.epoch ++ leBytes 8 t.beat ++ leBytes 1 t.tick0 ++
  leBytes 1 t.nsub ++ leBytes 2 0 ++ leBytes 4 t.tl ++ leBytes 4 t.srLsb ++ leBytes 20 0 ++
  (t.segs.flatMap fun g => leBytes 4 (g.1 % 4096 + 4096 * (g.2.1 % 512) + 2 ^ 21 * (g.2.2 % 1024))) ++
  List.replicate (4 * (48 - t.segs.length)) 0

/-- A byte of X or Y memory of the current bank (Table 11-2, R272): the values, quality bytes and descriptor of the tile that runs or ran last, else the memory. -/
def Jewel.byteAt (j : Jewel) (y : Bool) (a : Nat) : Byte :=
  if !y && decide (a < 0x2000) then
    match j.bank with
    | some t => BitVec.ofNat 8 (mapGet 0x8000 t.vals (a / 2) / 2 ^ (8 * (a % 2)))
    | none => BitVec.ofNat 8 (0x8000 / 2 ^ (8 * (a % 2)))
  else if y && decide (a < 0x1000) then
    match j.bank with
    | some t => BitVec.ofNat 8 (mapGet 0xC0 t.quals a)
    | none => 0xC0
  else if y && decide (a < 0x1100) then
    match j.bank with
    | some t => t.descBytes.getD (a - 0x1000) 0
    | none => 0
  else mapGet 0 (if y then j.y else j.x) a

/-- The `n`-byte little-endian number that the program reads at `a`. -/
def Jewel.leAt (j : Jewel) (y : Bool) (a : Nat) : Nat → Nat
  | 0 => 0
  | n + 1 => (j.byteAt y a).toNat + 256 * j.leAt y (a + 1) n

/-- Whether an address lies in a reserved area, or beyond the memory (Table 11-2). -/
def memReserved (y : Bool) (a : Nat) : Bool :=
  decide (0x8000 ≤ a) ||
  (if y then (decide (0x1100 ≤ a) && decide (a < 0x1800)) || (decide (0x2000 ≤ a) && decide (a < 0x4000))
   else decide (0x2000 ≤ a) && decide (a < 0x4000))

/-- Whether an address lies where a program may not store: IN.V, IN.Q, DESC, CONST.X, CONST.Y (trap WPROT). -/
def memReadOnly (y : Bool) (a : Nat) : Bool :=
  (if y then decide (a < 0x1100) else decide (a < 0x2000)) || (decide (0x4000 ≤ a) && decide (a < 0x6000))

/-- The address that a memory slot uses and the pointer after it (R250); pointer arithmetic wraps at 16 bits. -/
def memAddr (j : Jewel) (s : MemSlot) : Nat × Nat :=
  let p := mapGet 0 j.p s.ptr
  let md := mapGet 0 j.m s.mod
  let size := if s.op ≤ 2 then 4 else 2
  match s.mode with
  | 1 => (p, (p + size) % 65536)
  | 2 => (p, (p + md) % 65536)
  | 3 => (p, (p + 65536 - md) % 65536)
  | 4 => ((p + md) % 65536, p)
  | _ => (p, p)

/-- The trap code that a memory access raises, 0 for none (Table 11-10): ALIGN, RANGE, WPROT. -/
def memTrap (y : Bool) (s : MemSlot) (a : Nat) : Nat :=
  if s.op = 0 then 0
  else if a % (if s.op ≤ 2 then 4 else 2) ≠ 0 then 2
  else if memReserved y a then 3
  else if (s.op = 2 ∨ s.op = 4) ∧ memReadOnly y a then 4
  else 0

/-- The word that a load brings: 32 bits, or 16 bits sign-extended into lo with hi zero (R250). -/
def Jewel.loadOf (j : Jewel) (y : Bool) (s : MemSlot) (a : Nat) : Word :=
  BitVec.ofNat 32 (if s.op = 1 then j.leAt y a 4 else j.leAt y a 2)

/-- Perform the store of a memory slot. -/
def Jewel.storeOf (j : Jewel) (y : Bool) (s : MemSlot) (a : Nat) (v : Word) : Jewel :=
  if s.op = 2 ∨ s.op = 4 then
    let bytes := leBytes (if s.op = 2 then 4 else 2) v.toNat
    if y then { j with y := memStore 0 j.y a bytes } else { j with x := memStore 0 j.x a bytes }
  else j

/-! ### The issue of a bundle -/

/-- What the issue of a bundle leads to. -/
inductive Issue where
  | goOn
  | taken (target : Nat)
  | finished (words : Nat)
  | waitReg (dst addr : Nat)
  | trapped (code soft : Nat)
deriving DecidableEq, Repr

/-- Whether a list of numbers holds one twice. -/
def hasDup : List Nat → Bool
  | [] => false
  | a :: t => t.contains a || hasDup t

/-- The pointers that the memory slots update (modes 1 to 3). -/
def MemSlot.updates (s : MemSlot) : List Nat := if s.op ≠ 0 ∧ 1 ≤ s.mode ∧ s.mode ≤ 3 then [s.ptr] else []

/-- The bundle rules of R247 and R255 on a compute bundle: reserved ops and modes, two slots that write one register, accumulator or
pointer, and a slot that uses a pointer which another slot updates. -/
def computeIllegal (j : Jewel) (m0 m1 : MacSlot) (u : AluSlot) (mx my : MemSlot) : Bool :=
  let out := aluOut j u
  let badMem (s : MemSlot) := decide (4 < s.op) || decide (4 < s.mode)
  let regs := (match out with | .reg _ => [physReg j.rb u.dst] | _ => []) ++
    (if mx.op = 1 ∨ mx.op = 3 then [physReg j.rb mx.d] else []) ++ (if my.op = 1 ∨ my.op = 3 then [physReg j.rb my.d] else [])
  let accs := (if m0.op ≠ 0 then [m0.acc] else []) ++ (if m1.op ≠ 0 then [m1.acc] else []) ++
    (match out with | .acc n _ _ => [n] | _ => [])
  let aluPtr := match out with | .special n _ => if n < 8 then [n] else [] | _ => []
  let aluReads := if u.op = 0x13 ∧ u.sub % 2 = 0 ∧ u.a < 8 then [u.a] else []
  let usesX := if mx.op ≠ 0 then [mx.ptr] else []
  let usesY := if my.op ≠ 0 then [my.ptr] else []
  out == .illegal || decide (8 < m0.op) || decide (8 < m1.op) || badMem mx || badMem my || hasDup regs || hasDup accs ||
  (mx.updates.any fun p => usesY.contains p || aluPtr.contains p || aluReads.contains p) ||
  (my.updates.any fun p => usesX.contains p || aluPtr.contains p || aluReads.contains p) ||
  (aluPtr.any fun p => usesX.contains p || usesY.contains p)

/-- Apply one MAC slot to the accumulators as an accumulating MAC sees them. -/
def Jewel.macSlot (j0 : Jewel) (j : Jewel) (s : MacSlot) : Jewel :=
  if s.op = 0 then j
  else
    let (l, h) := macLanes s.op (j0.accAt s.acc 0) (j0.accAt s.acc 1) (j0.rd s.a) (j0.rd s.b)
    let (l, f) := lane40 s.sat l
    let (h, g) := lane40 s.sat h
    { j with acc := mapPut 0 (mapPut 0 j.acc (2 * s.acc) l) (2 * s.acc + 1) h, ovf := j.ovf || f || g }

/-- The end of the bundle before: what it left to land lands (loads of latency 2, Table 11-8). -/
def Jewel.land (j : Jewel) (l : List (Nat × Word)) : Jewel := { j with d := l.foldl (fun d e => mapPut 0 d e.1 e.2) j.d }

/-- One compute bundle (R255): every operand is read before the bundle's own writes; the loads of the bundle before land at its end, before
its own ALU result; its loads land one bundle later; its MAC results are seen by the ALU one bundle later. Of two memory traps the lower code is
raised, ILLEGAL before either (log entry 79). -/
def Jewel.compute (j : Jewel) (m0 m1 : MacSlot) (u : AluSlot) (mx my : MemSlot) (rot : Bool) : Jewel × Issue :=
  let (ax, px) := memAddr j mx
  let (ay, py) := memAddr j my
  let tx := memTrap false mx ax
  let ty := memTrap true my ay
  let t := if tx = 0 then ty else if ty = 0 then tx else min tx ty
  if computeIllegal j m0 m1 u mx my then (j, .trapped 1 0)
  else if t ≠ 0 then (j, .trapped t 0)
  else
    let out := aluOut j u
    let loads := (if mx.op = 1 ∨ mx.op = 3 then [(physReg j.rb mx.d, j.loadOf false mx ax)] else []) ++
      (if my.op = 1 ∨ my.op = 3 then [(physReg j.rb my.d, j.loadOf true my ay)] else [])
    let k := j.macSlot (j.macSlot { j with ovf := false } m0) m1
    let newOvf := k.ovf
    let k := { k with ovf := j.ovf || newOvf }
    let k := (k.storeOf false mx ax (j.rd mx.d)).storeOf true my ay (j.rd my.d)
    let k := k.land j.landing
    let k := { k with landing := loads, accVis := j.acc }
    let k := if mx.op ≠ 0 then { k with p := mapPut 0 k.p mx.ptr px } else k
    let k := if my.op ≠ 0 then { k with p := mapPut 0 k.p my.ptr py } else k
    let k := if rot then { k with rb := (j.rb + 23) % 24 } else k
    let k := match out with
      | .reg v => { k with d := mapPut 0 k.d (physReg j.rb u.dst) v }
      | .special n v => let k := k.putSpecial n v; if n = 18 then { k with ovf := k.ovf || newOvf } else k
      | .acc n l h =>
        -- the wrap of a FOLD counts as an accumulator overflow (log entry 79)
        { k with ovf := k.ovf || (u.op == 0x1A && (lane40 false (j.accAlu n 0 + j.accAlu n 1)).2)
                 acc := mapPut 0 (mapPut 0 k.acc (2 * n) l) (2 * n + 1) h
                 accVis := mapPut 0 (mapPut 0 k.accVis (2 * n) l) (2 * n + 1) h }
      | _ => k
    (k, .goOn)

/-- A bundle that writes nothing of its own but lets what is in flight land. -/
def Jewel.idle (j : Jewel) : Jewel := { (j.land j.landing) with landing := [], accVis := j.acc }

/-- Whether a branch condition holds (Table 11-7). -/
def brHolds (cond : Nat) (v : Word) : Bool :=
  match cond with
  | 0 => true
  | 1 => v == 0
  | 2 => v != 0
  | _ => v.msb

/-- Issue one bundle (Tables 11-3 to 11-7, R255 to R258). -/
def Jewel.issue (j : Jewel) (b : Bundle) : Jewel × Issue :=
  match b with
  | .compute m0 m1 u mx my rot => j.compute m0 m1 u mx my rot
  | .ctlNop => (j.idle, .goOn)
  | .br target cond d =>
    if 3 < cond then (j, .trapped 1 0)
    else if brHolds cond (j.rd d) then ({ j.idle with loop := .none }, .taken target) else (j.idle, .goOn)
  | .loop start stop count creg =>
    if stop < start then (j, .trapped 1 0)
    else if j.loop ≠ .none then (j, .trapped 9 0)
    else
      let n := match creg with | some d => (j.rd d).toNat % 65536 | none => count
      ({ j.idle with loop := .armed start stop n }, .goOn)
  | .done => let n := (j.rd 0).toNat % 1024; if 512 < n then (j, .trapped 8 0) else (j.idle, .finished n)
  | .rdreg dst addr => (j.idle, .waitReg (physReg j.rb dst) (j.rd addr).toNat)
  | .trap code => (j, .trapped 6 code)
  | .ldi dst imm => let k := j.idle; ({ k with d := mapPut 0 k.d (physReg j.rb dst) imm }, .goOn)
  | .ldis dst imm => if 18 < dst then (j, .trapped 1 0) else (j.idle.putSpecial dst (if dst = 17 then imm.toNat % 32 else imm.toNat), .goOn)
  | .bad => (j, .trapped 1 0)

/-- The bundle reached when execution would continue at `pc`, with a loop that is armed there taken up (R256). -/
def Jewel.enter (j : Jewel) (pc : Nat) : Jewel :=
  match j.loop with
  | .armed start stop n =>
    if start = pc then
      (if n = 0 then { j with pc := stop + 1, loop := .none } else { j with pc := pc, lc := n, loop := .running start stop })
    else { j with pc := pc }
  | _ => { j with pc := pc }

/-- Where execution continues after the bundle at pc (R256): at the end of a running loop's END, back at START while lc > 1. -/
def Jewel.advancePc (j : Jewel) : Jewel :=
  match j.loop with
  | .running start stop =>
    if j.pc = stop then
      (if 1 < j.lc then { j with lc := j.lc - 1, pc := start } else ({ j with lc := 0, loop := .none }).enter (stop + 1))
    else j.enter (j.pc + 1)
  | _ => j.enter (j.pc + 1)

/-! ### Bundles as words -/

/-- A MAC slot from its 20 bits (R248). -/
def decodeMac (w : Nat) : MacSlot := ⟨bitsOf w 19 16, bitsOf w 15 13, bitsOf w 12 8, bitsOf w 7 3, bitOf w 2⟩

/-- The ALU slot from its 24 bits (R249). -/
def decodeAlu (w : Nat) : AluSlot := ⟨bitsOf w 23 18, bitsOf w 17 13, bitsOf w 12 8, bitsOf w 7 3, bitsOf w 2 0⟩

/-- A memory slot from its 28 bits (R250). -/
def decodeMem (w : Nat) : MemSlot := ⟨bitsOf w 27 25, bitsOf w 24 20, bitsOf w 19 17, bitsOf w 16 14, bitsOf w 13 11⟩

/-- A bundle from its 128 bits (Table 11-3, R251, R252). -/
def decodeBundle (w : Nat) : Bundle :=
  match bitsOf w 127 126 with
  | 0 => .compute (decodeMac (bitsOf w 125 106)) (decodeMac (bitsOf w 105 86)) (decodeAlu (bitsOf w 85 62)) (decodeMem (bitsOf w 61 34))
      (decodeMem (bitsOf w 33 6)) (bitOf w 0)
  | 1 =>
    match bitsOf w 125 120 with
    | 0 => .ctlNop
    | 1 => .br (bitsOf w 9 0) (bitsOf w 13 10) (bitsOf w 18 14)
    | 2 => .loop (bitsOf w 19 10) (bitsOf w 9 0) (bitsOf w 35 20) (if bitOf w 36 then some (bitsOf w 41 37) else none)
    | 3 => .done
    | 4 => .rdreg (bitsOf w 22 18) (bitsOf w 17 13)
    | 5 => .trap (bitsOf w 7 0)
    | _ => .bad
  | 2 =>
    match bitsOf w 125 122 with
    | 0 => .ldi (bitsOf w 121 117) (BitVec.ofNat 32 w)
    | 1 => .ldis (bitsOf w 121 117) (BitVec.ofNat 32 w)
    | _ => .bad
  | _ => .bad

/-- The bundle at a place of an instruction memory (R247). -/
def bundleAt (imem : Mem) (i : Nat) : Bundle := decodeBundle (memLe 0 imem (16 * i) 16)

/-- A compute bundle that does nothing. -/
def nopBundle : Bundle := .compute ⟨0, 0, 0, 0, false⟩ ⟨0, 0, 0, 0, false⟩ ⟨0, 0, 0, 0, 0⟩ ⟨0, 0, 0, 0, 0⟩ ⟨0, 0, 0, 0, 0⟩ false

end Sys2Proof.Machine
end

