-- ==== Sys2Proof/Config.lean ====
section
/-!
DEFINITION. Config.lean: what one implementation fixes and what the spec leaves open, as constants with no body: nothing can be proved of
their values. A constant that takes a number n is applied to the count of free values taken so far (Mach.fresh).
-/
namespace Sys2Proof

/-- The rounding of one advance of a time base: below or above the exact value (R106, R108; log entry 10). -/
opaque Config.roundUp : Nat → Bool

/-- What the realignment of a time base on a wake adds to the exact sub-25 ns part, in 2^-32 ns, held within ±1 ns (R109; log entry 10). -/
opaque Config.wakeAlign : Nat → Int

/-- The time of a domain clock (2^-48 ns) at a TIS edge older than its history of 2 s: domain and edge (R110; log entry 68). -/
opaque Config.oldTime : Nat → Nat → Nat

/-- y_h of R105, in 2^-40, when the window that it is the mean over holds no y (log entry 12). -/
opaque Config.openRate : Nat → Int

/-- The factory frequency–temperature table of a crystal (false XO0, true XO1) at a die temperature in mK, in 2^-40 units
(R101; its content is in the calibration store and the spec gives it no layout; log entry 11). -/
opaque Config.freqTemp : Bool → Int → Int

/-- The error of the mixer's sine and cosine table at a 32-bit phase, held within −100 dBc (R197; log entry 13). -/
opaque Config.mixError : Nat → Rat × Rat

/-- The error of a component of stage 4, limited so that it lies within 2^-18 of full scale (R200; log entry 13). -/
opaque Config.pipeError : Nat → Int

/-- The input-referred value of an input at a position before the first sample of the acquisition, of which the spec says nothing (log entry 13). -/
opaque Config.earlySample : Nat → Nat → Int

/-- What a zone's accumulator holds of a sum outside the signed 128-bit range, of which the spec says nothing (R277; log entry 15). -/
opaque Config.openSum : Int → Int

/-- The error of a phase of stage 6, one of −1, 0 and 1 after limiting (R204; log entry 13). -/
opaque Config.phaseError : Nat → Int

/-- The error in mK of a delivered temperature, one of −1, 0 and 1 after limiting (R235; log entry 14). -/
opaque Config.tempError : Nat → Int

/-- The ordinal of the rank, spare excluded, to which an address of a channel's used capacity belongs, and the offset in that rank (R339; the spec gives no
mapping; log entry 21). -/
opaque Config.rankOf : Nat → Nat → Nat × Nat

/-- The sub-channel, bank and row of an offset of a rank of a channel (log entry 21). -/
opaque Config.rowOf : Nat → Nat → Nat × Nat × Nat

/-- A value that the spec states for other operands only (log entry 15). -/
opaque Config.openValue : Nat → Nat

/-- SHA-256 of a byte string, which the spec names and does not restate (log entry 6). -/
opaque Config.sha256 : List Byte → BitVec 256

/-- ECDSA P-256 verification: public key X and Y, digest, r and s (log entry 6). -/
opaque Config.ecdsaVerify : BitVec 256 → BitVec 256 → BitVec 256 → BitVec 256 → BitVec 256 → Bool

/-- The image format majors that the supervisor supports (R54; the spec names none; log entry 41). -/
opaque Config.fmtSupported : Nat → Bool

/-- The version of the supervisor firmware in an SUPFW section whose Ampinel signature verifies (R56; its layout is not in the spec; log entry 41). -/
opaque Config.supfw : List Byte → Option Nat

/-- The device key's ECDSA P-256 signature r ‖ s over a digest (R57; log entry 6). -/
opaque Config.deviceSign : BitVec 256 → List Byte

/-- The random DEV_NONCE of the n-th free value (Table 16-3; log entry 4). -/
opaque Config.nonce : Nat → BitVec 128

end Sys2Proof
end

