-- ==== Sys2Proof/Machine/Time.lean ====
section
/-!
DEFINITION. Machine/Time.lean: the time bases and the conversion to domain time (R106 to R110), the crystals' switchover (R98, R99), the
Regulator (R100 to R105), and the interval stamper's inputs and units (R112 to R117).
-/
namespace Sys2Proof.Machine

/-! ### Time bases -/

/-- TRIM as a signed number of 2^-40 (R96). -/
def Mach.trim (m : Mach) : Int := signedOf 32 (m.get F.CLK_TRIM)

/-- The limit of TRIM: ±50 ppm in 2^-40 (R96). -/
def trimMax : Int := 54975581

/-- RATE of domain clock d, signed, 2^-40 (R108). -/
def Mach.domRate (m : Mach) (d : Nat) : Int := signedOf 32 (m.get (F.CLK_DOM_RATE_RATE d))

/-- Device time advances by the nominal period times (1 − TRIM × 2^-40) per 1.2 GHz cycle (R106): `n` cycles in 2^-32 ns, below. -/
def devStep (trim : Int) (n : Nat) : Nat := (5 * n * (2 ^ 40 - trim) / (6 * 2 ^ 8)).toNat

/-- A domain clock advances by 5/6 ns × (1 + RATE × 2^-40) per cycle (R108): `n` cycles in 2^-48 ns, below. -/
def domStep (rate : Int) (n : Nat) : Nat := (5 * n * 2 ^ 8 * (2 ^ 40 + rate) / 6).toNat

/-- 1 when the free value numbered `k` rounds up. -/
def roundBit (k : Nat) : Nat := bit (Config.roundUp k)

/-- The spans of a history that reach past TIS count `from_`: the newest down to the one in force there. -/
def keepSpans (from_ : Nat) : List DomSpan → List DomSpan
  | [] => []
  | x :: r => if x.edge ≤ from_ then [x] else x :: keepSpans from_ r

/-- A domain clock that begins a new span at TIS count `edge` (R110): 2 s of history, 2,400,000,000 cycles, are kept. -/
def Dom.mark (c : Dom) (edge : Nat) (rate : Int) : Dom :=
  { c with hist := ⟨edge, c.t, rate, c.run⟩ :: keepSpans (edge - 2400000000) c.hist }

/-- Whether the newest span of a domain clock has this rate and state of running. -/
def Dom.steady (c : Dom) (rate : Int) : Bool :=
  match c.hist.head? with | some x => x.rate == rate && x.run == c.run | none => false

/-- One domain clock after `n` cycles: a clock whose RATE or EN has changed begins a new span first. -/
def domAdvance (m : Mach) (n k d : Nat) (c : Dom) : Dom :=
  let c := if c.steady (m.domRate d) then c else c.mark m.count (m.domRate d)
  if c.run then { c with t := (c.t + domStep (m.domRate d) n + roundBit (k + 1 + d)) % (10 ^ 9 * 2 ^ 96) } else c

/-- The domain clocks from number `d` up, after `n` cycles. -/
def domsAdvance (m : Mach) (n k : Nat) : Nat → List Dom → List Dom
  | _, [] => []
  | d, c :: t => domAdvance m n k d c :: domsAdvance m n k (d + 1) t

/-- Whether the module is in NAP or SLEEP (Table 18-4). -/
def Mach.napping (m : Mach) : Bool := decide (3 ≤ m.get F.SYS_PWR_STATE_PSTATE)

/-- The time bases after `n` cycles at a TRIM, with the rounding that free value `k` gives device time (R106 to R108). Each wrap of the 48-bit coarse count is
counted and sets TIS.STATUS.OVF (R114). -/
def Mach.runClocks (m : Mach) (trim : Int) (up k n : Nat) : Mach :=
  let total := m.clk.frac + devStep trim n + up
  let count := m.clk.coarse + n
  let m' := { m with
    clk := { m.clk with
      dev := (m.clk.dev + total / 2 ^ 32) % 2 ^ 64
      frac := total % 2 ^ 32
      coarse := count % 2 ^ 48
      wraps := m.clk.wraps + count / 2 ^ 48
      doms := domsAdvance m n k 0 m.clk.doms }
    free := m.free + 5 }
  if count < 2 ^ 48 then m' else m'.put F.TIS_STATUS_OVF 1

/-- All time bases advance by `n` cycles of 1.2 GHz (R106 to R108). In NAP and SLEEP they advance in whole 25 ns steps of the active crystal, 30 cycles each;
what is left of a step waits for the next (R109). -/
def Mach.advance (m : Mach) (n : Nat) : Mach :=
  if m.napping then
    let c := m.clk.nap + n
    let m := m.runClocks 0 0 m.free (c / 30 * 30)
    { m with clk := { m.clk with nap := c % 30 } }
  else m.runClocks m.trim (roundBit m.free) m.free n

/-- COARSE_WRAP (R114): time reaches the wrap of the coarse count. -/
def Mach.coarseWrap (m : Mach) : Mach := m.advance (2 ^ 48 - m.clk.coarse)

/-- The cycles in which device time advances by at least `x` in 2^-32 ns; whole steps of the crystal in NAP and SLEEP (R109). -/
def Mach.cyclesFor (m : Mach) (x : Nat) : Nat :=
  if m.napping then ceilDiv x (25 * 2 ^ 32) * 30 - m.clk.nap else ceilDiv (x * 6 * 2 ^ 8) (5 * (2 ^ 40 - m.trim)).toNat

/-- The cycles from now to a device time. -/
def Mach.cyclesUntil (m : Mach) (time : Nat) : Nat := if m.now < time then m.cyclesFor ((time - m.now) * 2 ^ 32 - m.clk.frac) else 0

/-- The cycles from now to the next whole multiple of `period` ns of device time. -/
def Mach.cyclesTo (m : Mach) (period : Nat) : Nat := m.cyclesUntil ((m.now / period + 1) * period)

/-- Time comes to a device time that is not past (log entry 1). -/
def Mach.reachNs (m : Mach) (time : Nat) : Mach := if m.now < time then m.advance (m.cyclesUntil time) else m

/-- Time comes to an instant on the TIS count (log entry 1). -/
def Mach.reach (m : Mach) (edge : Nat) : Mach := if m.count < edge then m.advance (edge - m.count) else m

/-- Device time of an instant on the TIS count that is not in the future. -/
def Mach.timeAt (m : Mach) (edge : Nat) : Nat := m.now - devStep m.trim (m.count - edge) / 2 ^ 32

/-- A device time that is not in the future as a stamp: fine LSBs of the TIS, to the nearest. -/
def Mach.lsbAt (m : Mach) (time : Nat) : Nat :=
  m.lsbNow - (roundAway (((m.now - time : Nat) : Int) * 6144 * 2 ^ 40) (5 * (2 ^ 40 - m.trim)).toNat).toNat

/-- The whole seconds, nanoseconds and 2^-16 ns of a domain time. -/
def domParts (t : Nat) : Nat × Nat × Nat := (t / (10 ^ 9 * 2 ^ 48), t / 2 ^ 48 % 10 ^ 9, t / 2 ^ 32 % 2 ^ 16)

/-- The time of a domain clock at a stamp of the TIS in fine LSBs (R110), 2^-48 ns rounded to 2^-16 ns: the clock's time at the start of the span in force at
the stamp's edge, and its advance since at that span's RATE. An edge older than the history is open (log entry 68). -/
def Dom.at (c : Dom) (d lsb : Nat) : Nat :=
  match c.hist.find? fun x => decide (x.edge ≤ lsb / 1024) with
  | some x =>
    let run : Int := if x.run then ((lsb - x.edge * 1024 : Nat) : Int) * 5 * (2 ^ 40 + x.rate) else 0
    (roundAway (24 * (x.t : Int) + run) (24 * 2 ^ 32) * 2 ^ 32 % (10 ^ 9 * 2 ^ 96)).toNat
  | none => if c.hist.isEmpty then c.t else Config.oldTime d (lsb / 1024)

/-- A stamp of the TIS in fine LSBs converted to domain d (R110). None when the domain is disabled or has never been set. -/
def Mach.toDomain (m : Mach) (d lsb : Nat) : Option (Nat × Nat × Nat) :=
  let c := m.clk.doms.getD d {}
  if m.on (F.CLK_DOM_CTRL_EN d) && c.set then some (domParts (c.at d lsb)) else none

/-- Change a domain clock's time, which begins a new span of its history (R110). -/
def Mach.modDom (m : Mach) (d : Nat) (f : Dom → Dom) : Mach :=
  { m with clk := { m.clk with doms := listMod m.clk.doms d fun c => (f c).mark m.count (m.domRate d) } }

/-- A step of domain clock `d`: the next edge of PPS_OUT is the first whole second after it (R111). -/
def Mach.ppsStep (m : Mach) (d : Nat) : Mach := if m.pwr.ppsSrc = d + 1 then { m with pwr := { m.pwr with ppsLast := none } } else m

/-- DOM_STEP: a signed number of nanoseconds is added to a domain clock (R108); the clock's 48-bit seconds wrap (log entry 10). -/
def Mach.domAdd (m : Mach) (d : Nat) (ns : Int) : Mach :=
  (m.modDom d fun c => { c with t := (((c.t : Int) + ns * 2 ^ 48) % (10 ^ 9 * 2 ^ 96)).toNat }).ppsStep d

/-- DOM_SET_SEC: the seconds are set, the nanoseconds and the fraction zeroed (R108). From then on the domain has been set, in the words of R110; whether a step,
by DOM_STEP or by the servo (R365), sets it too the spec does not say: here it does not (DESIGN CHOICE, log entry 82). -/
def Mach.domSet (m : Mach) (d sec : Nat) : Mach :=
  (m.modDom d fun c => { c with t := sec * (10 ^ 9 * 2 ^ 48), set := true }).ppsStep d

/-- The domain clocks run as DOM_CTRL.EN says: at a module boundary and at step 8. -/
def domsRun (m : Mach) : Nat → List Dom → List Dom
  | _, [] => []
  | d, c :: t => { c with run := m.on (F.CLK_DOM_CTRL_EN d) } :: domsRun m (d + 1) t

/-- Bring the domain clocks in step with DOM_CTRL.EN. -/
def Mach.syncDoms (m : Mach) : Mach := { m with clk := { m.clk with doms := domsRun m 0 m.clk.doms } }

/-- What realignment adds to a time base on a wake, 2^-32 ns (R109): the cycles since the crystal's last step, exact within ±1 ns and never downward. -/
def wakeStep (k cycles : Nat) : Nat :=
  ((5 * cycles * 2 ^ 32 / 6 : Nat) + clampInt (-(2 ^ 32)) (2 ^ 32) (Config.wakeAlign k)).toNat

/-- The domain clocks from number `d` up after realignment at TIS count `edge`, where each begins a new span of its history. -/
def domsRealign (m : Mach) (edge k : Nat) : Nat → List Dom → List Dom
  | _, [] => []
  | d, c :: t =>
    let c := if c.run then { c with t := (c.t + wakeStep (k + 1 + d) m.clk.nap * 2 ^ 16) % (10 ^ 9 * 2 ^ 96) } else c
    c.mark edge (m.domRate d) :: domsRealign m edge k (d + 1) t

/-- The realignment on a wake from NAP or SLEEP: device time and the running domain clocks are corrected upward, and the coarse count is reloaded from device
time: it has counted the device time that has passed in the state, 1.2 cycles to the ns (R109, R114). -/
def Mach.realign (m : Mach) : Mach :=
  let k := m.free
  let total := m.clk.frac + wakeStep k m.clk.nap
  let count := m.count + wakeStep k m.clk.nap * 6 / (5 * 2 ^ 32)
  { m with
    clk := { m.clk with dev := m.clk.dev + total / 2 ^ 32, frac := total % 2 ^ 32, coarse := count % 2 ^ 48, wraps := count / 2 ^ 48, nap := 0,
                        doms := domsRealign m count k 0 m.clk.doms }
    free := m.free + 5 }

/-! ### Crystals -/

/-- Set TRIM, limited at the clamp; TRIM_SAT each time it reaches the clamp (R104). -/
def Mach.setTrim (m : Mach) (t : Int) : Mach :=
  let c := clampInt (-trimMax) trimMax t
  let hit := (c = trimMax ∨ c = -trimMax) ∧ m.trim ≠ c
  let m := m.put F.CLK_TRIM (codeOf 32 c)
  if hit then m.emit 5 3 0 0 else m

/-- Δ in units of 2^-40, to the nearest. -/
def Mach.deltaTrim (m : Mach) : Int := roundAway (m.clk.delta * 2 ^ 40) (10 ^ 12)

/-- F(T) of the active crystal at a temperature (R101). -/
def Mach.freqTemp (m : Mach) (t : Int) : Int := Config.freqTemp (m.on F.CLK_XO_STATUS_ACTIVE) t

/-- The temperature that the table term is taken from: T_h in HOLDOVER, else T_0 (R101, R105). -/
def Mach.tempRef (m : Mach) : Int := if m.get F.CLK_REG_STATUS_STATE = 3 then m.clk.reg.th else m.clk.reg.t0

/-- Whether TRIM carries the table term (R101, R105): in FREE while XO_TRIM is not zero (R416). -/
def Mach.tableTerm (m : Mach) : Bool := m.get F.CLK_REG_STATUS_STATE != 0 || signedOf 32 (m.get F.CAL_XO_TRIM_TRIM) != 0

/-- Select the other crystal: TRIM takes −Δ on the way to XO1, and +Δ on the way back, so that the root frequency holds (R98, R99); TRIM_SAT when that lies
outside the limits. Every later TRIM keeps what it has taken: FREE beside TRIM_MAN, the loop and HOLDOVER beside y, with the table term of the crystal left; that
of the other counts from the present temperature (log entry 82). -/
def Mach.switchCrystal (m : Mach) : Mach :=
  let to1 := !m.on F.CLK_XO_STATUS_ACTIVE
  let now := m.pwr.dieMk
  let term := if m.tableTerm then m.freqTemp now - m.freqTemp m.tempRef else 0
  let m := m.putB F.CLK_XO_STATUS_ACTIVE to1
  let d := if to1 then -m.deltaTrim else m.deltaTrim
  let t := m.trim + d
  let m := if (t < -trimMax ∨ trimMax < t) ∧ (m.trim = trimMax ∨ m.trim = -trimMax) then m.emit 5 3 0 0 else m
  let m := { m with clk := { m.clk with reg := { m.clk.reg with shift := m.clk.reg.shift + d + term, t0 := now, th := now } } }
  let m := m.setTrim t
  let m := m.bump F.CLK_XO_STATUS_SWITCH_CNT
  m.emit 5 0 0 (evArg (bit to1) 0 0)

/-- CLK.XO_CTRL.RETURN: acts only while XO0_OK is 1 and XO1 is active (R99). -/
def Mach.xoReturn (m : Mach) : Mach :=
  if m.on F.CLK_XO_STATUS_XO0_OK && m.on F.CLK_XO_STATUS_ACTIVE then m.switchCrystal else m

/-! ### The Regulator -/

/-- The update interval of a source in ms (Table 05-3): 1 s for PPS_IN, 10 ms otherwise. -/
def srcTu (src : Nat) : Nat := if src = 4 then 1000 else 10

/-- A rational rounded to the nearest integer, ties away from zero. -/
def roundRat (x : Rat) : Int := roundAway x.num x.den

/-- A fine LSB of the TIS in seconds: 1 / (1.2 GHz × 1,024). -/
def fineSec : Rat := 1 / (1200000000 * 1024 : Nat)

/-- TRIM moved toward a target by at most SLEW ppb per second over T_u ms (R104). -/
def Mach.slewTo (m : Mach) (tuMs : Nat) (target : Int) : Mach :=
  let lim : Int := (m.get F.CLK_REG_CTRL_SLEW * tuMs * 2 ^ 40 / (1000 * 10 ^ 9) : Nat)
  m.setTrim (m.trim + clampInt (-lim) lim (target - m.trim))

/-- Change the Regulator's hidden part. -/
def Mach.modReg (m : Mach) (f : Regul → Regul) : Mach := { m with clk := { m.clk with reg := f m.clk.reg } }

/-- A of R105, per second: AGE_RATE while AGE_HOURS is 4 or more. -/
def Mach.ageSlope (m : Mach) : Rat := if 4 ≤ m.get F.CLK_AGE_HOURS_HOURS then (signedOf 32 (m.get F.CLK_AGE_RATE_A) : Rat) / (10 ^ 18 : Nat) else 0

/-- Enter HOLDOVER (R100, R105): y_h is the mean of y over the 60 s that end 10 s before the loss; a window without a y, as under a PTP source, which has none
(R102), leaves y_h open (log entry 12). Leaving a source issues SRC_CHANGE. -/
def Mach.enterHoldover (m : Mach) : Mach :=
  let r := m.clk.reg
  let ys := (r.hist.filter fun e => decide (e.1 + 70000000000 ≥ m.now) && decide (e.1 + 10000000000 ≤ m.now)).map (·.2)
  let (k, m) := m.fresh
  let yh : Rat := if ys.isEmpty then (Config.openRate k : Rat) / (2 ^ 40 : Nat) else ys.foldl (· + ·) 0 / (ys.length : Nat)
  let was := m.get F.CLK_REG_STATUS_SRC
  let m := m.modReg fun r => { r with yh := yh, tHold := m.now, th := m.pwr.dieMk, good := 0, off := none, edge0 := none, edges := 0, edge := none }
  let m := (m.put F.CLK_REG_STATUS_STATE 3).put F.CLK_REG_STATUS_SRC 7
  let m := m.emit 5 4 0 0
  if was = 7 then m else m.emit 5 5 0 (evArg 7 0 0)

/-- Take a source (R100, R103): its first phase error will be stored as an offset; I is kept. -/
def Mach.takeSource (m : Mach) (src : Nat) : Mach :=
  let m := (m.put F.CLK_REG_STATUS_STATE 1).put F.CLK_REG_STATUS_SRC src
  let m := m.modReg fun r => { r with off := none, good := 0, t0 := m.pwr.dieMk, edge0 := none, edges := 0, edge := none }
  m.emit 5 5 0 (evArg src 0 0)

/-- TRIM in FREE: TRIM_MAN, with the −Δ of a switchover since TRIM_MAN last applied (R98, log entry 82); while the selected user set holds a non-zero XO_TRIM,
also the table term of R101 and XO_TRIM (R416). Chapter 05 says both that TRIM equals TRIM_MAN in FREE and that the factory table still applies there: the model adds
the table term with a non-zero XO_TRIM alone (DESIGN CHOICE, log entry 82). -/
def Mach.freeTrim (m : Mach) : Mach :=
  let x := signedOf 32 (m.get F.CAL_XO_TRIM_TRIM)
  let t := signedOf 32 (m.get F.CLK_TRIM_MAN) + m.clk.reg.shift
  m.setTrim (if x = 0 then t else t + m.freqTemp m.pwr.dieMk - m.freqTemp m.clk.reg.t0 + x)

/-- An edge of the Regulator's source, stamped at `t` fine LSBs (R101): edge 0, then every 100,000th edge of REF_IN or every pulse of PPS_IN, kept for the next
update. -/
def Mach.regEdge (m : Mach) (src t : Nat) : Mach :=
  let st := m.get F.CLK_REG_STATUS_STATE
  if (st == 1 || st == 2) && m.get F.CLK_REG_STATUS_SRC == src then
    let step := if src = 5 then 100000 else 1
    m.modReg fun r =>
      match r.edge0 with
      | none => { r with edge0 := some t, edges := 0, edge := some (0, t) }
      | some _ => { r with edges := r.edges + 1, edge := if (r.edges + 1) % step = 0 then some ((r.edges + 1) / step, t) else r.edge }
  else m

/-- The phase error that an update takes, in seconds (R101): of a TIS source, n × T_u less the stamp of its edge n since edge 0; none while no edge has come since
the last update. A PTP source has no e_n: the last offset of the domain's servo stands for the LOCKED state (log entry 82). -/
def Mach.phaseErr (m : Mach) : Option Rat :=
  let r := m.clk.reg
  let src := m.get F.CLK_REG_STATUS_SRC
  if src ≤ 3 then ((mapGet {} m.ptp.clocks src).last).map fun ps => (ps : Rat) / (10 ^ 12 : Nat)
  else match r.edge0, r.edge with
    | some a, some (n, t) => some (((n * srcTu src : Nat) : Rat) / 1000 - ((t - a : Nat) : Rat) * fineSec)
    | _, _ => none

/-- One update under a PTP source (R102): RATE_d × T_u / τ goes from the domain's rate word to TRIM, as far as R104 lets TRIM move. -/
def Mach.regRate (m : Mach) (src : Nat) : Mach :=
  let t := m.trim
  let d := roundRat ((m.domRate src : Rat) * ((srcTu src : Rat) / 1000) / (2 ^ m.get F.CLK_REG_CTRL_TAU : Nat))
  let m := m.slewTo (srcTu src) (t + d)
  m.put (F.CLK_DOM_RATE_RATE src) (codeOf 32 (m.domRate src - (m.trim - t)))

/-- One update of the Regulator with phase error `e` in seconds, before the offset of R103 (R101 to R104). Before the moment of lock, T_0 is the present
temperature (log entry 82). -/
def Mach.regLoop (m : Mach) (e : Rat) : Mach :=
    let r := m.clk.reg
    let st := m.get F.CLK_REG_STATUS_STATE
    let src := m.get F.CLK_REG_STATUS_SRC
    let off := r.off.getD e
    let en := e - off
    let tuMs := srcTu src
    let tu : Rat := (tuMs : Rat) / 1000
    let tau : Rat := (2 ^ m.get F.CLK_REG_CTRL_TAU : Nat)
    let good := if en ≤ 1 / (10 ^ 7 : Nat) ∧ -(1 / (10 ^ 7 : Nat) : Rat) ≤ en then r.good + 1 else 0
    let locked := 10 ≤ good
    let newLock := locked && st != 2
    let t0 := if st == 2 && locked then r.t0 else m.pwr.dieMk
    let m := m.put F.CLK_REG_STATUS_STATE (if locked then 2 else 1)
    if src ≤ 3 then (m.modReg fun r => { r with off := some off, good := good, t0 := t0 }).regRate src
    else
      let m := m.put F.CLK_PHASE_ERR_E (codeOf 32 (clampInt (-(2 ^ 31)) (2 ^ 31 - 1) (roundRat (en * (10 ^ 12 : Nat)))))
      let i := r.i + en * tu / (tau * tau)
      let y := i + 2 * en / tau
      let hist := ((m.now, y) :: r.hist).filter fun h => decide (h.1 + 70000000000 ≥ m.now)
      let m := m.modReg fun r => { r with i := i, y := y, off := some off, good := good, t0 := (if newLock then m.pwr.dieMk else t0), hist := hist, edge := none }
      m.slewTo tuMs (roundRat (y * (2 ^ 40 : Nat)) + m.freqTemp m.pwr.dieMk - m.freqTemp m.clk.reg.t0 + r.shift)

/-- REGULATOR_UPDATE (R101 to R105). HOLDOVER updates each 10 ms, an interval that Table 05-3 gives per source alone (log entry 82). Under a PTP source each update
moves the rate, also while its servo has no offset (R102). -/
def Mach.regUpdate (m : Mach) : Mach :=
  let r := m.clk.reg
  let st := m.get F.CLK_REG_STATUS_STATE
  if st == 0 then m.freeTrim
  else if st == 3 then
    let t : Rat := ((m.now - r.tHold : Nat) : Rat) / (10 ^ 9 : Nat)
    m.slewTo 10 (roundRat ((r.yh + m.ageSlope * t) * (2 ^ 40 : Nat)) + m.freqTemp m.pwr.dieMk - m.freqTemp r.th + r.shift)
  else match m.phaseErr with
    | some e => m.regLoop e
    | none => if m.get F.CLK_REG_STATUS_SRC ≤ 3 then m.regRate (m.get F.CLK_REG_STATUS_SRC) else m

/-- The least-squares slope of points (device time in ns, value) per second; 0 with fewer than two. -/
def slopeOf (l : List (Nat × Rat)) : Rat :=
  let n : Rat := (l.length : Nat)
  let sx : Rat := l.foldl (fun a e => a + ((e.1 : Nat) : Rat) / (10 ^ 9 : Nat)) 0
  let sy : Rat := l.foldl (fun a e => a + e.2) 0
  let sxx : Rat := l.foldl (fun a e => a + ((e.1 : Nat) : Rat) / (10 ^ 9 : Nat) * (((e.1 : Nat) : Rat) / (10 ^ 9 : Nat))) 0
  let sxy : Rat := l.foldl (fun a e => a + ((e.1 : Nat) : Rat) / (10 ^ 9 : Nat) * e.2) 0
  let den := n * sxx - sx * sx
  if den = 0 then 0 else (n * sxy - sx * sy) / den

/-- One ageing sample while LOCKED (the ageing model of chapter 05): I joins the last 24 h of samples and the line is refitted. -/
def Mach.ageSample (m : Mach) : Mach :=
  if m.get F.CLK_REG_STATUS_STATE == 2 then
    let r := m.clk.reg
    let l := ((m.now, r.i) :: r.ageing).filter fun e => decide (e.1 + 86400000000000 ≥ m.now)
    let m := m.modReg fun r => { r with ageing := l, ageN := r.ageN + 1 }
    let m := m.put F.CLK_AGE_RATE_A (codeOf 32 (clampInt (-(2 ^ 31)) (2 ^ 31 - 1) (roundRat (slopeOf l * (10 ^ 18 : Nat)))))
    m.put F.CLK_AGE_HOURS_HOURS (min (m.clk.reg.ageN / 60) 0xFFFF)
  else m

/-- CLK.AGE_CLEAR: the ageing model is cleared. -/
def Mach.ageClear (m : Mach) : Mach :=
  ((m.modReg fun r => { r with ageing := [], ageN := 0 }).put F.CLK_AGE_RATE_A 0).put F.CLK_AGE_HOURS_HOURS 0

/-- The entries of CLK.REG_SRC that are enabled, highest priority first. -/
def Mach.regSources (m : Mach) : List Nat :=
  ([0, 1, 2, 3].map fun i => m.get F.CLK_REG_SRC_SRC / 2 ^ (8 * i) % 256).filterMap fun b =>
    if bitOf b 3 then some (b % 8) else none

/-- Whether a source is qualified. -/
def Mach.qualified (m : Mach) (src : Nat) : Bool := m.clk.qual.any fun e => e.1 == src

/-- The present source is lost (R100): it is dropped at once for the highest qualified one, or HOLDOVER begins when none is qualified. -/
def Mach.sourceLost (m : Mach) (src : Nat) : Mach :=
  let m := { m with clk := { m.clk with qual := m.clk.qual.filter fun e => e.1 != src } }
  let st := m.get F.CLK_REG_STATUS_STATE
  if (st == 1 || st == 2) && m.get F.CLK_REG_STATUS_SRC == src then
    match m.regSources.find? m.qualified with
    | some s => m.takeSource s
    | none => m.enterHoldover
  else m

/-- A source becomes qualified (Table 05-3). In HOLDOVER, or with no source in use, the highest qualified one is used at once (R100). -/
def Mach.sourceGood (m : Mach) (src : Nat) : Mach :=
  if m.qualified src then m
  else
    let now := m.now
    let m := { m with clk := { m.clk with qual := m.clk.qual ++ [(src, now)] } }
    if m.on F.CLK_REG_CTRL_AUTO && m.get F.CLK_REG_STATUS_SRC == 7 then
      match m.regSources.find? m.qualified with
      | some s => m.takeSource s
      | none => m
    else m

/-- The place of a source in CLK.REG_SRC, lower first. -/
def Mach.sourceRank (m : Mach) (src : Nat) : Nat := (m.regSources.findIdx? (· == src)).getD 4

/-- Whether a source has stayed qualified for 60 s. -/
def Mach.proven (m : Mach) (src : Nat) : Bool := m.clk.qual.any fun e => e.1 == src && decide (e.2 + 60000000000 ≤ m.now)

/-- SOURCE_TAKE (R100): a source that stands higher than the present one is taken once it has stayed qualified for 60 s; of several, the highest. -/
def Mach.sourceTake (m : Mach) (src : Nat) : Mach :=
  match m.clk.qual.find? fun e => e.1 == src with
  | none => m
  | some e =>
    if m.on F.CLK_REG_CTRL_AUTO && decide (m.sourceRank src < m.sourceRank (m.get F.CLK_REG_STATUS_SRC)) then
      let m := m.reachNs (e.2 + 60000000000)
      if m.regSources.find? m.proven == some src then m.takeSource src else m
    else m

/-- CLK.REG_CTRL.AUTO at a module boundary: 0 is FREE; 1 takes the highest qualified source, or HOLDOVER when none is qualified; so does a
Regulator whose present source CLK.REG_SRC no longer names (R100). `man` says whether TRIM_MAN has changed there. -/
def Mach.regMode (m : Mach) (man : Bool) : Mach :=
  let st := m.get F.CLK_REG_STATUS_STATE
  if !m.on F.CLK_REG_CTRL_AUTO then
    let was := m.get F.CLK_REG_STATUS_SRC
    let m := (m.put F.CLK_REG_STATUS_STATE 0).put F.CLK_REG_STATUS_SRC 7
    let m := if st = 0 then m else m.modReg fun r => { r with t0 := m.pwr.dieMk, good := 0, off := none, edge0 := none, edges := 0, edge := none }
    let m := if st = 0 && !man then m else m.modReg fun r => { r with shift := 0 }
    (if was = 7 then m else m.emit 5 5 0 (evArg 7 0 0)).freeTrim
  else
    let src := m.get F.CLK_REG_STATUS_SRC
    if st = 0 || !m.regSources.contains src then
      match m.regSources.find? m.qualified with
      | some s => m.takeSource s
      | none => if st = 3 then m else m.enterHoldover
    else m

/-- REF_IN_MEASUREMENT (Table 05-3): a 10 ms measurement in ppb from 10 MHz, none when no edge came for 1 µs. -/
def Mach.refMeasured (m : Mach) (ppb : Option Int) : Mach :=
  let good := match ppb with | some x => decide (x.natAbs ≤ 20000) | none => false
  if good then
    let m := { m with clk := { m.clk with refGood := min (m.clk.refGood + 1) 10 } }
    if m.clk.refGood = 10 then m.sourceGood 5 else m
  else ({ m with clk := { m.clk with refGood := 0 } }).sourceLost 5

/-- A pulse of PPS_IN, in fine LSBs (Table 05-3): four pulses at intervals of 1 s ± 100 µs qualify it. -/
def Mach.ppsPulse (m : Mach) (t : Nat) : Mach :=
  let near := match m.clk.ppsLast with
    | some l => decide (((t : Int) - l - 1228800000000).natAbs ≤ 122880000)
    | none => false
  let n := if near then min (m.clk.ppsGood + 1) 3 else 0
  let m := { m with clk := { m.clk with ppsLast := some t, ppsGood := n } }
  if n = 3 then m.sourceGood 4 else m

/-! ### PPS_OUT (R111) -/

/-- Whether PPS_OUT has a running source: 1 to 4 an enabled domain, 5 device time. -/
def Mach.ppsRuns (m : Mach) : Bool :=
  let src := m.pwr.ppsSrc
  src == 5 || (decide (1 ≤ src) && decide (src ≤ 4) && m.on (F.CLK_DOM_CTRL_EN (src - 1)))

/-- The time of PPS_OUT's source in 2^-48 ns. -/
def Mach.ppsTime (m : Mach) : Nat :=
  if m.pwr.ppsSrc = 5 then m.clk.dev * 2 ^ 48 + m.clk.frac * 2 ^ 16 else (m.clk.doms.getD (m.pwr.ppsSrc - 1) {}).t

/-- The next second of the source for which PPS_OUT rises: the first whole second from now on, less the lead of PPS_OUT_DELAY, and later than the one it last rose
for. -/
def Mach.ppsNext (m : Mach) : Nat :=
  let lead : Int := signedOf 16 (m.get F.CLK_PPS_OUT_DELAY_DELAY) * 2 ^ 48 / 1000
  let s := ceilDiv ((m.ppsTime : Int) + lead).toNat (10 ^ 9 * 2 ^ 48)
  match m.pwr.ppsLast with | some l => max s (l + 1) | none => s

/-- The 1.2 GHz cycles to the rise of PPS_OUT for that second. -/
def Mach.ppsWait (m : Mach) : Nat :=
  let lead : Int := signedOf 16 (m.get F.CLK_PPS_OUT_DELAY_DELAY) * 2 ^ 48 / 1000
  let left := ((m.ppsNext * (10 ^ 9 * 2 ^ 48) : Nat) - lead - m.ppsTime).toNat
  if m.pwr.ppsSrc = 5 then m.cyclesFor (left / 2 ^ 16) else ceilDiv (left * 6) (5 * 2 ^ 8 * (2 ^ 40 + m.domRate (m.pwr.ppsSrc - 1))).toNat

/-- PPS_OUT_EDGE (R111): PPS_OUT rises at a whole second of its source, earlier by PPS_OUT_DELAY, for WIDTH ms. -/
def Mach.ppsRise (m : Mach) : Mach :=
  if m.ppsRuns then
    let s := m.ppsNext
    let m := m.advance m.ppsWait
    { m with pwr := { m.pwr with ppsOut := true, ppsLast := some s, ppsEnd := m.now + m.get F.CLK_PPS_OUT_CTRL_WIDTH * 1000000 } }
  else m

/-- PPS_OUT_PULSE_END (R111): PPS_OUT falls. -/
def Mach.ppsFall (m : Mach) : Mach :=
  if m.pwr.ppsOut then
    let m := m.reachNs m.pwr.ppsEnd
    { m with pwr := { m.pwr with ppsOut := false } }
  else m

/-! ### The interval stamper -/

/-- Whether input `i` is enabled (TIS.CTRL, R119). -/
def Mach.tisEnabled (m : Mach) (i : Nat) : Bool :=
  if i = 0 then m.on F.TIS_CTRL_EN_A else if i = 1 then m.on F.TIS_CTRL_EN_B else bitOf (m.get F.TIS_CTRL_EN) (i - 2)

/-- Count one in the byte of input `i` of a pair of four-byte counters that saturate at 0xFF (R112, R113). -/
def Mach.bumpByte (m : Mach) (lo hi : Fld) (i : Nat) : Mach :=
  let f := if i < 4 then lo else hi
  let b := m.get f / 2 ^ (8 * (i % 4)) % 256
  if b = 255 then m else m.put f (m.get f + 2 ^ (8 * (i % 4)))

/-- A stamp as a count of fine LSBs. -/
def Stamp.lsb (t : Stamp) : Nat := t.coarse * 1024 + t.fine

/-- Complete an interval unit (R115, R116): result and flags; in CONT mode it re-arms, and an unread result that is overwritten is
counted. -/
def Mach.iuComplete (m : Mach) (u : Nat) (res : Int) (subRes order range slept timeout : Bool) : Mach :=
  let iu := mapGet {} m.tis.iu u
  let m := if m.on (F.TIS_IU_STATUS_DONE u) then m.bump (F.TIS_IU_STATUS_OVERRUN_CNT u) else m
  let m := ((((m.putB (F.TIS_IU_STATUS_SUB_RES u) subRes).putB (F.TIS_IU_STATUS_ORDER u) order).putB (F.TIS_IU_STATUS_RANGE u) range).putB
    (F.TIS_IU_STATUS_SLEPT u) slept).putB (F.TIS_IU_STATUS_TIMEOUT u) timeout
  let m := (m.put64 (F.TIS_IU_RES_LO_RES u) (F.TIS_IU_RES_HI_RES u) (codeOf 64 res)).put (F.TIS_IU_STATUS_DONE u) 1
  let cont := m.on (F.TIS_IU_CTRL_CONT u)
  let m := m.putB (F.TIS_IU_CTRL_ARM u) cont
  { m with tis := { m.tis with iu := mapPut {} m.tis.iu u { iu with start := none, stop := none, slept := false, armAt := m.now } } }

/-- Offer a stamp of input `i` to interval unit `u` (R115): the first edge on the START input and the first on the STOP input; with equal
selections the stop is the edge after the start. -/
def Mach.iuOffer (m : Mach) (i : Nat) (t : Nat) (u : Nat) : Mach :=
  if m.on (F.TIS_IU_CTRL_ARM u) then
    let iu := mapGet {} m.tis.iu u
    let s := m.get (F.TIS_IU_CTRL_START_SEL u)
    let e := m.get (F.TIS_IU_CTRL_STOP_SEL u)
    let iu' : IntUnit :=
      if s = e then
        if s = i then (match iu.start with
          | none => { iu with start := some t }
          | some _ => { iu with stop := some t })
        else iu
      else if i = s ∧ iu.start = none then { iu with start := some t }
      else if i = e ∧ iu.stop = none then { iu with stop := some t }
      else iu
    let m := { m with tis := { m.tis with iu := mapPut {} m.tis.iu u iu' } }
    match iu'.start, iu'.stop with
    | some a, some b =>
      let d : Int := (b : Int) - a
      if 2 ^ 47 * 1024 ≤ d.natAbs then m.iuComplete u 0 false false true iu'.slept false
      else if d.natAbs ≤ 3 then m.iuComplete u 0 true false false iu'.slept false
      else m.iuComplete u d false (d < 0) false iu'.slept false
    | _, _ => m
  else m

/-- ARM: the result flags are cleared and the unit waits for its edges (R115). -/
def Mach.iuArm (m : Mach) (u : Nat) : Mach :=
  let m := (((((m.put (F.TIS_IU_STATUS_SUB_RES u) 0).put (F.TIS_IU_STATUS_ORDER u) 0).put (F.TIS_IU_STATUS_RANGE u) 0).put
    (F.TIS_IU_STATUS_SLEPT u) 0).put (F.TIS_IU_STATUS_TIMEOUT u) 0).put (F.TIS_IU_STATUS_DONE u) 0
  let m := m.put (F.TIS_IU_CTRL_ARM u) 1
  { m with tis := { m.tis with iu := mapPut {} m.tis.iu u { armAt := m.now } } }

/-- NAP or SLEEP falls between the edges of every unit that has taken one (SLEPT, R116). -/
def Mach.iuSlept (m : Mach) : Mach :=
  { m with tis := { m.tis with iu := (m.tis.iu.filter fun e => e.1 < 4).map fun e =>
      (e.1, if e.2.start.isSome || e.2.stop.isSome then { e.2 with slept := true } else e.2) } }

/-- The device time at which the gate of frequency unit `f` ends: GATE_MS after its start (R117). -/
def Mach.fuEndAt (m : Mach) (f : Nat) : Nat := (mapGet {} m.tis.fu f).from_ + m.get (F.TIS_FU_CTRL_GATE_MS f) * 1000000

/-- Offer a stamp of input `i` to frequency unit `f` (R117): every P-th edge is a point; at most 65,536 points. -/
def Mach.fuOffer (m : Mach) (i : Nat) (t : Nat) (f : Nat) : Mach :=
  if m.on (F.TIS_FU_CTRL_START f) && m.get (F.TIS_FU_CTRL_SEL f) == i && decide (m.now < m.fuEndAt f) then
    let u := mapGet {} m.tis.fu f
    let p := 2 ^ m.get (F.TIS_FU_CTRL_PRESCALE f)
    let u' : FreqUnit :=
      if u.edges % p ≠ 0 then { u with edges := u.edges + 1 }
      else if u.m = 65536 then { u with edges := u.edges + 1, short := true }
      else
        let t0 := if u.m = 0 then t else u.t0
        let d : Int := (t : Int) - t0
        { u with edges := u.edges + 1, m := u.m + 1, t0 := t0, st := u.st + d, skt := u.skt + u.m * d, stt := u.stt + d * d }
    { m with tis := { m.tis with fu := mapPut {} m.tis.fu f u' } }
  else m

/-- START: a gate begins (R117). -/
def Mach.fuStart (m : Mach) (f : Nat) : Mach :=
  let m := m.put (F.TIS_FU_CTRL_START f) 1
  { m with tis := { m.tis with fu := mapPut {} m.tis.fu f { from_ := m.now } } }

/-- The gate ends, GATE_MS after its start (R117): fit t_k = a + b × k, report P / b in 2^-32 Hz and the rms residual in fine LSBs, each to the nearest. -/
def Mach.fuEnd (m : Mach) (f : Nat) : Mach :=
  if m.on (F.TIS_FU_CTRL_START f) then
    let m := m.reachNs (m.fuEndAt f)
    let u := mapGet {} m.tis.fu f
    let p := 2 ^ m.get (F.TIS_FU_CTRL_PRESCALE f)
    let n : Int := u.m
    let sk : Int := n * (n - 1) / 2
    let skk : Int := (n - 1) * n * (2 * n - 1) / 6
    let den : Int := n * skk - sk * sk
    let num : Int := n * u.skt - sk * u.st
    let few := u.m < 3 ∨ num ≤ 0
    let freq : Nat := if few then 0 else (roundAway (p * 1200000000 * 1024 * 2 ^ 32 * den) num.toNat).toNat
    -- residual sum of squares × n × den
    let rss : Int := den * (n * u.stt - u.st * u.st) - num * num
    let rms : Nat := if few then 0 else (Nat.sqrt ((4 * rss / (n * n * den)).toNat) + 1) / 2
    let m := m.put64 (F.TIS_FU_FREQ_LO_FREQ f) (F.TIS_FU_FREQ_HI_FREQ f) (min freq (2 ^ 64 - 1))
    let m := (m.put (F.TIS_FU_STATUS_RMS f) (min rms 0xFFFF)).put (F.TIS_FU_POINTS_M f) u.m
    let m := ((m.putB (F.TIS_FU_STATUS_NO_EDGES f) (decide (u.m < 3))).putB (F.TIS_FU_STATUS_SHORT f) u.short).put (F.TIS_FU_STATUS_DONE f) 1
    let m := m.putB (F.TIS_FU_CTRL_START f) (m.on (F.TIS_FU_CTRL_CONT f))
    { m with tis := { m.tis with fu := mapPut {} m.tis.fu f { from_ := m.now } } }
  else m

/-- Remove the oldest stamp of an input; ignored when empty. -/
def Mach.tisPop (m : Mach) (i : Nat) : Mach :=
  let x := mapGet {} m.tis.inputs i
  { m with tis := { m.tis with inputs := mapPut {} m.tis.inputs i { x with fifo := x.fifo.drop 1 } } }

/-- A selected edge on an input (R112 to R117): not stamped within the dead time of 2.5 ns (3,072 fine LSBs) of the previous stamp;
else stamped into the FIFO, or counted lost when it is full, and offered to the interval and frequency units. The flag answers
whether the edge was stamped (the LMON path takes it then, R113). -/
def Mach.tisEdge (m : Mach) (i coarse fine : Nat) : Mach × Bool :=
  if !m.tisEnabled i then (m, false)
  else
    let x := mapGet {} m.tis.inputs i
    let t : Stamp := ⟨m.clk.wraps * 2 ^ 48 + coarse, fine, (match x.last with | some l => decide (l.coarse / 2 ^ 48 < m.clk.wraps) | none => false)⟩
    let dead := match x.last with | some l => decide (t.lsb < l.lsb + 3072) | none => false
    if dead then (m.bumpByte F.TIS_DEAD_LO_DEAD F.TIS_DEAD_HI_DEAD i, false)
    else
      let full := 16 ≤ x.fifo.length
      let x' : TisInput := { fifo := if full then x.fifo else x.fifo ++ [t], last := some t }
      let m := { m with tis := { m.tis with inputs := mapPut {} m.tis.inputs i x' } }
      let m := if full then m.bumpByte F.TIS_LOST_LO_LOST F.TIS_LOST_HI_LOST i else m
      let m := [0, 1, 2, 3].foldl (fun m u => m.iuOffer i t.lsb u) m
      let m := [0, 1].foldl (fun m f => m.fuOffer i t.lsb f) m
      (m, true)

end Sys2Proof.Machine
end

