-- ==== Sys2Proof/Machine/Access.lean ====
section
/-!
DEFINITION. Machine/Access.lean: accesses to the DRAM channels (chapter 14): where a burst lies (R314, R328 to R330, R339), self-refresh and the requests that meet
it (R336, R337), activate counting (R325 to R327), requests for a migration (R329, R331), and reads with their errors (R319, R320, R322).
-/
namespace Sys2Proof.Machine

/-! ### Channels and ranks -/

/-- A channel. -/
def Mach.mc (m : Mach) (ch : Nat) : MemChan := m.mcs.ix ch

/-- Change a channel. -/
def Mach.modMc (m : Mach) (ch : Nat) (f : MemChan → MemChan) : Mach := { m with mcs := m.mcs.putIx ch (f (m.mcs.ix ch)) }

/-- STATUS.STATE of a channel: 0 ABSENT, 1 TRAINING, 2 PRESENT, 3 FROZEN. -/
def Mach.mcState (m : Mach) (ch : Nat) : Nat := m.get (F.MC_STATUS_STATE ch)

/-- RANK_STATE.STATE of a rank: 0 absent, 1 active, 2 spare, 3 migrating, 4 retired, 5 serving. -/
def Mach.rankState (m : Mach) (ch r : Nat) : Nat := m.get (F.MC_RANK_STATE_STATE ch r)

/-- The GiB of one rank of a DIMM. -/
def dimmRankGiB (d : Dimm) : Nat := d.capGiB / max d.ranks 1

/-- The GiB of a rank: ranks 2 and 3 are on slot 1 when two DIMMs are in use (R314). -/
def MemChan.rankGiB (c : MemChan) (r : Nat) : Nat :=
  match c.dimms with
  | [d] => dimmRankGiB d
  | d :: e :: _ => if r < 2 then dimmRankGiB d else dimmRankGiB e
  | [] => 0

/-- The ranks of a channel's DIMMs in use (R314). -/
def rankNos : List Dimm → List Nat
  | [d] => List.range d.ranks
  | d :: e :: _ => List.range d.ranks ++ (List.range e.ranks).map (· + 2)
  | [] => []

/-- The ranks that read and write data: active, migrating or serving. -/
def Mach.liveRank (m : Mach) (ch r : Nat) : Bool :=
  m.rankState ch r == 1 || m.rankState ch r == 3 || m.rankState ch r == 5

/-- The spare rank of a channel: the one that its rank map holds as spare or serving. The map is formed from the image's designation and outlasts the resets of
Table 18-3 (R328, R329). -/
def Mach.spareRank (m : Mach) (ch : Nat) : Option Nat := [0, 1, 2, 3].find? fun r => m.rankState ch r == 2 || m.rankState ch r == 5

/-- The rank of a channel that an address of its used capacity belongs to, spare excluded, and the offset in it (R339; log entry 21). -/
def Mach.rankAt (m : Mach) (ch addr : Nat) : Nat × Nat :=
  let rs := (rankNos (m.mc ch).dimms).filter fun r => m.spareRank ch != some r
  let (o, off) := Config.rankOf ch addr
  (rs.getD (o % max rs.length 1) 0, off)

/-- The rank that holds an offset of rank r now: the spare once r is retired, and during r's migration below the copy pointer (R329, R330). -/
def Mach.holder (m : Mach) (ch r off : Nat) : Nat :=
  match m.spareRank ch with
  | some sp =>
    if m.rankState ch r = 4 then sp else if m.rankState ch r = 3 ∧ off < (m.mc ch).migBytes then sp else r
  | none => r

/-- The rows of a bank by device density (log entry 21). -/
def bankRows (density : Nat) : Nat := match density with | 0 => 65536 | 1 => 98304 | _ => 131072

/-- The sub-channel, bank and row of an offset of a rank (log entry 21). -/
def Mach.rowAt (m : Mach) (ch rank off : Nat) : BurstAddr :=
  let (sub, bank, row) := Config.rowOf ch off
  ⟨rank, sub % 2, bank % 32, row % bankRows (m.get (F.MC_ORG_DENSITY ch))⟩

/-- Where the burst at an address of a channel lies now. -/
def Mach.place (m : Mach) (ch addr : Nat) : BurstAddr :=
  let (r, off) := m.rankAt ch addr
  m.rowAt ch (m.holder ch r off) off

/-! ### Self-refresh -/

/-- A present controller starts its entry into self-refresh (R336): STATUS.SR reads entering. -/
def Mach.srBegin (m : Mach) (ch : Nat) : Mach := if m.mcState ch = 2 ∧ m.get (F.MC_STATUS_SR ch) = 0 then m.put (F.MC_STATUS_SR ch) 1 else m

/-- A present controller puts its DIMMs into self-refresh (R336). -/
def Mach.srEnter (m : Mach) (ch : Nat) : Mach :=
  if m.mcState ch = 2 ∧ m.get (F.MC_STATUS_SR ch) ≤ 1 then (m.put (F.MC_STATUS_SR ch) 2).bump (F.MC_SR_CNT_ENTRIES ch) else m

/-- Exit from self-refresh: activate counts are cleared (R325, R336). -/
def Mach.srExit (m : Mach) (ch : Nat) : Mach :=
  if m.get (F.MC_STATUS_SR ch) = 2 then
    let now := m.now
    (m.put (F.MC_STATUS_SR ch) 0).modMc ch fun c => { c with act := [], winStart := now, refBase := now }
  else m

/-- Both channels' entry. -/
def Mach.srEnterAll (m : Mach) : Mach := (m.srEnter 0).srEnter 1

/-- Both channels' exit. -/
def Mach.srExitAll (m : Mach) : Mach := (m.srExit 0).srExit 1

/-- An entry that the supervisor has chosen is given up on a channel. -/
def Mach.srGiveUp (m : Mach) (ch : Nat) : Mach := if m.get (F.MC_STATUS_SR ch) = 1 then m.put (F.MC_STATUS_SR ch) 0 else m

/-- A request for a channel (R337): before the entry command has been issued the entry is abandoned and counted, and with it the state that the supervisor had
chosen; after it the controller exits. The request is served then. -/
def Mach.dramRequest (m : Mach) (ch : Nat) : Mach :=
  if m.get (F.MC_STATUS_SR ch) = 1 then
    let m := (m.put (F.MC_STATUS_SR ch) 0).bump (F.MC_SR_CNT_SR_ABORT ch)
    (m.srGiveUp (1 - ch)).modPwr fun x => { x with entering := none, wakeAt := none }
  else m.srExit ch

/-- A channel serves accesses: PRESENT and not in self-refresh. -/
def Mach.mcRuns (m : Mach) (ch : Nat) : Bool := m.mcState ch == 2 && decide (m.get (F.MC_STATUS_SR ch) ≤ 1)

/-! ### Activate counting -/

/-- The key of a bank's activate table. -/
def bankKey (rank sub bank : Nat) : Nat := (rank * 2 + sub) * 32 + bank

/-- Replace the entry with the lowest count, the lowest entry number on a tie, by a row that takes that count plus one (R326). -/
def replaceLowest (row : Nat) (l : List (Nat × Nat)) : List (Nat × Nat) :=
  let lo := l.foldl (fun a e => min a e.2) ((l.headD (0, 0)).2)
  listPut l (l.findIdx fun e => e.2 == lo) (row, lo + 1)

/-- Count one activate of a row in a bank's table (R325, R326), and whether an entry was replaced. -/
def countRow (row : Nat) (l : List (Nat × Nat)) : List (Nat × Nat) × Bool :=
  if l.any fun e => e.1 == row then (l.map fun e => if e.1 = row then (row, e.2 + 1) else e, false)
  else if l.length < 32 then (l ++ [(row, 1)], false)
  else (replaceLowest row l, true)

/-- Count one activate on a channel, with ACT_REPL. -/
def Mach.activate (m : Mach) (ch key row : Nat) : Mach :=
  let (t, repl) := countRow row (mapGet [] (m.mc ch).act key)
  let m := m.modMc ch fun c => { c with act := mapPut [] c.act key t }
  if repl then m.bump (F.MC_ACT_REPL_COUNT ch) else m

/-- The count of a row. -/
def Mach.rowCount (m : Mach) (ch key row : Nat) : Nat :=
  match (mapGet [] (m.mc ch).act key).find? fun e => e.1 == row with | some e => e.2 | none => 0

/-- Whether a row's count has reached ACT_THR (R327). -/
def Mach.rowHot (m : Mach) (ch key row : Nat) : Bool :=
  let thr := m.get (F.MC_ACT_CTRL_ACT_THR ch)
  decide (0 < thr) && decide (thr ≤ m.rowCount ch key row)

/-- Refresh the neighbours r − 2, r − 1, r + 1, r + 2 of a row whose count has reached ACT_THR, skipping rows beyond the bank, and set its count to 0 (R327). A
neighbour that has reached ACT_THR itself has its own refreshed before this activate of it; `serving` holds the rows whose neighbours are being refreshed, each of which has
an entry, so `n` = 32 bounds them. -/
def refreshAround (ch key : Nat) : Nat → List Nat → Mach → Nat → Mach
  | 0, _, m, _ => m
  | n + 1, serving, m, row =>
    let rows := bankRows (m.get (F.MC_ORG_DENSITY ch))
    let rs := ((if 2 ≤ row then [row - 2] else []) ++ (if 1 ≤ row then [row - 1] else []) ++ [row + 1, row + 2]).filter fun r => decide (r < rows)
    let m := rs.foldl (fun m r =>
      (if m.rowHot ch key r && !serving.contains r then refreshAround ch key n (row :: serving) m r else m).activate ch key r) m
    let m := m.modMc ch fun c => { c with act := mapPut [] c.act key ((mapGet [] c.act key).map fun e => if e.1 = row then (row, 0) else e) }
    m.bump (F.MC_ACT_NREF_COUNT ch)

/-- The rows of a bank up to `row` whose counts have reached ACT_THR have their neighbours refreshed, in ascending row order (R327). -/
def Mach.neighbours (m : Mach) (ch key row : Nat) : Mach :=
  let rows := ((mapGet [] (m.mc ch).act key).map (·.1)).filter fun r => decide (r ≤ row)
  (rows.foldl (fun l r => insertNat r l) []).foldl (fun m r => if m.rowHot ch key r then refreshAround ch key 32 [] m r else m) m

/-- An access opens a row: a row at ACT_THR has its neighbours refreshed first (R327). -/
def Mach.openRow (m : Mach) (ch key row : Nat) : Mach := (if m.rowHot ch key row then m.neighbours ch key row else m).activate ch key row

/-- An access to a burst opens its row, which is closed after it (R323). -/
def Mach.openAt (m : Mach) (ch : Nat) (a : BurstAddr) : Mach := m.openRow ch (bankKey a.rank a.sub a.bank) a.row

/-! ### Requests for a migration -/

/-- A migration request of rank `s` with a cause: 0 CE_THR, 1 UE, 2 HOST (R329, R331). -/
def Mach.migRequest (m : Mach) (ch s cause : Nat) : Mach :=
  let refuse (m : Mach) (r : Nat) := (m.put (F.MC_MIG_STATUS_LAST_REFUSE ch) r).emit 10 3 0 (evArg s r ch)
  match m.spareRank ch with
  | none => refuse m 1
  | some sp =>
    if m.rankState ch sp == 5 then refuse m 1
    else if m.on (F.MC_STATUS_MIGRATING ch) then refuse m 2
    else if m.rankState ch s != 1 then refuse m 3
    else
      let m := (m.put (F.MC_STATUS_MIGRATING ch) 1).put (F.MC_RANK_STATE_STATE ch s) 3
      let m := ((m.put (F.MC_MIG_STATUS_CAUSE ch) cause).put (F.MC_MIG_STATUS_SRC ch) s).put (F.MC_MIG_STATUS_PTR_GIB ch) 0
      let m := m.modMc ch fun c => { c with migBytes := 0, migPart := 0 }
      m.emit 10 2 0 (evArg s cause ch)

/-- A UE on a burst (R320, R322): counted, recorded and reported; it requests a migration of a rank that is not the spare, unless poisoned. -/
def Mach.ueSeen (m : Mach) (ch : Nat) (a : BurstAddr) (poison : Bool) : Mach :=
  let m := m.bump (F.MC_ERR_CNT_UE ch a.rank)
  let m := ((((m.putB (F.MC_UE_LAST_POISON ch) poison).put (F.MC_UE_LAST_SUB ch) a.sub).put (F.MC_UE_LAST_RANK ch) a.rank).put
    (F.MC_UE_LAST_BANK ch) a.bank).put (F.MC_UE_LAST_ROW ch) a.row
  let last := bit poison * 2 ^ 29 + a.sub % 2 * 2 ^ 28 + a.rank % 4 * 2 ^ 26 + a.bank % 32 * 2 ^ 21 + a.row % 2 ^ 21
  let m := m.emit2 10 0 0 (evArg a.rank 0 ch) last
  if poison || m.spareRank ch == some a.rank then m else m.migRequest ch a.rank 1

/-- A corrected error on a rank, in its count and that of the open window (R320, R322). -/
def Mach.ceSeen (m : Mach) (ch rank : Nat) : Mach :=
  (m.bump (F.MC_ERR_CNT_CE ch rank)).modMc ch fun c => { c with ceWin := mapMod 0 c.ceWin rank (· + 1) }

/-! ### Reads and writes -/

/-- What the code makes of a burst (R319): on x4 DIMMs it corrects every error confined to one device; on x8 DIMMs it corrects one bit of a beat and
detects two. Whether it detects more than that the spec leaves open, and the error says. -/
def errSeen (x8 : Bool) (e : ReadErr) : BurstRead :=
  if x8 then
    if e.beats.any (· == 2) || (e.detected && e.beats.any fun n => decide (2 < n)) then .uncorrectable
    else if e.beats.any (· == 1) then .corrected else .clean
  else if e.devices = 0 then .clean
  else if e.devices = 1 then .corrected
  else if e.detected then .uncorrectable else .clean

/-- What a read of the burst at an address of a channel meets: a poisoned burst reports a UE with POISON (R330). -/
def Mach.burstSeen (m : Mach) (ch addr : Nat) : BurstRead × Bool :=
  if (m.mc ch).poison.contains addr then (.uncorrectable, true)
  else (errSeen (m.on (F.MC_ORG_WIDTH ch)) (mapGet {} (m.mc ch).errs addr), false)

/-- Write the burst at an address (R321): what stood there, errors and poison, is gone. -/
def Mach.writeBurst (m : Mach) (ch addr : Nat) : Mach :=
  if m.mcState ch ≠ 2 then m
  else
    let m := m.dramRequest ch
    let m := m.openAt ch (m.place ch addr)
    m.modMc ch fun c => { c with errs := mapPut {} c.errs addr {}, poison := c.poison.filter (· != addr), written := insertNat (addr / segBytes) c.written }

/-- Read the burst at an address (R320): a corrected error is written back and counted, a UE is counted, recorded and reported. It tells whether the
read is a UE. A segment not written since training is never read (R321). -/
def Mach.readBurst (m : Mach) (ch addr : Nat) : Mach × Bool :=
  if m.mcState ch ≠ 2 ∨ !(m.mc ch).written.contains (addr / segBytes) then (m, false)
  else
    let m := m.dramRequest ch
    let a := m.place ch addr
    let m := m.openAt ch a
    match m.burstSeen ch addr with
    | (.clean, _) => (m, false)
    | (.corrected, _) => ((m.openAt ch a).ceSeen ch a.rank |>.modMc ch fun c => { c with errs := mapPut {} c.errs addr {} }, false)
    | (.uncorrectable, p) => (m.ueSeen ch a p, true)

/-- The bursts of `n` bytes from byte `pos` of an area of `size` bytes that wraps, as offsets in it. -/
def burstsOf (size pos n : Nat) : List Nat :=
  (List.range (ceilDiv (pos % 64 + n) 64)).map fun i => (pos / 64 * 64 + 64 * i) % max size 1

/-- Bytes of the journal copy, and of the raw area copy, in force (R339). -/
def Mach.jrnBytes (m : Mach) : Nat := m.get F.MC_RSV_SIZES_JRN_MIB * 2 ^ 20

/-- The raw area copy in force, bytes. -/
def Mach.rawBytes (m : Mach) : Nat := m.get F.MC_RSV_SIZES_RAW_MIB * 2 ^ 20

/-- Where the journal copy begins: after the system area of 128 MiB (R339). -/
def jrnBase : Nat := 2 ^ 27

/-- Where the raw area copy begins. -/
def Mach.rawBase (m : Mach) : Nat := jrnBase + m.jrnBytes

/-- Where the ring region begins. -/
def Mach.ringBase (m : Mach) : Nat := m.rawBase + m.rawBytes

/-- The channel and the address of an offset of the ring: the ring region of MC0, then that of MC1 (R339). -/
def Mach.ringPlace (m : Mach) (off : Nat) : Nat × Nat :=
  if off < m.rsv.ring0 then (0, m.ringBase + off) else (1, m.ringBase + (off - m.rsv.ring0))

/-- Write bytes into the ring, and the index entry of each segment that they touch, in the system area of its channel (R341, R342; log entry 21). -/
def Mach.ringStore (m : Mach) (pos n : Nat) : Mach :=
  (burstsOf (m.rsv.ring0 + m.rsv.ring1) pos n).foldl (fun (m : Mach) o =>
    let x := m.ringPlace o
    let m := if o % segBytes = 0 ∨ o = pos % max (m.rsv.ring0 + m.rsv.ring1) 1 / 64 * 64 then m.writeBurst x.1 (64 * (x.2 / segBytes)) else m
    m.writeBurst x.1 x.2) m

/-- Read bytes of the ring; the ring offsets whose read is a UE. -/
def Mach.ringFetch (m : Mach) (pos n : Nat) : Mach × List Nat :=
  (burstsOf (m.rsv.ring0 + m.rsv.ring1) pos n).foldl (fun (x : Mach × List Nat) o =>
    let at_ := x.1.ringPlace o
    let (m, ue) := x.1.readBurst at_.1 at_.2
    (m, if ue then x.2 ++ [o] else x.2)) (m, [])

/-- Write a burst to the copies on both channels (R344, R345). -/
def Mach.writeBoth (m : Mach) (addr : Nat) : Mach := (m.writeBurst 0 addr).writeBurst 1 addr

/-- Read a burst of a mirrored area from the copy of `ch` (R320): on a UE the other channel's copy is read, and where that reads well the damaged burst is
rewritten from it. It tells whether the burst is lost. -/
def Mach.readFrom (m : Mach) (ch addr : Nat) : Mach × Bool :=
  let (m, ue) := m.readBurst ch addr
  if !ue then (m, false)
  else
    let o := 1 - ch
    if m.mcState o ≠ 2 ∨ m.on F.MC_RSV_STATUS_SINGLE then (m, true)
    else
      let (m, ue) := m.readBurst o addr
      if ue then (m, true) else (m.writeBurst ch addr, false)

/-- Read a burst of a mirrored area: the copy on MC0 first, that on MC1 when MC0 is absent or frozen; the copy that serves while there is one (R344 to R346). -/
def Mach.readMirror (m : Mach) (addr : Nat) : Mach × Bool :=
  m.readFrom (if m.on F.MC_RSV_STATUS_SINGLE then m.recs.copyOf else if m.mcState 0 = 2 then 0 else 1) addr

/-- Write a journal record's bytes to both copies (R345). -/
def Mach.jrnStore (m : Mach) (pos n : Nat) : Mach := (burstsOf m.jrnBytes pos n).foldl (fun m o => m.writeBoth (jrnBase + o)) m

/-- Read a journal record's bytes for a re-send (R345); whether a burst of it is lost. -/
def Mach.jrnFetch (m : Mach) (pos n : Nat) : Mach × Bool :=
  (burstsOf m.jrnBytes pos n).foldl (fun (x : Mach × Bool) o =>
    let (m, lost) := x.1.readMirror (jrnBase + o)
    (m, x.2 || lost)) (m, false)

/-- Write the bytes of one beat of a raw window to both copies of the raw area (R344). -/
def Mach.rawStore (m : Mach) (pos n : Nat) : Mach := (burstsOf m.rawBytes pos n).foldl (fun m o => m.writeBoth (m.rawBase + o)) m

/-- Read the bytes of one beat of a raw window; whether a burst of it is lost. -/
def Mach.rawFetch (m : Mach) (pos n : Nat) : Mach × Bool :=
  (burstsOf m.rawBytes pos n).foldl (fun (x : Mach × Bool) o =>
    let (m, lost) := x.1.readMirror (m.rawBase + o)
    (m, x.2 || lost)) (m, false)

/-- Drop from the index the blocks that hold a byte of the burst at a ring offset (R320). -/
def Reserve.dropAt (r : Reserve) (off : Nat) : Reserve :=
  let ring := max (r.ring0 + r.ring1) 1
  { r with blocks := r.blocks.filter fun b =>
      let s := b.pos % ring
      !(decide (s < off + 64) && decide (off < s + b.bytes.length) || decide (off + ring < s + b.bytes.length)) }

end Sys2Proof.Machine
end

