-- ==== Sys2Proof/Machine/Records.lean ====
section
/-!
DEFINITION. Machine/Records.lean: forming records (Table 16-5), the journal and its quota (R396), sending within the window and the ring
(R383 to R386), opening and closing slots (R378, R393, R395, R398), failover (R397), and the ATTEST and GAP payloads.
-/
namespace Sys2Proof.Machine

/-! ### Slots -/

/-- A session slot. -/
def Mach.slot (m : Mach) (s : Nat) : Slot := mapGet {} m.recs.slots s

/-- Replace a session slot. -/
def Mach.putSlot (m : Mach) (s : Nat) (x : Slot) : Mach := { m with recs := { m.recs with slots := mapPut {} m.recs.slots s x } }

/-- Change a session slot. -/
def Mach.modSlot (m : Mach) (s : Nat) (f : Slot → Slot) : Mach := m.putSlot s (f (m.slot s))

/-- SESS_STATE.STATE: 0 FREE, 1 CONNECTING, 2 OPEN, 3 CLOSED_KEPT, 4 PAUSED. -/
def Mach.sessState (m : Mach) (s : Nat) : Nat := m.get (F.REC_SESS_STATE_STATE s)

/-- The slot numbers, 0 to 63. -/
def slotNos : List Nat := List.range 64

/-- The policy of a slot; slot 64 + p is that of UDP policy p (R400). -/
def Mach.policyOf (m : Mach) (s : Nat) : Option Policy := m.boot.policies[if 64 ≤ s then s - 64 else m.get (F.REC_SESS_STATE_POLICY s)]?

/-- Whether a slot is open to a host: OPEN or PAUSED. -/
def Mach.isOpen (m : Mach) (s : Nat) : Bool := m.sessState s == 2 || m.sessState s == 4

/-- Whether a slot produces records: OPEN, PAUSED or CLOSED_KEPT, also while a resume is CONNECTING (R398). -/
def Mach.producing (m : Mach) (s : Nat) : Bool :=
  m.isOpen s || m.sessState s == 3 || (m.sessState s == 1 && (m.slot s).prev == 3)

/-- The length of a record with its padding (R387). -/
def Rec.len (r : Rec) : Nat := alignUp (64 + r.payload.length) 64

/-- The bytes of a record: header, payload, padding (Table 16-5, R387); under minor 0 TS_FRAC is zero (R381). -/
def Rec.bytes (r : Rec) : List Byte :=
  let h := leBytes 1 1 ++ leBytes 1 r.minor ++ leBytes 1 r.typ ++ leBytes 1 r.stream ++ leBytes 1 r.port ++ leBytes 1 r.codec ++
    leBytes 2 r.flags ++ leBytes 8 r.seq ++ leBytes 4 r.epoch ++ leBytes 4 r.payload.length ++ leBytes 8 r.beat ++ leBytes 1 r.tick ++
    leBytes 1 r.domain ++ leBytes 2 (if r.minor = 0 then 0 else r.tsFrac) ++ leBytes 4 r.tsNs ++ leBytes 8 r.tsSec ++ leBytes 4 r.first ++ leBytes 4 r.count ++
    leBytes 4 0
  h ++ leBytes 4 (crc32c (h ++ r.payload)) ++ r.payload ++ List.replicate (r.len - 64 - r.payload.length) 0

/-- The journal use of a slot in bytes. -/
def Slot.use (x : Slot) : Nat := sumNat (x.journal.map fun r => r.body.len)

/-- The bytes sent and not accepted (R386). -/
def Slot.inflight (x : Slot) : Nat := sumNat (x.journal.map fun r => if r.sent.isSome then r.body.len else 0)

/-- The stream bits of a slot: the streams that are open. -/
def streamBits : Nat → List Stream → Nat
  | _, [] => 0
  | i, t :: r => bit (!t.refused) * 2 ^ i + streamBits (i + 1) r

/-- REC.STATUS.JRN_KIB_FREE: what the journals of the slots leave of a journal copy (Table 16-13). -/
def Mach.syncJournal (m : Mach) : Mach :=
  let use := sumNat (m.recs.slots.map fun e => e.2.use)
  m.put F.REC_STATUS_JRN_KIB_FREE (min ((m.get F.MC_RSV_SIZES_JRN_MIB * 2 ^ 20 - use) / 2 ^ 20) 0xFFFF)

/-- Bring a slot's registers in step: INFLIGHT, JOURNAL and STREAMS, PAUSED, and REC.STATUS (Table 16-13). -/
def Mach.syncSlot (m : Mach) (s : Nat) : Mach :=
  let x := m.slot s
  let m := (m.put (F.REC_INFLIGHT_KIB s) (ceilDiv x.inflight 1024)).put (F.REC_JOURNAL_KIB s) (ceilDiv x.use 1024)
  let m := m.put (F.REC_SESS_STATE_STREAMS s) (if m.sessState s = 0 then 0 else streamBits 0 x.streams)
  let m := if m.isOpen s then m.put (F.REC_SESS_STATE_STATE s) (if x.paused then 4 else 2) else m
  m.syncJournal.put F.REC_STATUS_OPEN ((slotNos.filter fun i => m.isOpen i).length)

/-! ### Forming records -/

/-- The base of SEQ for a start S (R393). -/
def seqBase (s : Nat) : Nat := s % 2 ^ 24 * 2 ^ 40

/-- Form a record on a stream of a slot: SEQ, timestamp in the policy's domain (R110), TIME_INVALID, HOLDUP_SHORT on the first EVENT
record after a start so reported (R388). -/
def Mach.formRec (m : Mach) (s i typ : Nat) (d : Draft) (flags : Nat) (payload : List Byte) : Rec :=
  let x := m.slot s
  let dom := match m.policyOf s with | some p => p.domain | none => 0
  let ts := m.toDomain dom d.lsb
  let t := ts.getD (0, 0, 0)
  let flags := flags + bit ts.isNone * 4 + bit (typ == 6 && x.holdFlag) * 32
  { minor := x.minor, typ := typ, stream := i, port := d.port, codec := d.codec, flags := flags, seq := seqBase x.start + x.k,
    epoch := d.epoch, beat := d.beat, tick := d.tick, domain := dom, tsFrac := t.2.2, tsNs := t.2.1,
    tsSec := t.1, first := d.first, count := d.count, payload := payload }

/-- Put a record at the end of a slot's journal, written to the copies on both channels (R345, R396), counting a GAP record; `last` is its last tick where it
holds more than its first. -/
def Mach.journalize (m : Mach) (s : Nat) (r : Rec) (last : Option (Nat × Nat) := none) : Mach :=
  let at_ := m.recs.jrnPos
  let m := m.jrnStore at_ r.len
  let m := { m with recs := { m.recs with jrnPos := at_ + r.len } }
  let m := m.modSlot s fun x => { x with journal := x.journal ++ [{ body := r, pos := at_, last := last.getD (r.beat, r.tick) }], k := x.k + 1, holdFlag := x.holdFlag && r.typ != 6 }
  let x := m.slot s
  let m := { m with recs := { m.recs with lastK := mapPut (0, 0) m.recs.lastK s (x.start, x.k) } }
  if r.typ = 9 then m.bump F.REC_GAP_CNT_COUNT else m

/-- The payload of a draft for a stream, with the flags it adds: Q_DROP on DAS-CELL (R389). -/
def formBody (t : Stream) (d : Draft) : List Byte × Nat :=
  if d.typ = 1 ∧ !d.gap ∧ bitOf t.opts 0 ∧ 1 < d.bodies.length then (d.bodies.getD 1 [], 64)
  else (d.bodies.headD [], 0)

/-- The event mask of a slot: the policy's alone until the first Hello, then the Hello's and the policy's (R392). -/
def Mach.maskOf (m : Mach) (s : Nat) : Nat :=
  let p := match m.policyOf s with | some p => p.evtMask | none => 0
  if (m.slot s).greeted then (m.slot s).mask &&& p else p

/-- The form that a CAPTURE stream selects (R389): 0 FORM 0, 1 FORM 1, 2 FORM 1 with quality. -/
def Stream.form (t : Stream) : Nat := if bitOf t.opts 0 then (if bitOf t.opts 1 then 2 else 1) else 0

/-- Whether a draft belongs on a stream of a slot (R388 to R390, R392, R59). -/
def Mach.wants (m : Mach) (s : Nat) (t : Stream) (d : Draft) : Bool :=
  !t.refused && t.typ == d.typ &&
  (if d.typ = 6 then d.forced || bitOf (m.maskOf s) d.cls else d.port == t.port || d.typ == 10) &&
  (if d.typ = 7 then t.opts == d.period else true) &&
  (match d.form with | some f => f == t.form | none => true) &&
  (match d.slot with | some n => n == s | none => true)

/-- What a stream did not produce, widened by one draft: from its first tick to its last (R393, R396). -/
def widen (x : Option Missed) (d : Draft) : Missed :=
  let (b, t) := d.last.getD (d.beat, d.tick)
  match x with
  | none => ⟨d.beat, d.tick, b, t, d.first, d.count, d.epoch, bitOf d.flags 0⟩
  | some y =>
    let lo := min y.first d.first
    { y with beat1 := b, tick1 := t, first := lo, count := max (y.first + y.count) (d.first + d.count) - lo }

/-- Change stream `i` of a slot. -/
def Mach.modStream (m : Mach) (s i : Nat) (f : Stream → Stream) : Mach :=
  m.modSlot s fun x => { x with streams := listMod x.streams i f }

/-- Produce a draft on stream `i` of slot `s` within the quota (R396): a data record that would take use past JRN_KIB − 64 KiB pauses the
slot's data production with JRN_FULL; EVENT and GAP records may take use up to JRN_KIB. -/
def Mach.produceOn (m : Mach) (d : Draft) (s i : Nat) (t : Stream) : Mach :=
  let x := m.slot s
  let quota := match m.policyOf s with | some p => p.jrnKib * 1024 | none => 0
  let typ := if d.gap then 9 else d.typ
  let (payload, fl) := formBody t d
  let r := m.formRec s i typ d (d.flags + fl) payload
  let small := typ == 6 || typ == 9
  let fits := if small then x.use + r.len ≤ quota else x.use + r.len + 65536 ≤ quota
  if small && fits then m.journalize s r d.last
  else if small then m.modStream s i fun t => { t with missed := some (widen t.missed d) }
  else if x.paused then m.modStream s i fun t => { t with missed := some (widen t.missed d) }
  else if fits then m.journalize s r d.last
  else
    let m := m.modStream s i fun t => { t with missed := some (widen t.missed d) }
    let m := m.modSlot s fun x => { x with paused := true }
    m.emit 10 14 0 (evArg s 0 0)

/-- Produce a draft on the streams of slot `s` from number `i` up. -/
def produceStreams (d : Draft) (s : Nat) : Mach → Nat → List Stream → Mach
  | m, _, [] => m
  | m, i, t :: r => produceStreams d s (if m.wants s t d then m.produceOn d s i t else m) (i + 1) r

/-! ### Sending -/

/-- The state of port Pn beside its registers. -/
def Mach.netPort (m : Mach) (n : Nat) : NetPort :=
  if n = 0 then m.net.p0 else if n = 1 then m.net.p1 else if n = 2 then m.net.p2 else m.net.p3

/-- Whether lane Ln is UP (Table 15-3). -/
def Mach.laneUp (m : Mach) (n : Nat) : Bool := m.get (F.NET_PORT_STATUS_STATE n) == 3

/-- Change the port n beside its registers. -/
def Mach.modPort (m : Mach) (n : Nat) (f : NetPort → NetPort) : Mach :=
  let net := m.net
  { m with net := if n = 0 then { net with p0 := f net.p0 } else if n = 1 then { net with p1 := f net.p1 }
      else if n = 2 then { net with p2 := f net.p2 } else { net with p3 := f net.p3 } }

/-- What a lane's transmitter sends. -/
inductive LaneTx where
  | squelched | training | idles | remoteFault | frames | pattern
deriving DecidableEq, Repr

/-- What lane Ln transmits (Table 15-3): the remote-fault sequence while its receiver has a local fault, and idles, with no frame started, while it receives remote
fault (R352). -/
def Mach.laneTx (m : Mach) (n : Nat) : LaneTx :=
  let st := m.get (F.NET_PORT_STATUS_STATE n)
  if st = 1 then .training
  else if st = 2 ∨ st = 3 ∨ st = 4 then
    (if m.on (F.NET_PORT_STATUS_LF n) then .remoteFault else if st = 3 ∧ !m.on (F.NET_PORT_STATUS_RF_RX n) then .frames else .idles)
  else if st = 5 ∧ m.on (F.NET_PRBS_CTRL_GEN_EN n) then .pattern
  else .squelched

/-- Whether lane Ln starts frames (R352, R356). -/
def Mach.laneSends (m : Mach) (n : Nat) : Bool := m.laneTx n == .frames

/-- Frames that port Pn sends at once (NET.TX_FRAMES). -/
def Mach.txNow (m : Mach) (n k : Nat) : Mach := m.bumpBy (F.NET_TX_FRAMES_COUNT n) k

/-- The tag control word of port Pn's own frames (R359): PCP and VID with TAG_EN = 1. -/
def Mach.tagOf (m : Mach) (n : Nat) : Option Nat :=
  if m.on (F.NET_VLAN_TAG_EN n) then some (m.get (F.NET_VLAN_PCP n) * 2 ^ 13 + m.get (F.NET_VLAN_VID n)) else none

/-- Frames of port Pn's own that leave at once, with its tag: PTP event messages always do, for they are never held (R360) and go before other frames (R23). -/
def Mach.txPtp (m : Mach) (n k : Nat) : Mach :=
  let tag := m.tagOf n
  (m.modPort n fun p => { p with tci := tag }).txNow n k

/-- Whether port Pn may send frames of its own: its lane starts frames and no PAUSE or PFC holds it (R352, R356, R360). -/
def Mach.portFree (m : Mach) (n : Nat) : Bool := m.laneSends n && (m.netPort n).held == 0

/-- Frames of the module's own that port Pn may send: they leave at once, or, where forwarded frames wait for P2 or P3, alternate with those (R23). -/
def Mach.txQueue (m : Mach) (n k : Nat) : Mach :=
  let d := if n = 3 then 0 else 1
  if 2 ≤ n ∧ !(m.net.fwd.ix d).queue.isEmpty then
    let tag := m.tagOf n
    let m := m.modPort n fun p => { p with tci := tag }
    { m with net := { m.net with fwd := m.net.fwd.putIx d { m.net.fwd.ix d with own := (m.net.fwd.ix d).own + k } } }
  else m.txPtp n k

/-- Frames of the module's own on port Pn, with its tag (R359): they wait while the port is held or its lane starts no frame (R352, R360). A
lane that is not UP sends none (R356). -/
def Mach.txFrames (m : Mach) (n k : Nat) : Mach :=
  if !m.laneUp n then m
  else if !m.portFree n then m.modPort n fun p => { p with waiting := p.waiting + k }
  else m.txQueue n k

/-- The own frames of port Pn that waited while it was held leave once it is free. -/
def Mach.txRelease (m : Mach) (n : Nat) : Mach :=
  let k := (m.netPort n).waiting
  if m.portFree n && decide (0 < k) then (m.modPort n fun p => { p with waiting := 0 }).txFrames n k else m

/-- An IPv4 address as an IPv4-mapped IPv6 address. -/
def mapped4 (a : Nat) : BitVec 128 := BitVec.ofNat 128 (0xFFFF00000000 + a % 2 ^ 32)

/-- The IPv4 address of an IPv4-mapped IPv6 address. -/
def unmap4 (a : BitVec 128) : Option Nat := if a.toNat / 2 ^ 32 = 0xFFFF then some (a.toNat % 2 ^ 32) else none

/-- Four words, the first most significant. -/
def word128 (w0 w1 w2 w3 : Nat) : Nat := w0 * 2 ^ 96 + w1 * 2 ^ 64 + w2 * 2 ^ 32 + w3

/-- The IPv6 address of port Pn. -/
def Mach.ip6 (m : Mach) (n : Nat) : Nat :=
  word128 (m.get (F.REC_IP6_ADDR_ADDR n 0)) (m.get (F.REC_IP6_ADDR_ADDR n 1)) (m.get (F.REC_IP6_ADDR_ADDR n 2)) (m.get (F.REC_IP6_ADDR_ADDR n 3))

/-- The IPv6 gateway of port Pn. -/
def Mach.gw6 (m : Mach) (n : Nat) : Nat :=
  word128 (m.get (F.REC_IP6_GW_ADDR n 0)) (m.get (F.REC_IP6_GW_ADDR n 1)) (m.get (F.REC_IP6_GW_ADDR n 2)) (m.get (F.REC_IP6_GW_ADDR n 3))

/-- Whether an address is one that port Pn answers on: set and enabled (R373). -/
def Mach.ownAddr (m : Mach) (n : Nat) (a : BitVec 128) : Bool :=
  (m.on (F.REC_IP_CTRL_IP4_EN n) && a == mapped4 (m.get (F.REC_IP4_ADDR_ADDR n))) || (m.on (F.REC_IP_CTRL_IP6_EN n) && a.toNat == m.ip6 n)

/-- Whether port Pn has an address in use of the family of an address. -/
def Mach.familyUp (m : Mach) (n : Nat) (a : BitVec 128) : Bool :=
  match unmap4 a with
  | some _ => m.on (F.REC_IP_CTRL_IP4_EN n)
  | none => m.on (F.REC_IP_CTRL_IP6_EN n)

/-- Whether two addresses of `w` bits share a prefix of `p` bits. -/
def samePrefix (w p a b : Nat) : Bool := a / 2 ^ (w - p) == b / 2 ^ (w - p)

/-- The neighbour through which port Pn reaches a host: the host within the port's prefix, else the gateway (R373). -/
def Mach.nextHop (m : Mach) (n : Nat) (a : BitVec 128) : BitVec 128 :=
  match unmap4 a with
  | some v =>
    if samePrefix 32 (m.get (F.REC_IP_CTRL_PFX4 n)) v (m.get (F.REC_IP4_ADDR_ADDR n)) then a else mapped4 (m.get (F.REC_IP4_GW_ADDR n))
  | none => if samePrefix 128 (m.get (F.REC_IP_CTRL_PFX6 n)) a.toNat (m.ip6 n) then a else BitVec.ofNat 128 (m.gw6 n)

/-- What a port keeps of a neighbour. -/
def Mach.neighbour (m : Mach) (n : Nat) (a : BitVec 128) : Option Neighbour := m.recs.neighbours.find? fun e => e.port == n && e.addr == a

/-- Keep an entry for a neighbour, in place of an older one. -/
def Mach.putNeighbour (m : Mach) (e : Neighbour) : Mach :=
  { m with recs := { m.recs with neighbours := m.recs.neighbours.filter (fun x => !(x.port == e.port && x.addr == e.addr)) ++ [e] } }

/-- Whether port Pn has resolved the neighbour through which it reaches a host (R373). -/
def Mach.reaches (m : Mach) (n : Nat) (a : BitVec 128) : Bool :=
  match m.neighbour n (m.nextHop n a) with | some e => e.st == .resolved | none => false

/-- `k` frames of port Pn's own for a host (R373): they leave when its neighbour is resolved, and wait for it otherwise; a neighbour that the port does not keep is
asked for by ARP or neighbour solicitation. -/
def Mach.txTo (m : Mach) (n : Nat) (a : BitVec 128) (k : Nat) : Mach :=
  let h := m.nextHop n a
  if !m.laneUp n then m
  else
    match m.neighbour n h with
    | some e => if e.st = .resolved then m.txFrames n k else m.putNeighbour { e with waiting := e.waiting + k }
    | none => (m.putNeighbour ⟨n, h, .asking, m.now, k⟩).txFrames n 1

/-- `k` frames for the host of a slot, on the path in use. -/
def Mach.txSess (m : Mach) (s k : Nat) : Mach := m.txTo (m.get (F.REC_SESS_STATE_PORT s)) (m.slot s).hostAddr k

/-- Whether a slot may write into host memory now: greeted and open, its port free to send, its host's neighbour resolved (R373, R397). -/
def Mach.canSend (m : Mach) (s : Nat) : Bool :=
  let n := m.get (F.REC_SESS_STATE_PORT s)
  m.isOpen s && (m.slot s).greeted && m.portFree n && m.reaches n (m.slot s).hostAddr

/-- The frames of a write of `len` bytes under a path MTU code (Table 16-3): 1,024, 2,048 or 4,096 bytes each. -/
def packets (pmtu len : Nat) : Nat := ceilDiv len (1024 * 2 ^ pmtu)

/-- What sending carries along: the bytes in flight, the streams that wait, the streams, the next place in the order of sending, the frames sent, the writes that
are no records, and all the writes in order. -/
structure SendRun where
  infl    : Nat
  blocked : List Nat
  streams : List Stream
  ord     : Nat
  frames  : Nat
  others  : List OtherSend := []
  writes  : List HostWrite := []

/-- A SKIP marker (R383): 64 bytes with TYPE 0xFF and zeros elsewhere. -/
def skipMarker : List Byte := [0, 0, 0xFF] ++ List.replicate 61 0

/-- The write of a record that stands at count `p` of a stream's ring (R383). -/
def Stream.recWrite (t : Stream) (r : Rec) (p : Nat) : HostWrite := ⟨t.ringVa.toNat + p % 2 ^ t.ringLog2, t.rkey, r.bytes⟩

/-- The write of a stream's producer index: 8 bytes, little-endian (R384). -/
def Stream.indexWrite (t : Stream) (p : Nat) : HostWrite := ⟨t.piVa.toNat, t.rkey, leBytes 8 p⟩

/-- Send one record, or leave it waiting: within WINDOW_KIB (R386) and the room of its ring (R385), a SKIP marker before a record that would cross the
ring's end (R383), the producer index after each 64 KiB (R384). A stream that waits keeps its later records waiting; until AUTH succeeds only the
EVENT stream is written (R382). -/
def sendOne (pmtu window : Nat) (authWait : Bool) (x : SendRun) (r : JRec) : JRec × SendRun :=
  let i := r.body.stream
  let len := r.body.len
  let t := x.streams.getD i { typ := 0 }
  let ring := 2 ^ t.ringLog2
  let skip := decide (ring < t.p % ring + len)
  let p := if skip then (t.p / ring + 1) * ring else t.p
  if x.blocked.contains i || (authWait && i != 0) || ring < p + len - t.ci || window < x.infl + len then (r, { x with blocked := i :: x.blocked })
  else
    let index := decide (65536 ≤ p + len - t.pi)
    let skips := if skip then [(⟨t.ringVa.toNat + t.p % ring, t.rkey, skipMarker⟩ : HostWrite)] else []
    let at_ := x.ord + bit skip
    let t := { t with p := p + len, pi := if index then p + len else t.pi }
    let ends := if index then [t.indexWrite (p + len)] else []
    ({ r with sent := some p, ord := at_ },
     { infl := x.infl + len, blocked := x.blocked, streams := listPut x.streams i t, ord := at_ + 1 + bit index,
       frames := x.frames + bit skip + packets pmtu len + bit index,
       others := x.others ++ skips.map (fun w => ⟨x.ord, some i, w⟩) ++ ends.map (fun w => ⟨at_ + 1, some i, w⟩),
       writes := x.writes ++ skips ++ [t.recWrite r.body p] ++ ends })

/-- Send the unsent records of a journal in order. -/
def sendLoop (pmtu window : Nat) (authWait : Bool) : SendRun → List JRec → List JRec × SendRun
  | x, [] => ([], x)
  | x, r :: rest =>
    let (r', x') := if r.sent.isSome then (r, x) else sendOne pmtu window authWait x r
    let (l, y) := sendLoop pmtu window authWait x' rest
    (r' :: l, y)

/-- Whether a slot's session waits for AUTH (R382). -/
def Mach.authWait (m : Mach) (s : Nat) : Bool := match m.policyOf s with | some p => p.authReq && !(m.slot s).authOk | none => false

/-- Whether a slot has sent what its host has not accepted. -/
def Slot.owed (x : Slot) : Bool := !x.others.isEmpty || x.journal.any fun r => r.sent.isSome

/-- An open session with records to send that does not know its host's neighbour asks for it (R373). -/
def Mach.seek (m : Mach) (s : Nat) : Mach :=
  let x := m.slot s
  if m.isOpen s && x.greeted && (x.journal.any fun r => r.sent.isNone) && (m.neighbour (m.get (F.REC_SESS_STATE_PORT s))
    (m.nextHop (m.get (F.REC_SESS_STATE_PORT s)) x.hostAddr)).isNone then m.txSess s 0 else m

/-- Send what may be sent of a slot. -/
def Mach.trySend (m : Mach) (s : Nat) : Mach :=
  if m.canSend s then
    let x := m.slot s
    let win := match m.policyOf s with | some p => p.windowKib * 1024 | none => 0
    let (j, y) := sendLoop x.pmtu win (m.authWait s) { infl := x.inflight, blocked := [], streams := x.streams, ord := x.sends, frames := 0 } x.journal
    let ackAt := if x.owed then x.ackAt else m.now
    ((m.putSlot s { x with
        journal := j, streams := y.streams, sends := y.ord, others := x.others ++ y.others, psn := (x.psn + y.frames) % 2 ^ 24,
        wrote := (if y.writes.isEmpty then x.wrote else y.writes), ackAt := ackAt }).txSess s y.frames).syncSlot s
  else (m.seek s).syncSlot s

/-- A write into host memory that is no record: one packet, in the order of sending (R384, R399). -/
def Mach.sendOther (m : Mach) (s : Nat) (stream : Option Nat) (w : HostWrite) : Mach :=
  let at_ := m.now
  (m.modSlot s fun x => { x with others := x.others ++ [⟨x.sends, stream, w⟩], sends := x.sends + 1, psn := (x.psn + 1) % 2 ^ 24, wrote := [w],
                                 ackAt := if x.owed then x.ackAt else at_ }).txSess s 1

/-- The producer index of a stream is written when it has moved (R384). -/
def Mach.writeIndex (m : Mach) (s i : Nat) : Mach :=
  let t := (m.slot s).streams.getD i { typ := 0 }
  if m.canSend s && decide (i < (m.slot s).streams.length) && decide (t.pi < t.p) then
    (m.modStream s i fun t => { t with pi := t.p }).sendOther s (some i) (t.indexWrite t.p)
  else m

/-- Produce one draft into every slot that has a stream for it, and send (R396). -/
def Mach.produce (m : Mach) (d : Draft) : Mach :=
  slotNos.foldl (fun m s => if m.producing s then (produceStreams d s m 0 (m.slot s).streams).trySend s else m) m

/-- Queue a draft for the UDP policies that carry it (R400): a policy with UDP set sends while REC.CTRL.UDP_EN is 1. -/
def Mach.udpQueue (m : Mach) (d : Draft) : Mach :=
  if m.on F.REC_CTRL_UDP_EN && (m.pwr.startDone || m.on (F.ESC_STATUS_RUNNING 0) || m.on (F.ESC_STATUS_RUNNING 1)) then
    let ps := (List.range m.boot.policies.length).filter fun i =>
      match m.boot.policies[i]? with | some p => p.udp | none => false
    { m with recs := { m.recs with udpReady := m.recs.udpReady ++ ps.map fun i => (i, d) } }
  else m

/-- Form the oldest draft into the slots (RECORD_PRODUCE). -/
def Mach.produceNext (m : Mach) : Mach :=
  match m.recs.ready with
  | [] => m
  | d :: t => (({ m with recs := { m.recs with ready := t } }).produce d).udpQueue d

/-- Form every waiting draft; `n` bounds the drafts that forming may itself add (JRN_FULL events). -/
def drainReady : Nat → Mach → Mach
  | 0, m => m
  | n + 1, m => if m.recs.ready.isEmpty then m else drainReady n m.produceNext

/-- Form every draft now waiting, and those that forming adds. -/
def Mach.flush (m : Mach) : Mach := drainReady (m.recs.ready.length + 66) m

/-! ### Acceptance and retransmission -/

/-- The places in the order of sending of what a slot has sent and its host has not accepted. -/
def Slot.unaccepted (x : Slot) : List Nat := (x.journal.filterMap fun r => if r.sent.isSome then some r.ord else none) ++ x.others.map (·.ord)

/-- The `n` writes sent first are accepted (RDMA acknowledgement, in the order of sending): their records leave the journal (R396). -/
def Slot.accept (x : Slot) (n : Nat) : Slot :=
  let gone := fun (k : Nat) => decide ((x.unaccepted.filter fun q => decide (q < k)).length < n)
  { x with journal := x.journal.filter fun r => !(r.sent.isSome && gone r.ord), others := x.others.filter fun o => !gone o.ord }

/-- Records of stream `i` whose end is at or below a consumer index count as acknowledged (R385). -/
def dropConsumed (i ci : Nat) (l : List JRec) : List JRec :=
  l.filter fun r => !(r.body.stream == i && (match r.sent with | some p => decide (p + r.body.len ≤ ci) | none => false))

/-- Production resumes once use has fallen to 3/4 of JRN_KIB: a GAP record of REASON 3 begins each stream that missed a record (R396). -/
def gapPayload (reason capId firstSeq lastSeq b0 t0 b1 t1 c n : Nat) : List Byte :=
  leBytes 2 1 ++ leBytes 1 reason ++ leBytes 1 0 ++ leBytes 4 capId ++ leBytes 8 firstSeq ++ leBytes 8 lastSeq ++ leBytes 8 b0 ++
  leBytes 1 t0 ++ leBytes 7 0 ++ leBytes 8 b1 ++ leBytes 1 t1 ++ leBytes 3 0 ++ leBytes 4 c ++ leBytes 4 n ++ leBytes 4 0

/-- Put a GAP record on stream `i` of a slot. -/
def Mach.putGap (m : Mach) (s i epoch : Nat) (part : Bool) (t : Stream) (payload : List Byte) (b tk c n : Nat) : Mach :=
  let d : Draft := { typ := t.typ, port := t.port, epoch := epoch, beat := b, tick := tk, lsb := m.lsbNow, first := c, count := n }
  m.journalize s (m.formRec s i 9 d (bit part) payload)

/-- The GAP records of REASON 3 of the streams from number `i` up, and their pauses cleared. -/
def resumeStreams (s : Nat) : Mach → Nat → List Stream → Mach
  | m, _, [] => m
  | m, i, t :: r =>
    let m := match t.missed with
      | none => m
      | some x =>
        let m := m.putGap s i x.epoch x.part t (gapPayload 3 0 1 0 x.beat0 x.tick0 x.beat1 x.tick1 x.first x.count) x.beat0 x.tick0 x.first x.count
        m.modStream s i fun t => { t with missed := none }
    resumeStreams s m (i + 1) r

/-- JOURNAL_RESUME (R396). -/
def Mach.journalResume (m : Mach) (s : Nat) : Mach :=
  let x := m.slot s
  let quota := match m.policyOf s with | some p => p.jrnKib * 1024 | none => 0
  if (x.paused || x.streams.any fun t => t.missed.isSome) && decide (4 * x.use ≤ 3 * quota) then
    let m := m.modSlot s fun x => { x with paused := false }
    (resumeStreams s m 0 x.streams).trySend s
  else m

/-- Journal records lost with their burst (R320, R346): they leave the journal and a GAP record of REASON 4 takes their place. -/
def Mach.journalLost (m : Mach) (s : Nat) (gone : JRec → Bool) : Mach :=
  let x := m.slot s
  let lost := x.journal.filter gone
  let gapOf (i : Nat) (m : Mach) : Mach :=
    match lost.filter fun r => r.body.stream == i with
    | [] => m
    | r :: rs =>
      let l := rs.getLastD r
      let lo := rs.foldl (fun a q => min a q.body.first) r.body.first
      let hi := rs.foldl (fun a q => max a (q.body.first + q.body.count)) (r.body.first + r.body.count)
      m.putGap s i r.body.epoch (bitOf r.body.flags 0) (x.streams.getD i { typ := r.body.typ })
        (gapPayload 4 0 r.body.seq l.body.seq r.body.beat r.body.tick l.last.1 l.last.2 lo (hi - lo)) r.body.beat r.body.tick lo (hi - lo)
  let m := m.modSlot s fun x => { x with journal := x.journal.filter fun r => !lost.contains r }
  ((List.range 7).foldl (fun m i => gapOf i m) m).trySend s

/-- Re-sends read the journal copies (R320, R345): a record that holds a burst lost in both is replaced by a GAP record. -/
def Mach.readJournal (m : Mach) (s : Nat) (of_ : Nat → Bool) : Mach :=
  let (m, lost) := ((m.slot s).journal.filter fun r => r.sent.isSome && of_ r.body.stream).foldl (fun (x : Mach × List JRec) r =>
    let (m, gone) := x.1.jrnFetch r.pos r.body.len
    (m, if gone then r :: x.2 else x.2)) (m, [])
  if lost.isEmpty then m else m.journalLost s fun r => lost.contains r

/-- A write takes its place in the order of sending. -/
def insertWrite (e : Nat × HostWrite) : List (Nat × HostWrite) → List (Nat × HostWrite)
  | [] => [e]
  | h :: t => if e.1 ≤ h.1 then e :: h :: t else h :: insertWrite e t

/-- The writes of a slot that are sent again, in order: of the records of the streams `of_`, of their producer indices and SKIP markers, and of replies. -/
def Slot.again (x : Slot) (of_ : Nat → Bool) : List (Nat × HostWrite) :=
  let recs := x.journal.filterMap fun r =>
    match r.sent with
    | some p => if of_ r.body.stream then some (r.ord, (x.streams.getD r.body.stream { typ := 0 }).recWrite r.body p) else none
    | none => none
  let rest := (x.others.filter fun o => match o.stream with | some i => of_ i | none => true).map fun o => (o.ord, o.write)
  (recs ++ rest).foldr insertWrite []

/-- Send again, in order, what has been sent on the streams `of_` and is not accepted: every record, producer index and other write, at the positions and with the
bytes of before (R375, R397). -/
def Mach.resendOf (m : Mach) (s : Nat) (of_ : Nat → Bool) : Mach :=
  let m := m.readJournal s of_
  let l := (m.slot s).journal.filter fun r => r.sent.isSome && of_ r.body.stream
  let at_ := m.now
  let again := (m.slot s).again of_
  let m := m.modSlot s fun x => { x with ackAt := at_, wrote := again.map (·.2) }
  (m.bumpBy F.REC_RESEND_CNT_COUNT l.length).txSess s
    (sumNat (l.map fun r => packets (m.slot s).pmtu r.body.len) + (again.length - l.length))

/-- Send again what has been sent and is not accepted; until AUTH succeeds, of the EVENT stream alone (R382). -/
def Mach.resend (m : Mach) (s : Nat) : Mach :=
  let wait := m.authWait s
  m.resendOf s fun i => !wait || i == 0

/-! ### Opening and closing -/

/-- The streams of a policy: stream 0 EVENT, then the data streams in order (Table 16-2). -/
def Policy.slotStreams (p : Policy) : List Stream :=
  { typ := 6 } :: p.streams.map fun t => { typ := t.1, port := t.2.1, opts := t.2.2 }

/-- Open a slot fresh under a policy (R393): S is the present SYS.BOOT_EPOCH; k goes on within one start, and begins at 0 in a new one. -/
def Mach.openFresh (m : Mach) (s pol : Nat) (p : Policy) : Mach :=
  let st := m.get F.SYS_BOOT_EPOCH
  let lk := mapGet (0, 0) m.recs.lastK s
  let x : Slot := { start := st, k := if lk.1 = st then lk.2 else 0, streams := p.slotStreams, holdFlag := m.on F.SYS_STATE_HOLDUP_SHORT }
  ((m.putSlot s x).put (F.REC_SESS_STATE_POLICY s) pol).put (F.REC_CLOSE_REASON s) 0

/-- The most recent power-fail marker of the log (R395): the last entry that is not erased, by time of writing. -/
def lastMarker (l : List (Option Marker)) : Option Marker :=
  l.foldl (fun b x => match b, x with
    | none, y => y
    | some a, some c => if a.bootEpoch < c.bootEpoch ∨ (a.bootEpoch = c.bootEpoch ∧ a.time ≤ c.time) then some c else some a
    | some a, none => some a) none

/-- The beats that a marker entry names for a stream of port `port` (R395): from the entry's oldest beat, whose upper bits are taken from
the port's last launched beat, to that last beat; none for other ports. -/
def markerBeats (mk : Marker) (e : MarkerEntry) (port : Nat) : Nat × Nat :=
  if e.beatWord = 0xFFFFFFFF ∨ e.beatWord / 2 ^ 31 ≠ port then (0, 0)
  else
    let last := if port = 0 then mk.beatA else mk.beatB
    let low := e.beatWord % 2 ^ 31
    let b := last / 2 ^ 31 * 2 ^ 31 + low
    (if last < b then b - 2 ^ 31 else b, last)

/-- A GAP record of REASON 1 at the head of each stream from number `i` up (R395). -/
def gapReason1 (s : Nat) (mk : Marker) (e : MarkerEntry) : Mach → Nat → List Stream → Mach
  | m, _, [] => m
  | m, i, t :: r =>
    let (b0, b1) := markerBeats mk e t.port
    let base := seqBase e.start
    let m := m.putGap s i mk.epoch false t (gapPayload 1 0 (base + e.oldestK) (base + e.nextK - 1) b0 0 b1 0 0 0) b0 0 0 0
    gapReason1 s mk e m (i + 1) r

/-- A GAP record of REASON 2 at the head of each stream from number `i` up: everything below the new base (R395). -/
def gapReason2 (s base : Nat) : Mach → Nat → List Stream → Mach
  | m, _, [] => m
  | m, i, t :: r => gapReason2 s base (m.putGap s i 0 false t (gapPayload 2 0 0 (base - 1) 0 0 0 0 0 0) 0 0 0 0) (i + 1) r

/-- The marker's entry for a slot. -/
def Marker.entryFor (mk : Marker) (s : Nat) : Option MarkerEntry := mk.entries.find? fun e => e.slot == s

/-- Free a slot and discard its journal (R398). -/
def Mach.freeSlot (m : Mach) (s reason : Nat) : Mach :=
  let m := m.putSlot s {}
  let m := ((((m.put (F.REC_SESS_STATE_STATE s) 0).put (F.REC_SESS_STATE_SECURE s) 0).put (F.REC_SESS_STATE_ON_ALT s) 0).put
    (F.REC_SESS_STATE_PORT s) 0).put (F.REC_SESS_STATE_POLICY s) 0
  (m.put (F.REC_CLOSE_REASON s) reason).syncSlot s

/-- An open slot becomes CLOSED_KEPT with a reason; its session is closed (R70, R397, R398). -/
def Mach.keepSlot (m : Mach) (s reason : Nat) : Mach :=
  if m.isOpen s then
    let m := (m.put (F.REC_SESS_STATE_STATE s) 3).put (F.REC_SESS_STATE_SECURE s) 0
    let m := m.modSlot s fun x => { x with authOk := false, authFail := false }
    let m := (m.put (F.REC_CLOSE_REASON s) reason).syncSlot s
    m.emit 13 1 0 (evArg s reason 0)
  else m

/-- A slot that is CONNECTING returns to its previous state (R379, R381, R383). -/
def Mach.unconnect (m : Mach) (s : Nat) : Mach :=
  if m.sessState s == 1 then
    if (m.slot s).prev = 3 then (m.put (F.REC_SESS_STATE_STATE s) 3).syncSlot s else m.freeSlot s 0
  else m

/-- The session's path fails (R397): it moves to the other port when that is UP, where the host has the address of that path, sets MigReq, and sends again; else
the slot becomes CLOSED_KEPT. -/
def Mach.pathFail (m : Mach) (s : Nat) : Mach :=
  if m.isOpen s then
    match m.policyOf s with
    | none => m
    | some p =>
      let onAlt := m.on (F.REC_SESS_STATE_ON_ALT s)
      let other : Option Nat := if onAlt then some p.primary else p.alt
      match other with
      | some n =>
        if m.laneUp n then
          let m := ((m.putB (F.REC_SESS_STATE_ON_ALT s) (!onAlt)).put (F.REC_SESS_STATE_PORT s) n).bump F.REC_FAILOVER_CNT_FAILOVER
          let m := m.modSlot s fun x =>
            { x with tries := 0, migReq := true, hostAddr := if x.hostAlt = 0 then x.hostAddr else x.hostAlt, hostAlt := if x.hostAlt = 0 then 0 else x.hostAddr }
          let m := m.emit 11 4 0 (evArg s 0 0)
          (m.resend s).trySend s
        else m.keepSlot s 1
      | none => m.keepSlot s 1
  else m

/-! ### ATTEST -/

/-- The ATTEST payload (Table 03-6) of a slot, signed by the device key over SHA-256 of bytes 0 to 111 (R57). Its boot epoch
counter is that of the running start (DESIGN CHOICE, log entry 81). -/
def Mach.attestPayload (m : Mach) (slot secVerOtp serial nonce : Nat) : List Byte :=
  let img := m.boot.image
  let dom := match m.policyOf slot with | some p => p.domain | none => 0
  let ts := (m.toDomain dom m.lsbNow).getD (0, 0, 0)
  let b := leBytes 4 1 ++ leBytes 4 (m.get F.SYS_BOOT_EPOCH) ++ leBytes 4 (m.get F.CFG_EPOCH) ++ leBytes 4 (m.get F.CFG_CRC_LAST_CRC) ++
    leBytes 8 ((img.map (·.imgSeq)).getD 0) ++ beBytes 32 ((img.map (·.digest.toNat)).getD 0) ++
    leBytes 2 ((img.map (·.secVer)).getD 0) ++ leBytes 2 secVerOtp ++ leBytes 4 (m.get F.SYS_FW_VER) ++ leBytes 8 m.now ++
    leBytes 8 ts.1 ++ leBytes 4 ts.2.1 ++
    leBytes 4 (m.get F.SYS_STATE_IMAGE_FALLBACK + 2 * m.get F.SYS_STATE_HOLDUP_SHORT + 4 * bit m.commit.crcFault +
      8 * m.get F.CAL_USER_SEL_EN) ++
    leBytes 16 nonce ++ leBytes 8 serial
  b ++ Config.deviceSign (Config.sha256 b)

/-- Draft an ATTEST record for one slot (R59). -/
def Mach.attest (m : Mach) (slot nonce secVerOtp serial : Nat) : Mach :=
  let ep := m.epochOf 4
  m.draft { typ := 10, port := 2, flags := bit ep.2, epoch := ep.1, lsb := m.lsbNow,
            bodies := [m.attestPayload slot secVerOtp serial nonce], slot := some slot }

/-- Draft an ATTEST record for every producing slot that has an ATTEST stream. -/
def Mach.attestAll (m : Mach) (secVerOtp serial : Nat) : Mach :=
  slotNos.foldl (fun m s => if m.producing s && (m.slot s).streams.any (fun t => t.typ == 10) then m.attest s 0 secVerOtp serial else m) m

end Sys2Proof.Machine
end

