-- ==== Sys2Proof/Machine/Train.lean ====
section
/-!
DEFINITION. Machine/Train.lean: the Train (R263 to R268): the arrival queue, local queues, stealing, retirement, results in order; one cycle of
an engine; programs and the master copy (R271, R272).
-/
namespace Sys2Proof.Machine

/-! ### Engines and the pool -/

/-- An engine. -/
def Mach.jewel (m : Mach) (e : Nat) : Jewel := mapGet {} m.train.jewels e

/-- Replace an engine. -/
def Mach.putJewel (m : Mach) (e : Nat) (j : Jewel) : Mach := { m with train := { m.train with jewels := mapPut {} m.train.jewels e j } }

/-- Change an engine. -/
def Mach.modJewel (m : Mach) (e : Nat) (f : Jewel → Jewel) : Mach := m.putJewel e (f (m.jewel e))

/-- The engines' numbers. -/
def engineNos : List Nat := List.range 64

/-- The active pool as a set of bits. -/
def Mach.pool (m : Mach) : Nat := m.get F.TRAIN_POOL_LO_POOL % 2 ^ 32 + 2 ^ 32 * m.get F.TRAIN_POOL_HI_POOL

/-- The retired set (R266). -/
def Mach.retired (m : Mach) : Nat := m.get F.TRAIN_RETIRED_LO_RETIRED % 2 ^ 32 + 2 ^ 32 * m.get F.TRAIN_RETIRED_HI_RETIRED

/-- Whether an engine is in the pool: a retired engine has left every pool (R266). -/
def Mach.inPool (m : Mach) (e : Nat) : Bool := bitOf m.pool e && !bitOf m.retired e

/-- Set or clear an engine's bit of the retired set. -/
def Mach.putRetired (m : Mach) (e : Nat) (b : Bool) : Mach :=
  if e < 32 then m.putBit F.TRAIN_RETIRED_LO_RETIRED e b else m.putBit F.TRAIN_RETIRED_HI_RETIRED (e - 32) b

/-- The tile buffers in use (R263): every tile whose result has not been handed on, but for the skipped ones, which hold none. -/
def Mach.bufUsed (m : Mach) : Nat :=
  m.train.order.a.length + m.train.order.b.length - (m.train.results.filter fun r => r.status == 2).length

/-- Bring TRAIN.STATUS in step. -/
def Mach.syncTrain (m : Mach) : Mach :=
  let act := (engineNos.filter fun e => bitOf m.pool e && !bitOf m.retired e && !(m.jewel e).back).length
  (m.put F.TRAIN_STATUS_ACTIVE act).put F.TRAIN_STATUS_BUF_USED m.bufUsed

/-- Whether (restart, TROW, TCOL) of one tile comes before another's. -/
def tileBefore (a b : TileId) : Bool :=
  decide (a.restart < b.restart) || (a.restart == b.restart && (decide (a.trow < b.trow) || (a.trow == b.trow && decide (a.tcol < b.tcol))))

/-- Whether a tile of a port that comes before another is still on its way to the Train: its row is being formed, or it waits for the arrival queue (R267). -/
def Mach.earlierComing (m : Mach) (p : Port) (id : TileId) : Bool :=
  ((m.train.ready.at p).any fun t => tileBefore t.id id) ||
  (m.acq.at p).rows.any fun r =>
    if r.restart == id.restart && r.trow == id.trow then (List.range id.tcol).any fun c => !r.done.contains c
    else tileBefore ⟨p, r.restart, r.trow, 0⟩ id

/-- Whether an engine may run a tile: it was in the tile's pool, it is not retired and is in service (R263, R266). -/
def Mach.mayRun (m : Mach) (e : Nat) (t : Tile) : Bool := bitOf t.pool e && !bitOf m.retired e && !(m.jewel e).back

/-! ### Queues -/

/-- Insert a tile in its port's order of hand-off (R267). -/
def insertId (t : TileId) : List TileId → List TileId
  | [] => [t]
  | h :: r => if tileBefore t h then t :: h :: r else h :: insertId t r

/-- The next pool engine after the last one, in ascending round-robin order, with a free WAIT position (R264). -/
def Mach.nextEngine (m : Mach) (t : Tile) : Option Nat :=
  ((List.range 64).map fun i => (m.train.rr + i) % 64).find? fun e => m.mayRun e t && decide ((m.jewel e).wait.length < 2)

/-- Move the head of the arrival queue to engines while one has a free WAIT position (R264); `n` bounds the moves. -/
def dispatch : Nat → Mach → Mach
  | 0, m => m
  | n + 1, m =>
    match m.train.arrival with
    | [] => m
    | t :: rest =>
      match m.nextEngine t with
      | none => m
      | some e =>
        let m := { m with train := { m.train with arrival := rest, rr := (e + 1) % 64 } }
        dispatch n (m.modJewel e fun j => { j with wait := j.wait ++ [t] })

/-- Load WAIT0 of an engine into the hidden bank when NEXT is empty (R264). -/
def Jewel.fill (j : Jewel) : Jewel :=
  match j.next, j.wait with
  | none, t :: rest => { j with next := some t, wait := rest }
  | _, _ => j

/-- Load the hidden bank of every engine, then dispatch into the WAIT positions so freed, until no tile moves; `n` bounds the rounds. -/
def settleRounds : Nat → Mach → Mach
  | 0, m => m
  | n + 1, m =>
    let x := dispatch 128 (engineNos.foldl (fun m e => m.modJewel e Jewel.fill) m)
    if x.train.arrival.length < m.train.arrival.length then settleRounds n x else x

/-- Let the queues settle (R264): every round but the last moves a tile, so the arrival queue bounds them. -/
def Mach.settle (m : Mach) : Mach := (settleRounds (m.train.arrival.length + 1) m).syncTrain

/-- TRAIN.CTRL's enable of a port (R263). -/
def Mach.trainEn (m : Mach) (p : Port) : Bool := m.on (match p with | .A => F.TRAIN_CTRL_EN_A | .B => F.TRAIN_CTRL_EN_B)

/-- Whether the port's next completed tile enters the arrival queue before the other port's: tile-end order, on a tie port A (R20, R263). -/
def Mach.arrivalTurn (m : Mach) (p : Port) : Bool :=
  let o := otherPort p
  match (m.train.ready.at p).head?, (m.train.ready.at o).head? with
  | some t, some x => !m.trainEn p || !m.trainEn o || decide (t.timeEnd < x.timeEnd) || (t.timeEnd == x.timeEnd && p == .A)
  | _, _ => true

/-- The engines of the active pool that are in service: a retired engine has left every pool (R263, R266). -/
def Mach.livePool (m : Mach) : Nat := Nat.bitwise (fun a b => a && !b) m.pool m.retired

/-- TILE_ARRIVAL (R20, R263, R268): the port's next completed tile enters the arrival queue with the pool, entry bundle and CYC_MAX in force,
or is SKIPPED when all 768 buffers are in use. A tile of the other port that ends before it enters first. -/
def Mach.tileArrival (m : Mach) (p : Port) : Mach :=
  match m.train.ready.at p with
  | [] => m
  | t :: rest =>
    if !m.arrivalTurn p then m
    else
    let m := { m with train := { m.train with ready := m.train.ready.put p rest } }
    if !m.trainEn p then m
    else
      let used := m.bufUsed
      let t := { t with
        pool := m.livePool
        entry := m.get (match p with | .A => F.TRAIN_ENTRY_ENTRY_A | .B => F.TRAIN_ENTRY_ENTRY_B)
        cycMax := m.get (match p with | .A => F.TRAIN_CYC_MAX_A_CYCLES | .B => F.TRAIN_CYC_MAX_B_CYCLES)
        seq := m.train.seq }
      let m := { m with train := { m.train with seq := m.train.seq + 1, order := m.train.order.put p (insertId t.id (m.train.order.at p)) } }
      if 768 ≤ used then
        let m := { m with train := { m.train with results := m.train.results ++ [(⟨t, 2, 0, []⟩ : TileResult)] } }
        let m := m.bump F.TRAIN_SKIP_CNT_COUNT
        if m.train.overload then m else ({ m with train := { m.train with overload := true } }).emit 9 2 (evPort p) 0
      else ({ m with train := { m.train with arrival := m.train.arrival ++ [t] } }).settle

/-- Every register of Table 11-1 zero, SCRATCH and OUT cleared, the tile's entry bundle next (R244, R264). -/
def Jewel.begin (j : Jewel) (t : Tile) : Jewel :=
  let keepConst (mem : Mem) := mapKeep (fun a => decide (0x4000 ≤ a) && decide (a < 0x6000)) mem
  ({ imem := j.imem, x := keepConst j.x, y := keepConst j.y, wait := j.wait, run := some t, bank := some t, stole := false, back := j.back } : Jewel).enter t.entry

/-- TILE_START (R264): the engine starts its NEXT tile, 300 cycles after its last tile ended. -/
def Mach.tileStart (m : Mach) (e : Nat) : Mach :=
  let j := m.jewel e
  match j.run, j.next with
  | none, some t =>
    let m := match j.idleAt with | some c => m.reach (c + 300) | none => m
    (m.putJewel e (j.begin t)).settle
  | _, _ => m

/-- TILE_STEAL (R265): an engine whose local queue is empty takes the oldest WAIT tile of the engine with the most WAIT tiles, the lowest-
numbered on a tie; a tile moves at most once. -/
def Mach.tileSteal (m : Mach) (e : Nat) : Mach :=
  let j := m.jewel e
  if j.run.isNone && j.next.isNone && j.wait.isEmpty && !j.stole then
    let best := engineNos.foldl (fun b i =>
      if i ≠ e ∧ (m.jewel b).wait.length < (m.jewel i).wait.length then i else b) (if e = 0 then 1 else 0)
    match (m.jewel best).wait with
    | t :: rest =>
      if best ≠ e ∧ !t.moved ∧ m.mayRun e t then
        let m := m.modJewel best fun k => { k with wait := rest }
        let m := m.modJewel e fun k => { k with next := some { t with moved := true }, stole := true }
        (m.bump F.TRAIN_STEAL_CNT_COUNT).settle
      else m
    | [] => m
  else m

/-- Put a tile's result with those that wait to be handed on, and free the engine. -/
def Mach.endTile (m : Mach) (e : Nat) (j : Jewel) (status trap : Nat) (words : List Word) : Mach :=
  match j.run with
  | none => m.putJewel e j
  | some t =>
    let m := m.putJewel e { j with run := none, openB := none, rdreg := none, stole := false, cycles := 0, idleAt := some m.count }
    { m with train := { m.train with results := m.train.results ++ [(⟨t, status, trap, words⟩ : TileResult)] } }

/-- A trap (R258): the tile ends with status TRAP; it is counted, recorded and reported. -/
def Mach.trapTile (m : Mach) (e : Nat) (j : Jewel) (code soft : Nat) : Mach :=
  match j.run with
  | none => m.putJewel e { j with openB := none }
  | some t =>
    let m := m.bump F.TRAIN_TRAP_CNT_COUNT
    let m := (((m.put F.TRAIN_LAST_TRAP_CODE code).put F.TRAIN_LAST_TRAP_SOFT soft).put F.TRAIN_LAST_TRAP_PORT (portIx t.id.port)).put
      F.TRAIN_LAST_TRAP_PC j.pc
    let m := m.put F.TRAIN_LAST_TROW_TROW t.id.trow
    let m := m.emit 9 0 (evPort t.id.port) (evArg e code 0)
    m.endTile e j 1 code []

/-- The result words of a tile: words 0 to n − 1 of OUT (R262). -/
def Jewel.outWords (j : Jewel) (n : Nat) : List Word := (List.range n).map fun i => BitVec.ofNat 32 (j.leAt true (0x1800 + 4 * i) 4)

/-- Issue one bundle on an engine and act on what it leads to (R255 to R258, R262). While an RDREG waits the engine stalls and nothing issues (R257). -/
def Mach.issueOn (m : Mach) (e : Nat) (b : Bundle) : Mach :=
  let j := m.jewel e
  if j.rdreg.isSome then m
  else
  let (k, r) := j.issue b
  let k := { k with openB := none }
  match r with
  | .goOn => m.putJewel e k.advancePc
  | .taken t => m.putJewel e { k.enter t with stall := 1 }
  | .finished n => m.endTile e k 0 0 (k.outWords n)
  | .waitReg d a => m.putJewel e { k with rdreg := some (d, a) }
  | .trapped code soft => m.trapTile e { j with openB := none } code soft

/-- One 1.2 GHz cycle of an engine that runs a tile: a stall passes, or the bundle at pc issues; beyond bundle 1,023 trap IMEM; after CYC_MAX
cycles without DONE trap CYCLES (Table 11-10). -/
def Mach.jewelCycle (m : Mach) (e : Nat) : Mach :=
  let j := m.jewel e
  match j.run with
  | none => m
  | some t =>
    let j := { j with cycles := j.cycles + 1 }
    let m := m.putJewel e j
    let m :=
      if j.rdreg.isSome then m
      else if 0 < j.stall then m.putJewel e { j with stall := j.stall - 1 }
      else if 1023 < j.pc then m.trapTile e j 7 0
      else m.issueOn e (bundleAt j.imem j.pc)
    let j := m.jewel e
    match j.run with
    | some t' => if t'.id = t.id ∧ t.cycMax ≤ j.cycles then m.trapTile e j 5 0 else m
    | none => m

/-- Every engine with a running tile runs one cycle. -/
def Mach.jewelsTick (m : Mach) : Mach := (mapKeys m.train.jewels).foldl (fun m e => m.jewelCycle e) m

/-! ### Retirement and reload -/

/-- Insert a tile by its order of arrival. -/
def insertSeq (t : Tile) : List Tile → List Tile
  | [] => [t]
  | h :: r => if t.seq < h.seq then t :: h :: r else h :: insertSeq t r

/-- Return an engine's RUN, NEXT and WAIT tiles to the head of the arrival queue, in their order of arrival (R266). -/
def Mach.returnTiles (m : Mach) (e : Nat) : Mach :=
  let j := m.jewel e
  let ts := j.run.toList ++ j.next.toList ++ j.wait
  let back := ts.foldl (fun l t => insertSeq t l) []
  let m := m.putJewel e ({ imem := j.imem, x := mapKeep (fun a => decide (0x4000 ≤ a) && decide (a < 0x6000)) j.x,
                           y := mapKeep (fun a => decide (0x4000 ≤ a) && decide (a < 0x6000)) j.y } : Jewel)
  let m := m.bumpBy F.TRAIN_RERUN_CNT_COUNT ts.length
  { m with train := { m.train with arrival := back ++ m.train.arrival } }

/-- Retire an engine (R259, R266): its tiles are re-run, it leaves every pool, ENGINE_RETIRED. -/
def Mach.retire (m : Mach) (e cause : Nat) : Mach :=
  if bitOf m.retired e then m
  else
    let m := (m.returnTiles e).putRetired e true
    (m.emit 9 1 0 (evArg e cause 0)).settle

/-- What the check of an engine's memories or of its issue finds (R259): a single-bit error is corrected and counted; a double-bit error, and 10 µs with
no bundle issued and no wait for RDREG, are engine faults, and the Train retires the engine. -/
def Mach.engineCheck (m : Mach) (e : Nat) (found : EngineCheck) : Mach :=
  match found with
  | .single => m.bump F.TRAIN_ECC_CORR_COUNT
  | .double => m.retire e 0
  | .noIssue => if (m.jewel e).run.isSome && (m.jewel e).rdreg.isNone then m.retire e 0 else m

/-- What a port reset clears of the Train (Table 18-3): the port's tiles, wherever they stand; an engine that runs one stands idle. -/
def Mach.trainClear (m : Mach) (p : Port) : Mach :=
  let mine (t : Tile) : Bool := t.id.port == p
  let m := (mapKeys m.train.jewels).foldl (fun m e =>
    m.modJewel e fun j =>
      let j := { j with next := j.next.filter (!mine ·), wait := j.wait.filter (!mine ·) }
      if j.run.any mine then { j with run := none, openB := none, rdreg := none, stole := false, cycles := 0, idleAt := some m.count } else j) m
  ({ m with train := { m.train with
      ready := m.train.ready.put p [], order := m.train.order.put p [], arrival := m.train.arrival.filter (!mine ·),
      results := m.train.results.filter fun r => !mine r.tile } }).settle

/-- Load an engine's memories from the master copy (R272). -/
def Mach.loadMaster (m : Mach) (e : Nat) : Mach :=
  m.modJewel e fun j => { j with imem := m.train.mImem, x := m.train.mCx, y := m.train.mCy }

/-- An engine reset (R266, R428 boundary): its tiles return to the arrival queue, its retirement bit clears, it is reloaded from the master
copy and serves from the next module boundary. -/
def Mach.engineReset (m : Mach) (e : Nat) : Mach :=
  let m := ((m.returnTiles e).putRetired e false).loadMaster e
  (m.modJewel e fun j => { j with back := true }).settle

/-- The bytes of a memory range as stored. -/
def rangeBytes (mem : Mem) (a n : Nat) : List Byte := memBytes 0 mem a n

/-- The instruction memory and constants of an engine, for the comparison of sub-code 27. -/
def Jewel.program (j : Jewel) : Mem × Mem × Mem :=
  let c (mem : Mem) := mapKeep (fun a => decide (0x4000 ≤ a) && decide (a < 0x6000)) mem
  (j.imem, c j.x, c j.y)

/-- After a commit that passes sub-code 27, the program of the lowest-numbered engine of the new pool becomes the master copy (R272). -/
def Mach.takeMaster (m : Mach) : Mach :=
  match engineNos.find? m.inPool with
  | none => m
  | some e =>
    let (i, x, y) := (m.jewel e).program
    let m := { m with train := { m.train with mImem := i, mCx := x, mCy := y } }
    (m.put F.TRAIN_MASTER_CRC_IMEM (crc32c (rangeBytes i 0 16384))).put F.TRAIN_MASTER_CRC_C_CONST
      (crc32c (rangeBytes x 0x4000 8192 ++ rangeBytes y 0x4000 8192))

/-- At a module boundary: reset engines serve again and TRAIN_OVERLOAD may be issued again (R266, R268). -/
def Mach.trainBoundary (m : Mach) : Mach :=
  let m := (mapKeys m.train.jewels).foldl (fun m e => m.modJewel e fun j => { j with back := false }) m
  ({ m with train := { m.train with overload := false } }).settle

/-! ### The operation commands -/

/-- The compute bundle that an engine's operation commands are filling. -/
def Jewel.open (j : Jewel) : Bundle := j.openB.getD nopBundle

/-- Put one slot's operation into the open bundle; the bundle issues when no further slot follows (log entry 20). -/
def Mach.slotOp (m : Mach) (e : Nat) (f : Bundle → Bundle) (more : Bool) : Mach :=
  let b := f (m.jewel e).open
  if (m.jewel e).rdreg.isSome then m
  else if more then m.modJewel e fun j => { j with openB := some b } else m.issueOn e b

/-- Set a MAC slot of a bundle. -/
def setMac (op : Nat) (o : MacOps) (b : Bundle) : Bundle :=
  match b with
  | .compute m0 m1 u mx my rot =>
    let s : MacSlot := ⟨op, o.acc, o.a, o.b, o.sat⟩
    if o.slot = 0 then .compute s m1 u mx my rot else .compute m0 s u mx my rot
  | b => b

/-- Set the ALU slot of a bundle. -/
def setAlu (u' : AluSlot) (b : Bundle) : Bundle :=
  match b with
  | .compute m0 m1 _ mx my rot => .compute m0 m1 u' mx my rot
  | b => b

/-- Set a memory slot of a bundle. -/
def setMem (op : Nat) (o : MemOps) (b : Bundle) : Bundle :=
  match b with
  | .compute m0 m1 u mx my rot =>
    let s : MemSlot := ⟨op, o.d, o.ptr, o.mode, o.mod⟩
    match o.mem with
    | .X => .compute m0 m1 u s my rot
    | .Y => .compute m0 m1 u mx s rot
  | b => b

/-- Set the ROT bit of a bundle. -/
def setRot (b : Bundle) : Bundle :=
  match b with
  | .compute m0 m1 u mx my _ => .compute m0 m1 u mx my true
  | b => b

/-- An ALU slot with an 8-bit immediate (R249). -/
def immSlot (op dst a k : Nat) : AluSlot := ⟨op, dst, a, k / 8, k % 8⟩

end Sys2Proof.Machine
end

