-- ==== Sys2Proof/Machine/Zones.lean ====
section
/-!
DEFINITION. Machine/Zones.lean: zone tables (R274), the zone unit: accumulators, rows and products (R275 to R279), the overview (R280), and
the hand-off of tile results (R267).
-/
namespace Sys2Proof.Machine

/-! ### Zone tables -/

/-- The base of a port's zone table (R274). -/
def zoneBase (p : Nat) : Nat := 0x0C00000 + 0x10000 * p

/-- NZ of a port's zone table in a bank of settings. -/
def zoneCount (b : List (Nat × Nat)) (p : Nat) : Nat := bankWord b (zoneBase p + 4)

/-- The zones of a port's table in a bank: number, first cell, cell count (Table 12-1). At most 4,096 zones are in use. -/
def zoneList (b : List (Nat × Nat)) (p : Nat) : List (Nat × Nat × Nat) :=
  (List.range (min (zoneCount b p) 4096)).map fun z => (z, bankWord b (zoneBase p + 16 + 8 * z), bankWord b (zoneBase p + 20 + 8 * z))

/-- The segments of a tile column: every zone that covers at least one of its cells, in ascending order, with the part inside (R261). -/
def segments (zs : List (Nat × Nat × Nat)) (tcol cells : Nat) : List (Nat × Nat × Nat) :=
  zs.filterMap fun z =>
    let lo := max z.2.1 (512 * tcol)
    let hi := min (z.2.1 + z.2.2) (512 * tcol + cells)
    if lo < hi then some (z.1, lo - 512 * tcol, hi - lo) else none

/-! ### Tagged words and products -/

/-- A tagged word added to a sum: μ × 2^e in units of 2^-32, ties away from zero (R277). -/
def tagFixed (w : Nat) : Int :=
  let mu := tagMu w
  let e := tagExp w + 32
  if 0 ≤ e then mu * 2 ^ e.toNat else roundAway mu (2 ^ (-e).toNat)

/-- Whether a tagged word drops its segment (R276): non-zero bits [31:24], μ < 0 where it must not be, a magnitude of 2^95 or more. -/
def tagBad (w : Nat) (nonneg : Bool) : Bool :=
  let mu := tagMu w
  let e := tagExp w
  w / 2 ^ 24 != 0 || (nonneg && decide (mu < 0)) ||
  decide (0 ≤ e ∧ 2 ^ 95 ≤ mu.natAbs * 2 ^ e.toNat)

/-- The tagged word nearest to num / den: 16,384 ≤ |μ| ≤ 32,767, ties away from zero, 0 for zero (R278). -/
def nearestTag (num : Int) (den : Nat) : Nat :=
  if num = 0 ∨ den = 0 then 0
  else
    let e0 : Int := ((num.natAbs.log2 : Nat) : Int) - (den.log2 : Nat) - 14
    let atE (e : Int) : Int := if 0 ≤ e then roundAway num (den * (2 : Nat) ^ e.toNat) else roundAway (num * (2 : Int) ^ (-e).toNat) den
    -- log2 num − log2 den is off by at most one below the quotient's own exponent
    let big (e : Int) : Bool := if 0 ≤ e then decide (16384 * den * (2 : Nat) ^ e.toNat ≤ num.natAbs) else decide (16384 * den ≤ num.natAbs * (2 : Nat) ^ (-e).toNat)
    let e := if big e0 then e0 else e0 - 1
    let mu := atE e
    if mu.natAbs = 32768 then (tagged (if mu < 0 then -16384 else 16384) (e + 1)).toNat else (tagged mu e).toNat

/-- The tagged word nearest to √(num / den) (R278). -/
def nearestRoot (num den : Nat) : Nat :=
  if num = 0 ∨ den = 0 then 0
  else
    -- scale by 4^s so that the root has at least 16 bits before the point, then round once
    let s : Nat := 80
    let r := Nat.sqrt (num * 4 ^ s / den)
    let e : Int := (r.log2 : Int) - 14
    let sh := e.toNat
    -- μ = round(√x / 2^(e − s)): the floor of twice the root at that scale decides the rounding
    let t := Nat.sqrt (num * 4 ^ (s + 1) / (den * 4 ^ sh))
    let mu : Nat := (t + 1) / 2
    let ex : Int := e - s
    if mu = 32768 then (tagged 16384 (ex + 1)).toNat else (tagged mu ex).toNat

/-- A product of Table 12-3 by its SRC code (Table 12-9): 0 MEAN, 1 RMS, 2 MIN, 3 MAX, 4 PEAK, 5 N, 8 + b BAND b; tagged words as their
coding, MIN, MAX and N as tagged words of exponent 0 where they fit (comparisons use `productVal`). -/
def product (z : ZAcc) (src : Nat) : Nat :=
  if src = 5 then z.n
  else match z.ext with
  | none => if src = 2 ∨ src = 3 then 0x8000 else 0
  | some (lo, hi) =>
    if src = 0 then nearestTag z.s1 (z.n * 2 ^ 32)
    else if src = 1 then nearestRoot z.s2.toNat (z.n * 2 ^ 32)
    else if src = 2 then codeOf 16 lo
    else if src = 3 then codeOf 16 hi
    else if src = 4 then codeOf 16 (max lo.natAbs hi.natAbs : Nat)
    else nearestTag (z.e.getD (src - 8) 0) (z.n * 2 ^ 32)

/-- The value that a tagged word stands for. -/
def tagRat (w : Nat) : Rat :=
  let e := tagExp w
  if 0 ≤ e then ((tagMu w * 2 ^ e.toNat : Int) : Rat) else mkRat (tagMu w) (2 ^ (-e).toNat)

/-- The exact value of a product, as comparisons take it (R281). -/
def productVal (z : ZAcc) (src : Nat) : Rat :=
  match src with
  | 5 => (z.n : Nat)
  | 2 => match z.ext with | some (lo, _) => (lo : Rat) | none => -32768
  | 3 => match z.ext with | some (_, hi) => (hi : Rat) | none => -32768
  | 4 => match z.ext with | some (lo, hi) => ((max lo.natAbs hi.natAbs : Nat) : Rat) | none => 0
  | _ => tagRat (product z src)

/-- A sum in the signed 128 bits of an accumulator (R277): what it holds of a sum outside them is open (log entry 15). -/
def sum128 (x : Int) : Int := if -(2 ^ 127) ≤ x ∧ x < 2 ^ 127 then x else clampInt (-(2 ^ 127)) (2 ^ 127 - 1) (Config.openSum x)

/-- Add one set of sums to another. -/
def ZAcc.add (x y : ZAcc) : ZAcc :=
  { n := x.n + y.n, s1 := sum128 (x.s1 + y.s1), s2 := sum128 (x.s2 + y.s2)
    e := (List.range (max x.e.length y.e.length)).map fun i => sum128 (x.e.getD i 0 + y.e.getD i 0)
    ext := match x.ext, y.ext with
      | none, b => b
      | a, none => a
      | some (a, b), some (c, d) => some (min a c, max b d)
    inc := x.inc || y.inc, incRows := x.incRows + y.incRows }

/-- The contribution of one segment's words (Table 12-2), none when R276 drops it. -/
def segAcc (nb : Nat) (w : List Word) : Option ZAcc :=
  let x (i : Nat) : Nat := (w.getD i 0).toNat
  let n := x 0
  let bands := (List.range nb).map fun b => x (4 + b)
  if 4096 < n ∨ tagBad (x 1) false ∨ tagBad (x 2) true ∨ (bands.any fun b => tagBad b true) then none
  else
    some { n := n, s1 := tagFixed (x 1), s2 := tagFixed (x 2), e := bands.map tagFixed,
           ext := if n = 0 then none else some (signedOf 16 (x 3), signedOf 16 (x 3 / 65536)) }

/-! ### Records of intervals -/

/-- The zone unit of a port. -/
def Mach.zone (m : Mach) (p : Port) : ZoneUnit := m.zones.at p

/-- Change the zone unit of a port. -/
def Mach.modZone (m : Mach) (p : Port) (f : ZoneUnit → ZoneUnit) : Mach := { m with zones := m.zones.put p (f (m.zones.at p)) }

/-- RANGE_CELLS of a port: the cells of every tick, from its active beat plan (R19, Table 06-1). -/
def Mach.rangeCells (m : Mach) (p : Port) : Nat := m.plan p 12 4

/-- One entry of a DAS-ZONE record (Table 12-4). -/
def zoneEntry (nb : Nat) (z : ZAcc) : List Byte :=
  leBytes 4 z.n ++ leBytes 4 (product z 0) ++ leBytes 4 (product z 1) ++ leBytes 2 (product z 2) ++ leBytes 2 (product z 3) ++
  leBytes 2 (min z.incRows 0xFFFF) ++ leBytes 2 0 ++ ((List.range nb).flatMap fun b => leBytes 4 (product z (8 + b)))

/-- The flags of several ticks together. -/
def joinFlags (l : List Nat) : Nat := l.foldl (· ||| ·) 0

/-- Beat and tick of a tile's last tick. -/
def Tile.lastTick (t : Tile) : Nat × Nat :=
  let n := t.tick0 + t.ticks - 1
  (t.beat + n / max t.nsub 1, n % max t.nsub 1)

/-- A draft that takes its place in time and epoch from the first tick of a tile; `flags` are those of the record's ticks (R16). -/
def tileDraft (t : Tile) (typ flags : Nat) (first count : Nat) (bodies : List (List Byte)) : Draft :=
  { typ := typ, port := portIx t.id.port, flags := bit t.part + flags, epoch := t.epoch, beat := t.beat, tick := t.tick0,
    lsb := t.lsbs.headD 0, first := first, count := count, bodies := bodies, last := some t.lastTick }

/-- Close the zone interval of a port: with Z_EN, one DAS-ZONE record (R279). -/
def Mach.zoneClose (m : Mach) (p : Port) : Mach :=
  let u := m.zone p
  match u.first with
  | none => m
  | some t =>
    let nz := t.set.zones.length
    let body := leBytes 2 1 ++ leBytes 1 t.nb ++ leBytes 1 0 ++ leBytes 4 u.rows ++ leBytes 4 nz ++ leBytes 4 u.firstRow ++
      ((List.range nz).flatMap fun z => zoneEntry t.nb (mapGet {} u.int z))
    let m := if t.set.zEn then m.draft { tileDraft t 2 u.flags 0 t.set.range [body] with last := some u.last } else m
    m.modZone p fun u => { u with int := [], rows := 0, first := none, flags := 0 }

/-- Close the overview interval of a port: with OV_EN, one DAS-OVERVIEW record (R280); an interval with no row yields none. -/
def Mach.overClose (m : Mach) (p : Port) : Mach :=
  let u := m.zone p
  match u.ovFirst with
  | none => m.modZone p fun u => { u with overs := [], ovRows := 0 }
  | some t =>
    let bin := t.set.ovBin
    let nbins := if bin = 0 then 0 else ceilDiv t.set.range bin
    let body := leBytes 2 1 ++ leBytes 1 bin ++ leBytes 1 0 ++ leBytes 4 u.ovRows ++ leBytes 4 nbins ++ leBytes 4 0 ++
      ((List.range nbins).flatMap fun b =>
        let (lo, hi) := mapGet (32768, 32768) u.overs b
        leBytes 2 (codeOf 16 lo) ++ leBytes 2 (codeOf 16 hi))
    let m := if t.set.ovEn then m.draft { tileDraft t 3 u.ovFlags 0 t.set.range [body] with last := some u.ovLast } else m
    m.modZone p fun u => { u with overs := [], ovRows := 0, ovFirst := none, ovFlags := 0 }

/-- The least and greatest valid value of a bin, one more value or bin taken in; (32768, 32768) for none. -/
def joinBin (x y : Int × Int) : Int × Int := if x.1 = 32768 then y else if y.1 = 32768 then x else (min x.1 y.1, max x.2 y.2)

/-- The key of a row's overview bins: its restart of tile counting and its TROW. -/
def ovKey (restart trow : Nat) : Nat := restart * 2 ^ 48 + trow

/-- Take a stage-9 value into the bins of its row (R280): valid values alone. -/
def Mach.overTake (m : Mach) (p : Port) (u : PipeSet) (restart trow cell : Nat) (v : Int) (valid : Bool) : Mach :=
  if u.ovEn && u.ovBin != 0 && valid then
    m.modZone p fun z =>
      let bins := mapGet [] z.ovBins (ovKey restart trow)
      let b := cell / u.ovBin
      { z with ovBins := mapPut [] z.ovBins (ovKey restart trow) (mapPut (32768, 32768) bins b (joinBin (mapGet (32768, 32768) bins b) (v, v))) }
  else m

/-- A row of a port has been formed by the pipe: its bins join the overview interval (R280), which ends before it at a restart of tile counting or once it holds
OV_ROWS rows. -/
def Mach.overRow (m : Mach) (p : Port) (t : Tile) : Mach :=
  let key := ovKey t.id.restart t.id.trow
  if t.set.ovEn then
    let m := match (m.zone p).ovFirst with
      | some f => if f.id.restart ≠ t.id.restart ∨ f.set.ovRows ≤ (m.zone p).ovRows then m.overClose p else m
      | none => m
    m.modZone p fun u => { u with
      ovRows := u.ovRows + 1, ovFirst := some (u.ovFirst.getD t), ovLast := t.lastTick, ovFlags := u.ovFlags ||| joinFlags t.marks
      overs := (mapGet [] u.ovBins key).foldl (fun o e => mapPut (32768, 32768) o e.1 (joinBin (mapGet (32768, 32768) o e.1) e.2)) u.overs
      ovBins := mapPut [] u.ovBins key [] }
  else m.modZone p fun u => { u with ovBins := mapPut [] u.ovBins key [] }

/-! ### Rows -/

/-- Change a trigger channel. -/
def Mach.modChan (m : Mach) (c : Nat) (f : Channel → Channel) : Mach := { m with chans := mapPut {} m.chans c (f (mapGet {} m.chans c)) }

/-- The channels' numbers. -/
def chanNos : List Nat := List.range 32

/-- A zone's row product is complete: it joins the interval's sums and is handed to each enabled channel of the port that watches the zone,
or whose mask range ends with it (R277, R281, R287). -/
def Mach.rowComplete (m : Mach) (p : Port) (t : Tile) (z : Nat) : Mach :=
  let acc := mapGet {} (m.zone p).row z
  let m := if acc.inc then m.bump (F.ZONE_INC_CNT_COUNT (portIx p)) else m
  let m := m.modZone p fun u => { u with int := mapPut {} u.int z ((mapGet {} u.int z).add { acc with inc := false, incRows := bit acc.inc }) }
  let last := t.m0 + t.ticks - 1
  chanNos.foldl (fun m c =>
    if m.on (F.CHR_CH_CTRL_EN c) && m.get (F.CHR_CH_CTRL_PORT c) == portIx p then
      let z0 := m.get (F.CHR_CH_CTRL_ZONE c)
      let z1 := if m.get (F.CHR_CH_CTRL_TYPE c) = 5 then z0 + m.get (F.CHR_CAP_ZCOUNT c) - 1 else z0
      if z1 = z then
        let zs := (List.range (z1 + 1 - z0)).map fun i => (z0 + i, mapGet {} (m.zone p).row (z0 + i))
        m.modChan c fun x => { x with q := x.q ++ [⟨t.acq, t.id.restart, t.id.trow, (m.zone p).rowNo, last, t.timeLast, t.beat + (t.tick0 + t.ticks - 1) / max t.nsub 1,
          (t.tick0 + t.ticks - 1) % max t.nsub 1, max t.nsub 1, zs⟩] }
      else m
    else m) m

/-- Add the segments of a result to the row's accumulators, from segment `s` up; a segment dropped makes the row INCOMPLETE for its zone. -/
def addSegs (p : Port) (k nb : Nat) (words : List Word) (drop : Bool) : Mach → Nat → List (Nat × Nat × Nat) → Mach
  | m, _, [] => m
  | m, s, g :: rest =>
    let c : Option ZAcc := if drop then none else segAcc nb ((words.drop (k * s)).take k)
    let m := if !drop && c.isNone then m.bump (F.ZONE_BADWORD_CNT_COUNT (portIx p)) else m
    let m := m.modZone p fun u =>
      let old := mapGet {} u.row g.1
      let new := match c with | some x => old.add x | none => { old with inc := true }
      { u with row := mapPut {} u.row g.1 new }
    addSegs p k nb words drop m (s + 1) rest

/-- Whether the results of the tile columns from `a` to `b` of the row in progress have been received (R277). -/
def ZoneUnit.has (u : ZoneUnit) (a b : Nat) : Bool := (List.range (b + 1 - a)).all fun i => u.cols.contains (a + i)

/-- The zone unit receives a tile's result (R275 to R277): the row's accumulators, the products that are complete with this column
because every column of theirs has been received, ROW_CNT at the last column of a whole row, and the early end of intervals at a restart of tile counting (R279). -/
def Mach.zoneReceive (m : Mach) (p : Port) (r : TileResult) : Mach :=
  let t := r.tile
  let u := m.zone p
  let m := match u.first with
    | some f => if f.id.restart ≠ t.id.restart ∨ f.acq ≠ t.acq ∨ (f.set.zRows ≤ u.rows ∧ 0 < u.rows) then m.zoneClose p else m
    | none => m
  let m := m.modZone p fun u =>
    let here := u.cur == some (t.id.restart, t.id.trow)
    let u := if here then u else { u with cur := some (t.id.restart, t.id.trow), row := [], cols := [], rowNo := u.rowNo + 1 }
    let u := { u with flags := u.flags ||| joinFlags t.marks, last := t.lastTick, cols := t.id.tcol :: u.cols }
    if u.first.isNone || (!here && u.rows == 0) then { u with first := some t, firstRow := t.id.trow } else u
  let k := 4 + t.nb
  let badLen := r.status = 0 ∧ r.words.length ≠ k * t.segs.length
  let m := if badLen then m.bump (F.ZONE_BADLEN_CNT_COUNT (portIx p)) else m
  let m := addSegs p k t.nb r.words (decide (r.status ≠ 0) || decide badLen) m 0 t.segs
  let range := t.set.range
  let colEnd := 512 * (t.id.tcol + 1)
  let zs := t.set.zones
  let m := t.segs.foldl (fun m g =>
    let (_, z0, zn) := zs.getD g.1 (0, 0, 0)
    if z0 + zn ≤ colEnd ∧ (m.zone p).has (z0 / 512) t.id.tcol then m.rowComplete p t g.1 else m) m
  if range ≤ colEnd ∧ (m.zone p).has 0 t.id.tcol then
    (m.bump (F.ZONE_ROW_CNT_COUNT (portIx p))).modZone p fun u => { u with rows := u.rows + 1 }
  else m

/-- RESULT_HANDOFF (R267): the first tile of the port's order is handed on once its result is there and no earlier tile of the port is still to come. -/
def Mach.resultHandoff (m : Mach) (p : Port) : Mach :=
  match m.train.order.at p with
  | [] => m
  | id :: rest =>
    match m.train.results.find? fun r => r.tile.id == id with
    | none => m
    | some r =>
      if m.earlierComing p id then m
      else
      let m := { m with train := { m.train with order := m.train.order.put p rest, results := m.train.results.filter fun x => x.tile.id != id } }
      let m := m.bump (match p with | .A => F.TRAIN_TILES_A_COUNT | .B => F.TRAIN_TILES_B_COUNT)
      (m.zoneReceive p r).syncTrain

end Sys2Proof.Machine
end

