-- ==== Sys2Proof/Machine/Chrono.lean ====
section
/-!
DEFINITION. Machine/Chrono.lean: trigger channels (R281 to R289), captures and their reading from the Reserve (R290 to R294), and what the
Reserve holds of a port's ticks (R342).
-/
namespace Sys2Proof.Machine

/-! ### What the Reserve holds -/

/-- The blocks of a port's present run of acquisition that the ring holds. -/
def Mach.portBlocks (m : Mach) (p : Port) (acq : Nat) : List Block :=
  m.rsv.blocks.filter fun b => b.tile.id.port == p && b.tile.acq == acq

/-- The tile columns of a port. -/
def Mach.columns (m : Mach) (p : Port) : Nat := ceilDiv (m.rangeCells p) 512

/-- m_old: the first tick of the oldest tile row that the ring holds for every column of that row (R342); none when no row is whole. -/
def Mach.oldest (m : Mach) (p : Port) (acq : Nat) : Option Nat :=
  let bs := m.portBlocks p acq
  bs.foldl (fun o b =>
    let whole := (bs.filter fun c => c.tile.id.restart == b.tile.id.restart && c.tile.id.trow == b.tile.id.trow).length
    if m.columns p ≤ whole then (match o with | none => some b.tile.m0 | some x => some (min x b.tile.m0)) else o) none

/-- How a tick of one column stands in the Reserve: held in a block, not yet entered, or no longer held. -/
inductive Held where
  | block (b : Block)
  | notYet
  | gone
deriving DecidableEq, Repr

/-- Whether a tile is of column `col` of an acquisition and holds tick `t`. -/
def Tile.covers (x : Tile) (acq col t : Nat) : Bool :=
  x.acq == acq && x.id.tcol == col && decide (x.m0 ≤ t) && decide (t < x.m0 + x.ticks)

/-- Whether tick `t` of column `col` of an acquisition is still on its way to the Reserve: not yet launched, its tile not complete, or the tile in the codec. -/
def Mach.tickComing (m : Mach) (p : Port) (acq col t : Nat) : Bool :=
  let a := m.acq.at p
  (a.acqNo == acq && !a.ended && decide (a.m ≤ t)) ||
  (a.launches.any fun l => l.acq == acq && l.m == t &&
    a.rows.any fun r => r.restart == l.restart && r.trow == l.trow && !r.done.contains col) ||
  ((m.codec.queue.at p).any fun x => x.covers acq col t) || m.codec.out.any fun b => b.tile.id.port == p && b.tile.covers acq col t

/-- How tick `t` of column `col` stands among the blocks `bs`: one that the Reserve neither holds nor is still to receive is gone (R293). -/
def Mach.tickIn (m : Mach) (p : Port) (acq : Nat) (bs : List Block) (col t : Nat) : Held :=
  match bs.find? fun b => b.tile.covers acq col t with
  | some b => .block b
  | none => if m.tickComing p acq col t then .notYet else .gone

/-- The tile columns of a cell range c0 … c1 − 1. -/
def colsOf (c0 c1 : Nat) : List Nat := (List.range (ceilDiv c1 512 - c0 / 512)).map fun i => c0 / 512 + i

/-! ### Channels -/

/-- A channel's state of R282 cleared (R284). -/
def Channel.clear (c : Channel) : Channel := { q := c.q, missT := c.missT }

/-- The thresholds and the class of an evaluated value (R281): 0 LOW, 1 MID, 2 HIGH. -/
def classOf (pol : Bool) (thrHi thrLo : Nat) (x : Rat) : Nat :=
  let x := if pol then -x else x
  let hi := if pol then -tagRat thrLo else tagRat thrHi
  let lo := if pol then -tagRat thrHi else tagRat thrLo
  if hi < x then 2 else if x < lo then 0 else 1

/-- The logic of a channel's TYPE on a row of class `cls` (R282): the new state and whether it fires. -/
def chanLogic (typ cond wMin wMax : Nat) (c : Channel) (cls r : Nat) : Channel × Bool :=
  let within (w : Nat) : Bool := decide (wMin ≤ w) && decide (w ≤ wMax)
  let (c', f) :=
    match typ with
    | 0 =>
      if cls = 0 then ({ c with primed := true }, false)
      else if cls = 2 ∧ c.primed then ({ c with primed := false }, true) else (c, false)
    | 1 =>
      if cls = 0 then
        if c.inp then ({ c with inp := false, primed := true }, xor (within (r - c.s)) (cond == 1)) else ({ c with primed := true }, false)
      else if cls = 2 ∧ c.primed ∧ !c.inp then ({ c with s := r, inp := true, primed := false }, false) else (c, false)
    | 2 =>
      if cls = 0 then ({ c with inr := false }, c.inr && !c.hiSeen && within (r - c.s))
      else if c.prev = some 0 then ({ c with s := r, inr := true, hiSeen := cls == 2 }, false)
      else if cls = 2 then ({ c with hiSeen := true }, false) else (c, false)
    | 3 =>
      if cls = (if cond = 0 then 2 else 0) then
        let n := min (c.cnt + 1) 65535
        ({ c with cnt := n }, decide (n = wMax) && decide (c.cnt < wMax))
      else ({ c with cnt := 0 }, false)
    | 4 =>
      if cls = 0 then ({ c with lastLow := r, primed := true }, false)
      else if cls = 2 ∧ c.primed then
        let w := r - c.lastLow
        ({ c with primed := false }, if cond = 0 then decide (w ≤ wMax) else decide (wMin ≤ w))
      else (c, false)
    | _ => (c, false)
  ({ c' with prev := some cls }, f)

/-- Set a channel's STATE: 0 OFF, 1 ARMED, 2 STOPPED, 3 REARM; ARM reads 1 while REARM. -/
def Mach.chanState (m : Mach) (c st : Nat) : Mach := (m.put (F.CHR_CH_STATUS_STATE c) st).putBit F.CHR_ARM c (st == 3)

/-- A write of 1 to a channel's ARM bit (R284). -/
def Mach.chanArm (m : Mach) (c : Nat) : Mach :=
  let st := m.get (F.CHR_CH_STATUS_STATE c)
  if st = 1 ∨ st = 2 then (m.modChan c Channel.clear).chanState c 3 else m

/-- At a start of acquisition or a plan restart, and at a port reset, the port's channels in ARMED or REARM clear their state (R285). -/
def Mach.clearChannels (m : Mach) (p : Port) : Mach :=
  chanNos.foldl (fun m c =>
    let st := m.get (F.CHR_CH_STATUS_STATE c)
    if m.get (F.CHR_CH_CTRL_PORT c) == portIx p && (st == 1 || st == 3) then m.modChan c Channel.clear else m) m

/-- A mask violation that takes no capture issues MASK_VIOL all the same (R285); it has no slot and no capture number, so that the event's are open (log entry
15). -/
def Mach.maskMiss (m : Mach) (p : Port) (c : Nat) : Mach :=
  let k := m.free
  { m with free := k + 2 }.emit2 (14 + portIx p) 1 (evPort p) (evArg c 0 (Config.openValue k % 16)) (Config.openValue (k + 1) % 2 ^ 32)

/-- A missed fire (R284, R285, R289): counted with its reason; the first since the channel's last capture keeps its reason and time and issues TRIG_MISSED. A mask's
fire is a violation whatever becomes of it. -/
def Mach.missFire (m : Mach) (p : Port) (c reason time : Nat) (mask : Bool) : Mach :=
  let m := if mask then m.maskMiss p c else m
  let first := m.get (F.CHR_CH_STATUS_MISSED c) == 0
  let m := m.bump (F.CHR_CH_STATUS_MISSED c)
  let m := m.bump (if reason = 1 then F.CHR_MISS_CNT_REARM else F.CHR_MISS_CNT_NO_SLOT)
  if first then
    let m := (m.put (F.CHR_CH_STATUS_REASON c) reason).modChan c fun x => { x with missT := time }
    m.emit2 (14 + portIx p) 2 (evPort p) (evArg c reason 0) time
  else m

/-- The cause entry of a channel: what its missed fires report, which are then cleared (R289). -/
def Mach.takeCause (m : Mach) (c : Nat) : Mach × CauseEntry :=
  let e : CauseEntry := ⟨c, m.get (F.CHR_CH_STATUS_REASON c), m.get (F.CHR_CH_STATUS_MISSED c),
    if m.get (F.CHR_CH_STATUS_MISSED c) = 0 then 0 else (mapGet {} m.chans c).missT⟩
  let m := (m.put (F.CHR_CH_STATUS_REASON c) 0).put (F.CHR_CH_STATUS_MISSED c) 0
  (m.modChan c fun x => { x with missT := 0 }, e)

/-- The cell range of a cause: its zone span widened by CAP_MARGIN and clipped to the range (R291). -/
def Mach.causeCells (m : Mach) (p : Port) (c z0 z1 : Nat) : Nat × Nat :=
  let zs := zoneList m.regs.act (portIx p)
  let (_, a, _) := zs.getD z0 (0, 0, 0)
  let (_, b, n) := zs.getD z1 (0, 0, 0)
  let mg := m.get (F.CHR_CAP_CAP_MARGIN c)
  (a - mg, min (b + n + mg) (m.rangeCells p))

/-- A capture's window from the PRE and POST of its primary (R290). -/
def Mach.capWindow (m : Mach) (p : Port) (acq mT c : Nat) : Nat × Nat × Nat :=
  let pre := m.get (F.CHR_PRE_TICKS c)
  let old := match m.oldest p acq with | some o => mT - o | none => 0
  (pre, min (min pre mT) old, m.get (F.CHR_POST_TICKS c))

/-- Bring a slot's registers in step with its capture. -/
def Mach.syncCap (m : Mach) (s : Nat) (c : Capture) : Mach :=
  let m := { m with caps := (m.caps.filter fun (e : Nat × Capture) => e.1 != s) ++ [(s, c)] }
  let m := (((m.put (F.CHR_SLOT_BUSY s) 1).put (F.CHR_SLOT_PORT s) (portIx c.port)).put (F.CHR_SLOT_PRIMARY s) c.primary).put
    (F.CHR_SLOT_ID_CAP_ID s) c.capId
  (m.put (F.CHR_SLOT_TICKS_TICKS s) c.total).putBit F.CHR_SLOT_BUSY_BUSY s true

/-- The capture held by a slot. -/
def Mach.capture (m : Mach) (s : Nat) : Option Capture := (m.caps.find? fun e => e.1 == s).map (·.2)

/-- A slot whose capture has been taken in the same row of the same port (R288). -/
def Mach.sameRow (m : Mach) (p : Port) (r : RowProd) : Option (Nat × Capture) :=
  m.caps.find? fun e => e.2.port == p && e.2.acq == r.acq && e.2.restart == r.restart && e.2.row == r.row

/-- A fire of an ARMED channel (R283, R288, R289): it joins the capture of its row, or takes the lowest-numbered free slot, or is missed with
NO_SLOT. `z0` and `z1` are the zone span of the cause, `value` x of the firing row. -/
def Mach.fire (m : Mach) (p : Port) (c : Nat) (r : RowProd) (z0 z1 value : Nat) (mask : Bool) : Mach :=
  let single := m.on (F.CHR_CH_CTRL_MODE c) || mask
  let (c0, c1) := m.causeCells p c z0 z1
  let mz := if mask then z0 else 0xFFFF
  match m.sameRow p r with
  | some (s, cap) =>
    let (m, e) := m.takeCause c
    let prim := min c cap.primary
    let (pre, avail, post) := m.capWindow p r.acq r.mT prim
    let cap := { cap with
      causes := (cap.causes.filter fun x => decide (x.ch < c)) ++ [e] ++ (cap.causes.filter fun x => decide (c < x.ch)),
      primary := prim, preReq := pre, preAvail := avail, post := post, c0 := min c0 cap.c0, c1 := max c1 cap.c1,
      next := r.mT - avail, last := r.mT + post,
      mask := if prim = c then mask else cap.mask,
      maskZone := if prim = c then mz else cap.maskZone,
      value := if prim = c then value else cap.value }
    let m := m.syncCap s cap
    let m := if single then m.chanState c 2 else m
    m.emit2 (14 + portIx p) (if mask then 1 else 0) (evPort p) (evArg c 0 s) cap.capId
  | none =>
    match (List.range 16).find? fun s => (m.capture s).isNone with
    | none => m.missFire p c 2 r.time mask
    | some s =>
      let (m, e) := m.takeCause c
      let (pre, avail, post) := m.capWindow p r.acq r.mT c
      let id := m.get F.CHR_NEXT_ID_CAP_ID
      let cap : Capture :=
      { port := p, capId := id, acq := r.acq, restart := r.restart, row := r.row, mT := r.mT, beat := r.beat, tick := r.tick,
        causes := [e], primary := c, preReq := pre, preAvail := avail, post := post, c0 := c0, c1 := c1, maskZone := mz, mask := mask,
        value := value, next := r.mT - avail, last := r.mT + post, nsub := r.nsub }
      let m := (m.put F.CHR_NEXT_ID_CAP_ID (id + 1)).bump F.CHR_CAP_CNT_COUNT
      let m := m.syncCap s cap
      let m := if single then m.chanState c 2 else m
      m.emit2 (14 + portIx p) (if mask then 1 else 0) (evPort p) (evArg c 0 s) id

/-- The violating zones of a row for a MASK channel (R287): tested entries whose evaluated value lies outside its limits. -/
def Mach.violations (m : Mach) (c : Nat) (r : RowProd) : List (Nat × ZAcc) :=
  let base := 0x0C20000 + 0x10000 * m.get (F.CHR_CH_CTRL_MASK_SEL c)
  let src := m.get (F.CHR_CH_CTRL_SRC c)
  r.zones.filter fun z =>
    let lo := bankWord m.regs.act (base + 16 + 8 * z.1)
    let hi := bankWord m.regs.act (base + 20 + 8 * z.1)
    let x := productVal z.2 src
    !z.2.inc && (decide (0 < z.2.n) || src == 5) && decide (tagRat lo ≤ tagRat hi) && (decide (x < tagRat lo) || decide (tagRat hi < x))

/-- A product as the capture header carries it, tagged (Table 12-5): MIN, MAX, PEAK and N are converted where they are no tagged word. -/
def productTag (z : ZAcc) (src : Nat) : Nat :=
  if src = 5 then nearestTag z.n 1
  else if src = 2 ∨ src = 3 ∨ src = 4 then product z src
  else product z src

/-- CHANNEL_ROW_EVAL (R281 to R289): a channel considers its next completed row. -/
def Mach.chanRow (m : Mach) (c : Nat) : Mach :=
  let x := mapGet {} m.chans c
  match x.q with
  | [] => m
  | r :: rest =>
    let m := m.modChan c fun x => { x with q := rest }
    let st := m.get (F.CHR_CH_STATUS_STATE c)
    let p := ixPort (m.get (F.CHR_CH_CTRL_PORT c))
    if st = 0 ∨ st = 2 then m
    else if m.get (F.CHR_CH_CTRL_TYPE c) = 5 then
      match m.violations c r with
      | [] => m
      | v :: vs =>
        if st = 3 then m.missFire p c 1 r.time true
        else m.fire p c r v.1 (vs.getLastD v).1 (productTag v.2 (m.get (F.CHR_CH_CTRL_SRC c))) true
    else
      let z := (r.zones.headD (0, {})).2
      let src := m.get (F.CHR_CH_CTRL_SRC c)
      let ev := !z.inc && (decide (0 < z.n) || src == 5)
      let cls : Option Nat := if ev then some (classOf (m.on (F.CHR_CH_CTRL_POL c)) (m.get (F.CHR_THR_HI_THR c)) (m.get (F.CHR_THR_LO_THR c)) (productVal z src))
        else x.prev
      match cls with
      | none => m
      | some cls =>
        let y := mapGet {} m.chans c
        let (y', f) := chanLogic (m.get (F.CHR_CH_CTRL_TYPE c)) (m.get (F.CHR_CH_CTRL_COND c)) (m.get (F.CHR_WIDTH_W_MIN c)) (m.get (F.CHR_WIDTH_W_MAX c)) y cls r.no
        let m := m.modChan c fun _ => y'
        if !f then m
        else if st = 3 then m.missFire p c 1 r.time false
        else m.fire p c r (m.get (F.CHR_CH_CTRL_ZONE c)) (m.get (F.CHR_CH_CTRL_ZONE c)) (productTag z src) false

/-- REARM_END (R284). -/
def Mach.rearmEnd (m : Mach) (c : Nat) : Mach := if m.get (F.CHR_CH_STATUS_STATE c) = 3 then m.chanState c 1 else m

/-! ### Captures -/

/-- The record in progress in a form (R389). -/
def Capture.inForm (c : Capture) (f : Nat) : CapRec := match f with | 0 => c.form0 | 1 => c.form1 | _ => c.form1q

/-- Replace the record in progress in a form. -/
def Capture.putForm (c : Capture) (f : Nat) (r : CapRec) : Capture :=
  match f with
  | 0 => { c with form0 := r }
  | 1 => { c with form1 := r }
  | _ => { c with form1q := r }

/-- The capture header and the cause entries (Table 12-5) of a record. -/
def Capture.header (c : Capture) (s : Nat) (r : CapRec) (last : Bool) : List Byte :=
  leBytes 2 1 ++ leBytes 1 s ++ leBytes 1 (portIx c.port) ++ leBytes 4 c.capId ++ leBytes 2 r.part ++
  leBytes 2 (bit (c.preAvail < c.preReq) + 2 * bit c.postShort + 4 * bit (c.gap && last) + 8 * bit last + 16 * bit c.mask + 32 * bit c.split) ++
  leBytes 4 (c.causes.foldl (fun o e => setBit o e.ch true) 0) ++ leBytes 1 c.primary ++ leBytes 1 c.causes.length ++ leBytes 2 0 ++
  leBytes 8 c.beat ++ leBytes 1 c.tick ++ leBytes 3 0 ++ leBytes 4 c.preReq ++ leBytes 4 c.preAvail ++ leBytes 4 c.post ++
  leBytes 4 (codeOf 32 ((r.firstM : Int) - c.mT)) ++ leBytes 4 r.ticks ++ leBytes 2 c.maskZone ++ leBytes 2 0 ++ leBytes 4 c.value ++ leBytes 4 0 ++
  (c.causes.flatMap fun e => leBytes 1 e.ch ++ leBytes 1 e.reason ++ leBytes 2 (min e.missed 0xFFFF) ++ leBytes 4 0 ++ leBytes 8 e.time)

/-- The record in progress of a capture in a form, as it goes to the record engine (R292, R387, R389); one without ticks is stamped with the present. -/
def Mach.capDraft (m : Mach) (s : Nat) (c : Capture) (f : Nat) (last : Bool) : Draft :=
  let r := c.inForm f
  let body := [c.header s r last ++ r.body]
  match r.first with
  | some t =>
    let i := r.firstM - t.m0
    let n := t.tick0 + i
    let z := n + r.ticks - 1
    { tileDraft t 5 r.flags c.c0 (c.c1 - c.c0) body with
      codec := bit (f == 0), form := some f, beat := t.beat + n / max t.nsub 1, tick := n % max t.nsub 1, lsb := t.lsbs.getD i 0
      last := some (t.beat + z / max t.nsub 1, z % max t.nsub 1) }
  | none =>
    let ep := m.epochOf (portIx c.port)
    { typ := 5, port := portIx c.port, codec := bit (f == 0), form := some f, flags := bit ep.2, epoch := ep.1, lsb := m.lsbNow, first := c.c0,
      count := c.c1 - c.c0, bodies := body }

/-- The records in progress that hold ticks go to the record engine, and the next ones begin. -/
def Mach.capFlush (m : Mach) (s : Nat) (c : Capture) : Mach × Capture :=
  [0, 1, 2].foldl (fun x f =>
    if (x.2.inForm f).ticks = 0 then x else (x.1.draft (x.1.capDraft s x.2 f false), x.2.putForm f { part := (x.2.inForm f).part + 1 })) (m, c)

/-- The capture completes: its last records go to the record engine and its slot is free (R289, R292). -/
def Mach.capEnd (m : Mach) (s : Nat) (c : Capture) : Mach :=
  let m := [0, 1, 2].foldl (fun m f => m.draft (m.capDraft s c f true)) m
  let m := { m with caps := m.caps.filter fun e => e.1 != s }
  (m.put (F.CHR_SLOT_BUSY s) 0).putBit F.CHR_SLOT_BUSY_BUSY s false

/-- The epoch and PARTIAL of a tick of an acquisition (R64). -/
def Mach.tickEpoch (m : Mach) (p : Port) (acq t : Nat) : Nat × Bool :=
  match (m.acq.at p).epochs.find? fun e => e.acq == acq && decide (e.m ≤ t) with
  | some e => (e.epoch, e.part)
  | none => m.epochOf (portIx p)

/-- Announce a run of ticks that the Reserve no longer holds, up to tick `b`, when there is one (R293). -/
def Mach.capGap (m : Mach) (s : Nat) (c : Capture) (b : Nat) : Mach × Capture :=
  match c.gapFrom with
  | none => (m, c)
  | some a =>
    let n := max c.nsub 1
    let ep := m.tickEpoch c.port c.acq a
    let d : Draft :=
    { typ := 5, port := portIx c.port, flags := bit ep.2, epoch := ep.1, beat := a / n, tick := a % n, last := some (b / n, b % n), lsb := m.lsbNow,
      first := c.c0, count := c.c1 - c.c0, bodies := [gapPayload 6 c.capId 1 0 (a / n) (a % n) (b / n) (b % n) c.c0 (c.c1 - c.c0)], gap := true }
    let m := (m.draft d).bump F.CHR_GAP_CNT_COUNT
    (m.emit2 (14 + portIx c.port) 3 (evPort c.port) (evArg c.primary 0 s) c.capId, { c with gap := true, gapFrom := none })

/-- The values of one tick of the cell range, and its quality bytes, from the blocks of its columns. -/
def Mach.tickValues (m : Mach) (bs : List Block) (c : Capture) (t : Nat) : List Byte × List Byte :=
  let cells := (List.range (c.c1 - c.c0)).map fun i => c.c0 + i
  let look (cell : Nat) : Nat × Nat :=
    match m.tickIn c.port c.acq bs (cell / 512) t with
    | .block b => (mapGet 0x8000 b.tile.vals (512 * (t - b.tile.m0) + cell % 512), mapGet 0xC0 b.tile.quals (512 * (t - b.tile.m0) + cell % 512))
    | _ => (0x8000, 0xC0)
  ((cells.flatMap fun k => leBytes 2 (look k).1), cells.map fun k => BitVec.ofNat 8 (look k).2)

/-- The oldest beat that the ring holds, of each port (Table 14-7). -/
def Mach.syncOldest (m : Mach) : Mach :=
  let f (m : Mach) (p : Port) (fld : Fld) : Mach :=
    match (m.rsv.blocks.filter fun b => b.tile.id.port == p).getLast? with
    | none => m.put fld 0
    | some l =>
      match m.oldest p l.tile.acq with
      | none => m.put fld 0
      | some o =>
        match (m.portBlocks p l.tile.acq).find? fun b => b.tile.m0 == o with
        | some b => m.put fld b.tile.beat
        | none => m
  f (f m .A F.MC_OLDEST_A_BEAT) .B F.MC_OLDEST_B_BEAT

/-- MAX_REC of CAPTURE (Table 16-6). -/
def captureMax : Nat := 50331648

/-- Whether a fire may yet join the capture of a row (R288): a tile of the row is still on its way to the zone unit, or a channel of the port has yet to consider
the row (R281). Ticks are read once neither holds (DESIGN CHOICE, log entry 83). -/
def Mach.rowWaits (m : Mach) (p : Port) (acq restart row : Nat) : Bool :=
  let here (t : TileId) : Bool := t.restart == restart && t.trow == row
  ((m.acq.at p).rows.any fun r => r.restart == restart && r.trow == row) || ((m.train.ready.at p).any fun t => here t.id) || (m.train.order.at p).any here ||
  chanNos.any fun c => m.get (F.CHR_CH_CTRL_PORT c) == portIx p &&
    (mapGet {} m.chans c).q.any fun r => r.acq == acq && r.restart == restart && r.row == row

/-- The last record of a window, after the gap that it ends with. -/
def Mach.capClose (m : Mach) (s : Nat) (c : Capture) : Mach :=
  let (m, c) := m.capGap s c (c.next - 1)
  m.capEnd s c

/-- A tick joins the record in progress in a form with its bytes; a record that they would take past MAX_REC leaves first (R389). -/
def Mach.capTake (m : Mach) (s : Nat) (c : Capture) (f : Nat) (t : Tile) (piece : List Byte) : Mach × Capture :=
  let r := c.inForm f
  let full := r.ticks != 0 && decide (captureMax < alignUp (128 + 16 * c.causes.length + r.body.length + piece.length) 64)
  let (m, r) := if full then (m.draft (m.capDraft s c f false), { part := r.part + 1 }) else (m, r)
  (m, c.putForm f { r with
    first := some (r.first.getD t), firstM := if r.ticks = 0 then c.next else r.firstM, ticks := r.ticks + 1,
    flags := r.flags ||| t.marks.getD (c.next - t.m0) 0, row := some (t.id.restart, t.id.trow), body := r.body ++ piece })

/-- CAPTURE_TICK_READ (R288, R292, R293, R389): the slot's next window tick is read when every column of its cell range holds it, reading the blocks of its row; a
tick no longer held joins a gap run, as does one whose block shows a UE (R320); a stop of acquisition or a plan restart ends the window at the last tick
taken. In each form a record is handed on when the next tick does not fit in it, before a gap, when the epoch changes, and when the window ends. -/
def Mach.captureRead (m : Mach) (s : Nat) (endAt : Option Nat) : Mach :=
  match m.capture s with
  | none => m
  | some c =>
    if m.rowWaits c.port c.acq c.restart c.row then m
    else
    let bs := m.portBlocks c.port c.acq
    let c := match endAt with
      | some e => if e < c.last then { c with last := e, postShort := true } else c
      | none => c
    if c.last < c.next then m.capClose s c
    else
      let st := (colsOf c.c0 c.c1).map fun k => m.tickIn c.port c.acq bs k c.next
      if st.any fun h => h == .gone then
        let (m, c) := m.capFlush s c
        let c := { c with gapFrom := some (c.gapFrom.getD c.next), next := c.next + 1 }
        if c.last < c.next then m.capClose s c else m.syncCap s c
      else if st.any fun h => h == .notYet then m.syncCap s c
      else
        match m.tickIn c.port c.acq bs (c.c0 / 512) c.next with
        | .block b0 =>
          let t := b0.tile
          let held := if c.form0.row = some (t.id.restart, t.id.trow) then [] else st.filterMap fun h => (match h with | .block b => some b | _ => none)
          let (m, bad) := held.foldl (fun (x : Mach × List Nat) b =>
            let (m, l) := x.1.ringFetch b.pos b.bytes.length
            (m, x.2 ++ l)) (m, [])
          if !bad.isEmpty then
            ((bad.foldl (fun (m : Mach) o => { m with rsv := m.rsv.dropAt o }) m).syncOldest).syncCap s c
          else
          let (m, c) := m.capGap s c (c.next - 1)
          let split := match c.epochSeen with | some e => e != t.epoch | none => false
          let c := { c with split := c.split || split }
          let (m, c) := if split then m.capFlush s c else (m, c)
          let (v, q) := m.tickValues bs c c.next
          let (m, c) := m.capTake s c 0 t (held.flatMap fun b => b.bytes)
          let (m, c) := m.capTake s c 1 t v
          let (m, c) := m.capTake s c 2 t (v ++ q)
          let c := { c with total := c.total + 1, epochSeen := some t.epoch, next := c.next + 1 }
          if c.last < c.next then m.capEnd s c else m.syncCap s c
        | _ => m

/-! ### Captures that end at once (R428, Table 18-2) -/

/-- The last tick of a capture's range that the Reserve holds, if it is one still to be read. -/
def Mach.capHeld (m : Mach) (c : Capture) : Option Nat :=
  let bs := m.portBlocks c.port c.acq
  let ends := (colsOf c.c0 c.c1).map fun k => (bs.filter fun b => b.tile.id.tcol == k).foldl (fun x b => max x (b.tile.m0 + b.tile.ticks)) 0
  let e := ends.foldl min (c.last + 1)
  if c.next < e then some (e - 1) else none

/-- A capture reads what the Reserve holds of its window; `n` bounds the reads. -/
def drainCapture (s : Nat) : Nat → Mach → Mach
  | 0, m => m
  | n + 1, m =>
    match m.capture s with
    | none => m
    | some c => match m.capHeld c with | none => m | some e => drainCapture s n (m.captureRead s (some e))

/-- A capture ends with the ticks that the Reserve holds, POST_SHORT when that is not the whole window. -/
def Mach.capStop (m : Mach) (s : Nat) : Mach :=
  match m.capture s with
  | none => m
  | some c =>
    let m := drainCapture s (2 * (c.last + 1 - c.next)) m
    match m.capture s with
    | none => m
    | some c => m.capClose s { c with postShort := c.postShort || decide (c.next ≤ c.last) }

/-- The channels consider the rows that have completed, `n` of them at most (R281). -/
def drainChannels : Nat → Mach → Mach
  | 0, m => m
  | n + 1, m => drainChannels n (chanNos.foldl (fun m c => m.chanRow c) m)

/-- The capture windows of some ports end. -/
def Mach.endCaptures (m : Mach) (ports : List Port) : Mach :=
  let m := drainChannels (m.chans.foldl (fun n c => max n c.2.q.length) 0) m
  (m.caps.filter fun e => ports.contains e.2.port).foldl (fun m e => m.capStop e.1) m

end Sys2Proof.Machine
end

