-- ==== Sys2Proof/Machine/Codec.lean ====
section
/-!
DEFINITION. Machine/Codec.lean: the cell codec (chapter 13): predictors, groups and the row choice (R302 to R306), the quality plane (R305), the
block (Table 13-1), policies (R307), verification (R308) and the output buffers (R309).
-/
namespace Sys2Proof.Machine

/-! ### Bits -/

/-- The low `n` bits of `v`, most significant first (R302). -/
def bitsMsb : Nat → Nat → List Bool
  | 0, _ => []
  | n + 1, v => bitOf v n :: bitsMsb n v

/-- The number that bits, most significant first, stand for. -/
def ofBits (l : List Bool) : Nat := l.foldl (fun a b => 2 * a + bit b) 0

/-- Bits packed into bytes, most significant first, zero-padded to a whole byte (R302); `n` bounds the bytes. -/
def packBits : Nat → List Bool → List Byte
  | 0, _ => []
  | _, [] => []
  | n + 1, l => BitVec.ofNat 8 (ofBits ((l ++ List.replicate 8 false).take 8)) :: packBits n (l.drop 8)

/-! ### Rows -/

/-- y reduced modulo 2^16 into −32,768 … 32,767. -/
def wrap16 (y : Int) : Int := signedOf 16 (codeOf 16 y)

/-- The prediction of one cell (Table 13-2) from its left, upper and upper-left neighbours. -/
def predict (pred : Nat) (l u ul : Int) : Int :=
  match pred with
  | 1 => l
  | 2 => u
  | 3 => wrap16 (l + u - ul)
  | 4 => (l + u) / 2
  | _ => 0

/-- The residues of a row (R302): `l` and `ul` are the neighbours to the left. -/
def residues (pred : Nat) : Int → Int → List Int → List Int → List Int
  | _, _, [], _ => []
  | l, ul, x :: xs, ups =>
    let u := ups.headD 0
    wrap16 (x - predict pred l u ul) :: residues pred x u xs (ups.drop 1)

/-- The mapping of a residue to u (R303). -/
def mapResidue (r : Int) : Nat := if 0 ≤ r then (2 * r).toNat else (-2 * r - 1).toNat

/-- The bits that one residue costs under K (Table 13-3). -/
def resCost (k u : Nat) : Nat := if k = 15 then 16 else if u / 2 ^ k < 16 then u / 2 ^ k + 1 + k else 32

/-- The bits of one residue under K (Table 13-3). -/
def resBits (k u : Nat) : List Bool :=
  if k = 15 then bitsMsb 16 u
  else
    let q := u / 2 ^ k
    if q < 16 then List.replicate q true ++ [false] ++ bitsMsb k u else List.replicate 16 true ++ bitsMsb 16 u

/-- A group's length under K, without its 4 bits of K. -/
def groupCost (k : Nat) (us : List Nat) : Nat := sumNat (us.map (resCost k))

/-- The K of smallest coded length, the smallest on a tie (R306). -/
def bestK (us : List Nat) : Nat := (List.range 16).foldl (fun b k => if groupCost k us < groupCost b us then k else b) 0

/-- Groups of 16 cells; `n` bounds the groups (R303). -/
def groups : Nat → List Nat → List (List Nat)
  | 0, _ => []
  | _, [] => []
  | n + 1, l => l.take 16 :: groups n (l.drop 16)

/-- The coded length of a row's residues, with its 6-bit header (R306). -/
def rowCost (us : List Nat) : Nat := 6 + sumNat ((groups us.length us).map fun g => 4 + groupCost (bestK g) g)

/-- The coded groups of a row. -/
def rowBits (us : List Nat) : List Bool :=
  (groups us.length us).flatMap fun g => bitsMsb 4 (bestK g) ++ g.flatMap (resBits (bestK g))

/-- The candidates of row `t` in the order of R306: ZERO, LEFT, then UP, PLANE and AVG for each DIST. -/
def candidates (effort t : Nat) : List (Nat × Nat) :=
  [(0, 0), (1, 0)] ++ (List.range (min effort t)).flatMap fun d => [(2, d + 1), (3, d + 1), (4, d + 1)]

/-- The mapped residues of a row under a candidate; `above` holds the earlier rows, the latest first. -/
def candRes (x : List Int) (above : List (List Int)) (c : Nat × Nat) : List Nat :=
  (residues c.1 0 0 x (if c.2 = 0 then [] else above.getD (c.2 - 1) [])).map mapResidue

/-- The shortest candidate of a row, the earliest on a tie (R306). -/
def bestCand (x : List Int) (above : List (List Int)) (effort : Nat) : Nat × Nat :=
  (candidates effort above.length).foldl (fun b c =>
    if rowCost (candRes x above c) < rowCost (candRes x above b) then c else b) (0, 0)

/-- The bits of a row and whether it is a RAWROW (R302, R306). -/
def codeRow (x : List Int) (above : List (List Int)) (effort policy : Nat) : List Bool × Bool :=
  let c := bestCand x above effort
  let us := candRes x above c
  if policy = 1 ∧ 6 + 16 * x.length < rowCost us
  then (bitsMsb 3 5 ++ bitsMsb 3 0 ++ x.flatMap fun v => bitsMsb 16 (codeOf 16 v), true)
  else (bitsMsb 3 c.1 ++ bitsMsb 3 c.2 ++ rowBits us, false)

/-- The bit string of a value plane and its RAWROW rows. -/
def codeRows (effort policy : Nat) : List (List Int) → List (List Int) → List Bool × Nat
  | _, [] => ([], 0)
  | above, x :: rest =>
    let (b, r) := codeRow x above effort policy
    let (bs, n) := codeRows effort policy (x :: above) rest
    (b ++ bs, n + bit r)

/-! ### Planes -/

/-- The values of a tile by tick (R246: an unlisted position holds 0x8000). -/
def Tile.rows (t : Tile) : List (List Int) :=
  (List.range t.ticks).map fun k => (List.range t.cells).map fun c => signedOf 16 (mapGet 0x8000 t.vals (512 * k + c))

/-- The quality bytes of a tile in the order of R301. -/
def Tile.qualBytes (t : Tile) : List Nat :=
  (List.range t.ticks).flatMap fun k => (List.range t.cells).map fun c => mapGet 0xC0 t.quals (512 * k + c)

/-- A raw value plane (R301). -/
def rawValues (t : Tile) : List Byte := t.rows.flatMap fun r => r.flatMap fun v => leBytes 2 (codeOf 16 v)

/-- Runs of zero residues coded as the fewest pairs (R305): `z` zeros are pending. -/
def codeQual : Nat → List Nat → List Byte
  | z, [] => if z = 0 then [] else [0, BitVec.ofNat 8 (z - 1)]
  | z, e :: t =>
    if e = 0 then (if z = 256 then [0, 255] ++ codeQual 1 t else codeQual (z + 1) t)
    else (if z = 0 then [] else [0, BitVec.ofNat 8 (z - 1)]) ++ BitVec.ofNat 8 e :: codeQual 0 t

/-- The quality plane and whether it is raw (R305). -/
def qualPlane (t : Tile) : List Byte × Bool :=
  let q := t.qualBytes
  let e := (q.zip (List.replicate t.cells 0 ++ q)).map fun x => x.1 ^^^ x.2
  let c := codeQual 0 e
  if t.cells * t.ticks < c.length then (q.map (BitVec.ofNat 8), true) else (c, false)

/-- The raw quality plane. -/
def rawQual (t : Tile) : List Byte := t.qualBytes.map (BitVec.ofNat 8)

/-! ### Blocks -/

/-- The fields of CODEC.CTRL that a tile carries (Table 13-6). -/
def Tile.codecEn (t : Tile) : Bool := bitOf t.codec 0

/-- QUAL of the tile's epoch. -/
def Tile.codecQual (t : Tile) : Bool := bitOf t.codec 1

/-- POLICY of the tile's epoch. -/
def Tile.codecPolicy (t : Tile) : Nat := t.codec / 4 % 2

/-- EFFORT of the tile's epoch. -/
def Tile.codecEffort (t : Tile) : Nat := t.codec / 16 % 8

/-- A block from its flags and planes (R300, Table 13-1), with zero bytes to a multiple of 8. -/
def blockBytes (t : Tile) (flags : Nat) (v q : List Byte) : List Byte :=
  let h := leBytes 2 1 ++ leBytes 1 (portIx t.id.port) ++ leBytes 1 flags ++ leBytes 2 t.cells ++ leBytes 1 t.ticks ++
    leBytes 1 t.codecEffort ++ leBytes 4 t.id.trow ++ leBytes 2 t.id.tcol ++ leBytes 2 0 ++ leBytes 4 t.epoch ++
    leBytes 4 v.length ++ leBytes 4 q.length
  let n := 32 + v.length + q.length
  h ++ leBytes 4 (crc32c (h ++ v ++ q)) ++ v ++ q ++ List.replicate (alignUp n 8 - n) 0

/-- What coding a tile gives: flags, planes, RAWROW rows. -/
structure Coded where
  flags : Nat
  v     : List Byte
  q     : List Byte
  rawRows : Nat
deriving DecidableEq, Repr

/-- A block with both planes raw: with `fail`, the rebuilt block of R308. -/
def rawCoded (t : Tile) (fail : Bool) : Coded :=
  { flags := 1 + (if t.codecQual then 2 + 4 else 0) + (if fail then 16 else 0), v := rawValues t,
    q := if t.codecQual then rawQual t else [], rawRows := 0 }

/-- Code a tile under its settings (R305 to R307). -/
def Tile.code (t : Tile) : Coded :=
  if !t.codecEn then rawCoded t false
  else
    let (bits, n) := codeRows t.codecEffort t.codecPolicy [] t.rows
    let v := packBits bits.length bits
    let incomp := t.codecPolicy = 0 ∧ 2 * t.cells * t.ticks < v.length
    let (q, qraw) := if t.codecQual then qualPlane t else ([], false)
    { flags := (if incomp then 1 + 8 else 0) + (if qraw then 2 else 0) + (if t.codecQual then 4 else 0) + (if !incomp && n != 0 then 32 else 0),
      v := if incomp then rawValues t else v, q := q, rawRows := if incomp then 0 else n }

/-! ### The output buffers -/

/-- Output buffers in use (R309): a buffer is free once its contents have been written to the Reserve. -/
def Codec.used (c : Codec) : Nat := if c.wr = c.rd then 0 else ceilDiv c.wr 4096 - c.rd / 4096

/-- Bring CODEC.STATUS.POOL_FREE in step. -/
def Mach.syncPool (m : Mach) : Mach := m.put F.CODEC_STATUS_POOL_FREE (512 - m.codec.used)

/-- Whether `n` more bytes find buffers in the pool. -/
def Codec.fits (c : Codec) (n : Nat) : Bool :=
  if c.wr = c.rd then decide (ceilDiv n 4096 ≤ 512) else decide (ceilDiv (c.wr + n) 4096 - c.rd / 4096 ≤ 512)

/-- Change the codec. -/
def Mach.modCodec (m : Mach) (f : Codec → Codec) : Mach := { m with codec := f m.codec }

/-- The draft of a tile's DAS-CELL record: its block as stored, and without its quality plane for Q_DROP (R389). -/
def cellDraft (t : Tile) (full noQual : List Byte) : Draft :=
  { tileDraft t 1 (joinFlags t.marks) (512 * t.id.tcol) t.cells [full, noQual] with codec := 1 }

/-- Whether the port's first tile is the next of the two ports' in the order of R20: by tile end, port A first on a tie (R309). -/
def Mach.codecTurn (m : Mach) (p : Port) : Bool :=
  match (m.codec.queue.at p).head?, (m.codec.queue.at (otherPort p)).head? with
  | some t, some o => decide (t.timeEnd < o.timeEnd) || (t.timeEnd == o.timeEnd && p == .A)
  | _, none => true
  | none, some _ => false

/-- CODEC_BLOCK (R299 to R309): the port's next tile is coded, verified and placed in the output buffers, or dropped when the pool has no
buffer for it. `verifyFails` says that the second decoder's result differed. -/
def Mach.codecBlock (m : Mach) (p : Port) (verifyFails : Bool) : Mach :=
  match m.codec.queue.at p with
  | [] => m
  | t :: rest =>
    if !m.codecTurn p then m
    else
    let i := portIx p
    let m := m.modCodec fun c => { c with queue := c.queue.put p rest }
    let first := t.code
    let fail := verifyFails && t.codecEn
    let c := if fail then rawCoded t true else first
    let bytes := blockBytes t c.flags c.v c.q
    if !m.codec.fits (blockBytes t first.flags first.v first.q).length || !m.codec.fits bytes.length then
      let m := m.bump F.CODEC_DROP_CNT_COUNT
      let b1 := t.beat + (t.tick0 + t.ticks - 1) / max t.nsub 1
      let gap := gapPayload 5 0 1 0 t.beat t.tick0 b1 ((t.tick0 + t.ticks - 1) % max t.nsub 1) (512 * t.id.tcol) t.cells
      let m := m.draft { tileDraft t 1 0 (512 * t.id.tcol) t.cells [gap] with lsb := m.lsbNow, gap := true }
      if m.codec.dropped then m else (m.modCodec fun c => { c with dropped := true }).emit 10 13 (evPort p) 0
    else
      let m := m.bump (F.CODEC_BLOCKS_COUNT i)
      let m := m.bumpBy (F.CODEC_IN_BYTES_BYTES i) (2 * t.cells * t.ticks + (if t.codecQual then t.cells * t.ticks else 0))
      let m := m.modCodec fun c =>
        let (wr, rd) := if c.wr = c.rd then (0, 0) else (c.wr, c.rd)
        { c with wr := wr + bytes.length, rd := rd, out := c.out ++ [{ tile := t, bytes := bytes }],
                 outBytes := c.outBytes.put p (min (c.outBytes.at p + bytes.length) (2 ^ 32 - 1)) }
      let m := m.syncPool
      let m := m.bumpBy (F.CODEC_ROWRAW_CNT_COUNT i) c.rawRows
      let m := if bitOf c.flags 3 then
          let m := m.bump (F.CODEC_INCOMP_CNT_COUNT i)
          if m.codec.incomp then m else (m.modCodec fun c => { c with incomp := true }).emit 10 11 (evPort p) 0
        else m
      let m := if fail then
          let m := m.bump F.CODEC_VERIFY_CNT_COUNT
          let m := ((m.put F.CODEC_LAST_VFAIL_PORT i).put F.CODEC_LAST_VFAIL_TCOL t.id.tcol).put F.CODEC_LAST_VFAIL_TROW t.id.trow
          m.emit 10 12 (evPort p) 0
        else m
      m.draft (cellDraft t bytes (blockBytes t (c.flags - (if bitOf c.flags 1 then 2 else 0) - (if bitOf c.flags 2 then 4 else 0)) c.v []))

/-- At a module boundary CODEC_INCOMP and CODEC_DROP may be issued again (R307, R309). -/
def Mach.codecBoundary (m : Mach) : Mach := m.modCodec fun c => { c with incomp := false, dropped := false }

/-- Blocks waiting in the buffers leave for the Reserve: the oldest block and the bytes it frees. -/
def Mach.codecTake (m : Mach) : Option (Block × Mach) :=
  match m.codec.out with
  | [] => none
  | b :: rest => some (b, (m.modCodec fun c =>
      let rd := c.rd + b.bytes.length
      if rd = c.wr then { c with out := rest, wr := 0, rd := 0 } else { c with out := rest, rd := rd }).syncPool)

end Sys2Proof.Machine
end

