-- ==== Sys2Proof/Machine/Dram.lean ====
section
/-!
DEFINITION. Machine/Dram.lean: the DRAM channels and the Reserve (chapter 14): training (R317), errors (R320 to R322), activate counting (R325 to
R327), migration (R328 to R331), freeze (R332 to R335), self-refresh (R336, R338), layout (R339, R340), the ring (R342, R343), the journal's copies
(R345, R346); and the SAFE state's entry (R48).
-/
namespace Sys2Proof.Machine

/-! ### SAFE -/

/-- Enter the SAFE state (R48): ports that acquire end acquisition at their next t_B (BEAT_BOUNDARY). -/
def Mach.enterSafe (m : Mach) (reason : Nat) : Mach :=
  if m.get F.SYS_STATE_MODE = 2 then m
  else ((m.put F.SYS_STATE_MODE 2).put F.SYS_STATE_SAFE_REASON reason).emit 3 2 0 (evArg 0 reason 0)

/-- Free every slot: a reset or fault has lost the journal (R398, Table 18-10). -/
def Mach.freeAll (m : Mach) : Mach := slotNos.foldl (fun m s => if m.sessState s = 0 then m else m.freeSlot s 0) m

/-! ### Channels -/

/-- Bring SYS.MEM in step (Table 04-10). -/
def Mach.syncMem (m : Mach) : Mach :=
  let m := (m.putB F.SYS_MEM_MC0_PRESENT (m.mcState 0 == 2)).putB F.SYS_MEM_MC1_PRESENT (m.mcState 1 == 2)
  (m.putB F.SYS_MEM_MC0_FROZEN (m.mcState 0 == 3)).putB F.SYS_MEM_MC1_FROZEN (m.mcState 1 == 3)

/-- What training finds: the DIMMs in use with whether slot 1 was dropped, or the ABSENT reason (R315, R317). A slot 1 whose SPD does not
answer is not fitted. -/
def trainResult (d0 d1 : Dimm) (timeout : Bool) : Except Nat (List Dimm × Bool) :=
  if !d0.answers then .error 1
  else if !d0.supported || d0.speed == 0 || decide (4 < d0.ranks) || d0.ranks == 0 then .error 2
  else if !d0.pmicGood then .error 3
  else if !d0.trains then .error 4
  else if timeout then .error 5
  else if !d1.answers then .ok ([d0], false)
  else if !d1.supported || d1.speed == 0 || d1.ranks == 0 || !d1.pmicGood || !d1.trains ||
      d0.ranks != d1.ranks || d0.width != d1.width || d0.density != d1.density then .ok ([d0], true)
  else if 2 < d0.ranks then .error 2
  else .ok ([d0, d1], false)

/-- The rank map after training (R317, R328): ranks absent or active, the designated spare when it is valid. -/
def Mach.freshRanks (m : Mach) (ch : Nat) : Mach :=
  let rs := rankNos (m.mc ch).dimms
  let en := m.on (F.MC_SPARE_EN ch)
  let sp := m.get (F.MC_SPARE_RANK ch)
  let good := en && rs.contains sp && decide (1 < rs.length)
  let m := [0, 1, 2, 3].foldl (fun m r =>
    (m.put (F.MC_RANK_STATE_STATE ch r) (if !rs.contains r then 0 else if good && r == sp then 2 else 1)).put (F.MC_RANK_STATE_SERVES ch r) 0) m
  ((m.putB (F.MC_STATUS_SPARE_BAD ch) (en && !good)).putB (F.MC_STATUS_SPARE_AVAIL ch) good).putB (F.MC_STATUS_MIGRATING ch) false

/-- The designation of a spare by the image in force on a channel that kept its rank map (R328): one that names an absent rank, or the only rank, is ignored. -/
def Mach.checkSpare (m : Mach) (ch : Nat) : Mach :=
  let rs := rankNos (m.mc ch).dimms
  if m.mcState ch ≠ 2 then m
  else m.putB (F.MC_STATUS_SPARE_BAD ch) (m.on (F.MC_SPARE_EN ch) && !(rs.contains (m.get (F.MC_SPARE_RANK ch)) && decide (1 < rs.length)))

/-- The used capacity of a channel, spare excluded, GiB: at most 128 (R313, Table 14-7). -/
def Mach.usedGiB (m : Mach) (ch : Nat) : Nat :=
  let c := m.mc ch
  let rs := (rankNos c.dimms).filter fun r => m.spareRank ch != some r
  min 128 (sumNat (rs.map c.rankGiB))

/-- A channel ends training (R317). -/
def Mach.trained (m : Mach) (ch : Nat) (d0 d1 : Dimm) (timeout : Bool) (crc : Word) : Mach :=
  if m.mcState ch ≠ 1 then m
  else
    let m := if timeout then m.reachNs (m.pwr.tS + 2450000000) else m
    let now := m.now
    match trainResult d0 d1 timeout with
    | .error r =>
      let m := (m.put (F.MC_STATUS_STATE ch) 0).put (F.MC_STATUS_REASON ch) r
      (m.syncMem).emit 10 5 0 (evArg 0 r ch)
    | .ok (ds, dropped) =>
      let m := m.modMc ch fun c => { c with
        dimms := ds, trainCrc := crc, act := [], winStart := now, refBase := now, scrubT := none, refreshed := [], errs := [], poison := [], written := [], scrubAt := 0, parTimes := [], alerts := 0 }
      let top := (ds.map (·.speed)).foldl min (m.get (F.MC_TRAIN_CTRL_MAXSPEED ch))
      let m := ((m.put (F.MC_STATUS_STATE ch) 2).put (F.MC_STATUS_REASON ch) 0).put (F.MC_STATUS_SPEED ch) top
      let m := m.putB (F.MC_STATUS_DIMM1_DROPPED ch) dropped
      -- the rank map is in the AO domain: a map that outlasted the reset stays in force (Table 18-3)
      let m := if (rankNos ds).any (fun r => m.rankState ch r == 0) || ([0, 1, 2, 3].all fun r => m.rankState ch r == 0) then m.freshRanks ch else m.checkSpare ch
      let d := ds.headD d0
      let m := (((m.put (F.MC_ORG_DENSITY ch) d.density).put (F.MC_ORG_WIDTH ch) d.width).put (F.MC_ORG_RANKS ch) (rankNos ds).length).put
        (F.MC_ORG_DIMMS ch) ds.length
      let m := (m.put (F.MC_ORG_CAP_GIB ch) (m.usedGiB ch)).syncMem
      let m := { m with pwr := { m.pwr with trained := m.pwr.trained.putIx ch true } }
      if dropped then m.emit 10 6 0 (evArg 0 0 ch) else m

/-! ### Refresh -/

/-- NEIGHBOUR_REFRESH (R327); a retired rank is never accessed (R329). -/
def Mach.neighbourRefresh (m : Mach) (ch rank sub bank row : Nat) : Mach :=
  let key := bankKey rank sub bank
  if m.mcRuns ch ∧ m.rankState ch rank ≠ 4 ∧ m.rowHot ch key row then m.neighbours ch key row else m

/-- The refresh interval of a rank, ns: halved above 85 °C (R324). -/
def refreshNs (hot : Bool) : Nat := if hot then 1950 else 3900

/-- DRAM_REFRESH (R324): each rank of a present channel, the spare and a retired one among them, receives an all-bank refresh every 3.9 µs, or 1.95 µs above 85 °C.
The command comes when the next one is due; of those due by then, at most four have been postponed for a burst sequence, and they are issued back to back. -/
def Mach.refresh (m : Mach) (ch rank : Nat) (hot : Bool) : Mach :=
  if m.mcRuns ch && m.rankState ch rank != 0 then
    let r := mapGet {} (m.mc ch).refreshed rank
    let t := refreshNs hot
    let from_ := max r.last (m.mc ch).refBase
    let m := m.reachNs (from_ + t)
    let due := (m.now - from_) / t
    m.modMc ch fun c => { c with refreshed := mapPut {} c.refreshed rank ⟨from_ + due * t, hot, min 4 (due - 1)⟩ }
  else m

/-- The refresh window of a channel, ns: 32 ms, 16 ms above 85 °C (R324). -/
def MemChan.windowNs (c : MemChan) : Nat := if c.refreshed.any fun r => r.2.hot then 16000000 else 32000000

/-- REFRESH_WINDOW_END (R324, R325): the window ends and every count is cleared. -/
def Mach.windowEnd (m : Mach) (ch : Nat) : Mach :=
  if m.mcRuns ch then
    let m := m.reachNs ((m.mc ch).winStart + (m.mc ch).windowNs)
    let now := m.now
    m.modMc ch fun c => { c with act := [], winStart := now }
  else m

/-! ### Migration -/

/-- A write of MIGRATE with KEY 0x5AFE and GO (R329). -/
def Mach.migrateWrite (m : Mach) (ch w : Nat) : Mach :=
  if bitsOf w 31 16 = 0x5AFE ∧ bitOf w 2 ∧ m.mcRuns ch then m.migRequest ch (w % 4) 2 else m

/-- Errors that have come to the arrays of a channel stand there (R319). -/
def Mach.errsCome (m : Mach) (ch : Nat) (errs : List MemErr) : Mach :=
  m.modMc ch fun c => { c with errs := errs.foldl (fun l e => mapPut {} l e.addr e.err) c.errs }

/-- Insert a burst by its offset in the rank. -/
def insertBurst (x : Nat × Nat) : List (Nat × Nat) → List (Nat × Nat)
  | [] => [x]
  | h :: t => if x.2 ≤ h.2 then x :: h :: t else h :: insertBurst x t

/-- The written bursts of rank `s` from offset `start` to `stop`, in ascending offset: each by its address on the channel and its offset in the rank. -/
def Mach.rankBursts (m : Mach) (ch s start stop : Nat) : List (Nat × Nat) :=
  let all := (m.mc ch).written.flatMap fun g => (List.range (segBytes / 64)).filterMap fun i =>
    let a := g * segBytes + 64 * i
    let x := m.rankAt ch a
    if x.1 = s ∧ start ≤ x.2 ∧ x.2 < stop then some (a, x.2) else none
  all.foldl (fun l x => insertBurst x l) []

/-- The copy moves on to `stop` bytes of the rank that migrates, with read-correct-write on every burst that has been written since training (R321, R329, R330): each opens
its row on both ranks; an error that stands there is corrected and counted, and a UE leaves the burst poisoned on the spare. -/
def Mach.migCopy (m : Mach) (ch sp stop : Nat) : Mach :=
  let s := m.get (F.MC_MIG_STATUS_SRC ch)
  let m := (m.rankBursts ch s (m.mc ch).migBytes stop).foldl (fun m x =>
    let m := m.openAt ch (m.rowAt ch s x.2)
    let m := match m.burstSeen ch x.1 with
      | (.clean, _) => m
      | (.corrected, _) => (m.ceSeen ch s).modMc ch fun c => { c with errs := mapPut {} c.errs x.1 {} }
      | (.uncorrectable, p) => (m.ueSeen ch { m.rowAt ch s x.2 with rank := s } p).modMc ch fun c =>
          { c with poison := insertNat x.1 c.poison, errs := mapPut {} c.errs x.1 {} }
    m.openAt ch (m.rowAt ch sp x.2)) m
  (m.modMc ch fun c => { c with migBytes := stop }).put (F.MC_MIG_STATUS_PTR_GIB ch) (stop / 2 ^ 30)

/-- MIGRATION_COMPLETE (R329, R330): at MIG_RATE × 128 MiB/s the copy reaches the end of the rank, which is remapped; the errors that have come to the arrays
by then stand in what it still copies. -/
def Mach.migComplete (m : Mach) (ch : Nat) (errs : List MemErr) : Mach :=
  match m.spareRank ch with
  | none => m
  | some sp =>
    if !m.on (F.MC_STATUS_MIGRATING ch) || !m.mcRuns ch then m
    else
      let s := m.get (F.MC_MIG_STATUS_SRC ch)
      let size := (m.mc ch).rankGiB s * 2 ^ 30
      let left := 1000 * (size - (m.mc ch).migBytes) - (m.mc ch).migPart
      let m := m.reachNs (m.now / 1000000 * 1000000 + ceilDiv (left * 10 ^ 6) (max (m.get (F.MC_MIG_CTRL_MIG_RATE ch)) 1 * 2 ^ 27))
      let m := (m.errsCome ch errs).migCopy ch sp size
      let m := (m.put (F.MC_RANK_STATE_STATE ch s) 4).put (F.MC_RANK_STATE_STATE ch sp) 5
      let m := (m.put (F.MC_RANK_STATE_SERVES ch sp) s).put (F.MC_STATUS_SPARE_AVAIL ch) 0
      let m := m.put (F.MC_STATUS_MIGRATING ch) 0
      m.emit 10 4 0 (evArg s 0 ch)

/-- The copy advances by one millisecond at MIG_RATE × 128 MiB/s, in whole units of 4 KiB (R329, R330). -/
def Mach.migAdvance (m : Mach) (ch : Nat) : Mach :=
  match m.spareRank ch with
  | none => m
  | some sp =>
    if m.on (F.MC_STATUS_MIGRATING ch) && m.mcRuns ch then
      let size := (m.mc ch).rankGiB (m.get (F.MC_MIG_STATUS_SRC ch)) * 2 ^ 30
      let part := (m.mc ch).migPart + m.get (F.MC_MIG_CTRL_MIG_RATE ch) * 2 ^ 27
      (m.migCopy ch sp (min ((m.mc ch).migBytes + part / 4096000 * 4096) size)).modMc ch fun c => { c with migPart := part % 4096000 }
    else m

/-- CE_WINDOW_CLOSE (R322): the window of 60 s closes; each rank with CE_THR or more correctable errors reports and requests a migration. -/
def Mach.ceClose (m : Mach) (ch : Nat) : Mach :=
  let m := m.reachNs ((m.mc ch).ceEnd.getD ((m.now / 60000000000 + 1) * 60000000000))
  let win := (m.mc ch).ceWin
  let thr := m.get (F.MC_ECC_CTRL_CE_THR ch)
  let next := (m.now / 60000000000 + 1) * 60000000000
  let m := m.modMc ch fun c => { c with ceWin := [], ceEnd := some next }
  [0, 1, 2, 3].foldl (fun m r =>
    if 0 < thr ∧ thr ≤ mapGet 0 win r then (m.emit 10 1 0 (evArg r 0 ch)).migRequest ch r 0 else m) m

/-! ### Layout and the ring -/

/-- The sizes left in MiB for a channel of `cap` MiB when its ring region would fall below 1 GiB (R340): the raw area is reduced first, then the
journal to 64 MiB. -/
def cutSizes (cap raw jrn : Nat) : Nat × Nat :=
  let need := 128 + 1024 + raw + jrn
  if need ≤ cap then (raw, jrn)
  else
    let overs := alignUp (need - cap) 64
    if overs ≤ raw then (raw - overs, jrn) else (0, max 64 (jrn - (overs - raw)))

/-- A ring region in MiB: the remainder in whole 2 MiB segments (R339). -/
def ringMiB (cap raw jrn : Nat) : Nat := (cap - 128 - raw - jrn) / 2 * 2

/-- Bring RING_MIB and DEPTH_MS in step. -/
def Mach.syncRing (m : Mach) : Mach :=
  let ring := m.rsv.ring0 + m.rsv.ring1
  let kbps := m.get F.MC_WRITE_RATE_KBPS
  (m.put F.MC_RING_MIB_MIB (ring / 2 ^ 20)).put F.MC_DEPTH_MS_MS (if kbps = 0 then 0xFFFFFFFF else min (ring / kbps) 0xFFFFFFFF)

/-- Step 10 of Table 03-1: the layout (R339, R340). One pair of sizes is in force for both channels: those of the channel that needs the largest
reduction. -/
def Mach.layout (m : Mach) : Mach :=
  let caps := ([0, 1].filter fun ch => m.mcState ch == 2).map fun ch => m.usedGiB ch * 1024
  match caps with
  | [] => m
  | c0 :: _ =>
    let least := caps.foldl min c0
    let raw := m.get F.MC_RSV_REQ_RAW_MIB
    let jrn := m.get F.MC_RSV_REQ_JRN_MIB
    let (r, j) := cutSizes least raw jrn
    let m := (m.put F.MC_RSV_SIZES_RAW_MIB r).put F.MC_RSV_SIZES_JRN_MIB j
    let region (ch : Nat) : Nat := if m.mcState ch == 2 then ringMiB (m.usedGiB ch * 1024) r j * 2 ^ 20 else 0
    let m := { m with rsv := { ring0 := region 0, ring1 := region 1 } }
    let m := m.syncRing.syncJournal
    if r ≠ raw ∨ j ≠ jrn then (m.put F.MC_RSV_STATUS_LAYOUT_CUT 1).emit 10 8 0 0 else m.put F.MC_RSV_STATUS_LAYOUT_CUT 0

/-- SINGLE (R345, R346): one copy serves while one channel is absent or frozen; a channel brought back is copied first. -/
def Mach.syncSingle (m : Mach) : Mach :=
  let both := m.mcState 0 == 2 && m.mcState 1 == 2
  let one := m.mcState 0 == 2 || m.mcState 1 == 2
  if one && !both then
    let m := { m with recs := { m.recs with copyOf := if m.mcState 0 = 2 then 0 else 1 } }
    if m.on F.MC_RSV_STATUS_SINGLE then m else (m.put F.MC_RSV_STATUS_SINGLE 1).emit 10 9 0 0
  else if both && m.on F.MC_RSV_STATUS_SINGLE then
    ({ m with recs := { m.recs with copyAt := some m.now } }).put F.MC_RSV_STATUS_RESYNC 1
  else m

/-- Whether a record holds the burst at an offset of the journal copies. -/
def JRec.holds (size off : Nat) (r : JRec) : Bool :=
  let s := r.pos % max size 1
  decide (s < off + 64) && decide (off < s + r.body.len) || decide (off + size < s + r.body.len)

/-- The records that hold the burst at an offset of the journal copies are lost (R320, R346). -/
def Mach.jrnLost (m : Mach) (off : Nat) : Mach :=
  slotNos.foldl (fun m s => if (m.slot s).journal.any (JRec.holds m.jrnBytes off) then m.journalLost s (JRec.holds m.jrnBytes off) else m) m

/-- JOURNAL_COPY_COMPLETE (R346): the surviving journal copy has been copied at MIG_RATE of MC0, and both serve again; a UE in it loses the
records that hold the burst. -/
def Mach.journalMirrored (m : Mach) : Mach :=
  if m.on F.MC_RSV_STATUS_RESYNC then
    let n := min m.recs.jrnPos m.jrnBytes
    let m := match m.recs.copyAt with
      | some t => m.reachNs (t + ceilDiv (n * 10 ^ 9) (max (m.get (F.MC_MIG_CTRL_MIG_RATE 0)) 1 * 2 ^ 27))
      | none => m
    let src := m.recs.copyOf
    let m := (burstsOf m.jrnBytes 0 n).foldl (fun m o =>
      let (m, ue) := m.readBurst src (jrnBase + o)
      if ue then m.jrnLost o else m.writeBurst (1 - src) (jrnBase + o)) m
    let m := { m with recs := { m.recs with copyAt := none } }
    ((m.put F.MC_RSV_STATUS_RESYNC 0).put F.MC_RSV_STATUS_SINGLE 0).emit 10 10 0 0
  else m

/-- RESERVE_BLOCK_WRITE (R342): the oldest block leaves the output buffers for the ring; a segment's older blocks leave the index before its first
byte is written. -/
def Mach.ringWrite (m : Mach) : Mach :=
  match m.codecTake with
  | none => m
  | some (b, m) =>
    let ring := m.rsv.ring0 + m.rsv.ring1
    if ring = 0 then m
    else
      let pos := m.rsv.wpos
      let stop := pos + b.bytes.length
      let lastSeg := (stop - 1) / segBytes
      let keep := m.rsv.blocks.filter fun x => decide (lastSeg < x.pos / segBytes + ring / segBytes)
      let m := m.ringStore pos b.bytes.length
      let m := { m with rsv := { m.rsv with wpos := stop, blocks := keep ++ [{ b with pos := pos }], secBytes := m.rsv.secBytes + b.bytes.length } }
      m.syncOldest

/-- WRITE_RATE and DEPTH_MS at each whole second of device time (Table 14-7). -/
def Mach.ringSecond (m : Mach) : Mach :=
  if m.now % 10 ^ 9 = 0 then
    let m := m.put F.MC_WRITE_RATE_KBPS (min (m.rsv.secBytes / 1000) 0xFFFFFFFF)
    ({ m with rsv := { m.rsv with secBytes := 0 } }).syncRing
  else m

/-- The ring with the region of channel `ch` taken out (R343): the blocks wholly in the other region stay; writing goes on in place when it stood there,
else at the region's start. -/
def Reserve.without (r : Reserve) (ch : Nat) : Reserve :=
  let ring := r.ring0 + r.ring1
  let base := if ch = 0 then r.ring0 else 0
  let size := if ch = 0 then r.ring1 else r.ring0
  let w := r.wpos % max ring 1
  let inside (a : Nat) : Bool := decide (base ≤ a) && decide (a < base + size)
  let wNew := if inside w then size + (w - base) else size
  let place (b : Block) : Option Block :=
    let a := b.pos % max ring 1
    if inside a && decide (a + b.bytes.length ≤ base + size) then
      some { b with pos := if inside w && decide (a < w) then size + (a - base) else a - base }
    else none
  { r with ring0 := if ch = 0 then 0 else size, ring1 := if ch = 0 then size else 0, wpos := wNew, blocks := r.blocks.filterMap place }

/-! ### Errors -/

/-- What a UE read by the scrubber leads to, by the region that holds the burst (R320): the ring's block leaves the index; a journal or raw burst is rewritten from
the other channel's copy, or what holds it is lost; a burst of the system area is rebuilt from its AO copy. -/
def Mach.scrubUe (m : Mach) (ch addr : Nat) : Mach :=
  if addr < jrnBase then m.writeBurst ch addr
  else if m.ringBase ≤ addr then
    let off := addr - m.ringBase + (if ch = 0 then 0 else m.rsv.ring0)
    ({ m with rsv := m.rsv.dropAt off }).syncOldest
  else
    let o := 1 - ch
    -- while the copy of `ch` is being rebuilt, the one that serves holds the burst
    let (m, lost) := if m.mcState o ≠ 2 ∨ (m.on F.MC_RSV_STATUS_SINGLE ∧ ch = m.recs.copyOf) then (m, true) else m.readBurst o addr
    if !lost then m.writeBurst ch addr
    else if addr < m.rawBase then m.jrnLost (addr - jrnBase)
    else m

/-- The next burst that the scrubber reads (R321): the first of a written segment from where it stands. -/
def MemChan.scrubNext (c : MemChan) : Option Nat :=
  (c.written.find? fun s => decide (c.scrubAt < (s + 1) * segBytes)).map fun s => max c.scrubAt (s * segBytes)

/-- The progress of a pass, % of the bytes written. -/
def MemChan.scrubPct (c : MemChan) : Nat :=
  let done := sumNat (c.written.map fun s => min segBytes (c.scrubAt - s * segBytes))
  100 * done / max (c.written.length * segBytes) 1

/-- Device time at which the scrubber reads the burst at `addr` (R321): a pass of SCRUB_H hours is spread evenly over the written bursts. -/
def MemChan.scrubDue (c : MemChan) (hours addr now : Nat) : Nat :=
  let done := sumNat (c.written.map fun s => min segBytes (addr - s * segBytes))
  c.scrubT.getD now + hours * 3600000000000 * done / max (c.written.length * segBytes) 1

/-- PATROL_SCRUB (R320, R321): time comes to the next read; the errors that have come to the arrays stand in them; the scrubber reads the next written burst of its pass and
acts on what it meets. -/
def Mach.scrub (m : Mach) (ch : Nat) (errs : List MemErr) : Mach :=
  let m := m.errsCome ch errs
  let hours := m.get (F.MC_ECC_CTRL_SCRUB_H ch)
  if !m.mcRuns ch || hours == 0 then m
  else
    match (m.mc ch).scrubNext with
    | none => m
    | some addr =>
      let now := m.now
      let m := m.modMc ch fun c => { c with scrubT := some (c.scrubT.getD now) }
      let m := m.reachNs ((m.mc ch).scrubDue hours addr now)
      let (m, ue) := m.readBurst ch addr
      let m := if ue then m.scrubUe ch addr else m
      let m := m.modMc ch fun c => { c with scrubAt := addr + 64 }
      match (m.mc ch).scrubNext with
      | some _ => m.put (F.MC_SCRUB_STATUS_PCT ch) (m.mc ch).scrubPct
      | none => ((m.modMc ch fun c => { c with scrubAt := 0, scrubT := c.scrubT.map (· + hours * 3600000000000) }).bump (F.MC_SCRUB_STATUS_PASSES ch)).put (F.MC_SCRUB_STATUS_PCT ch) 0

/-! ### Freeze -/

/-- Copy a snapshot into the other half's area (Table 14-6). -/
def Mach.snapshot (m : Mach) (ch cause : Nat) (log : FreezeLog) : Mach :=
  let h := 1 - ch
  let w (m : Mach) (off v : Nat) : Mach := m.put (F.MC_SNAP h (off / 4)) v
  let m := (List.range 48).foldl (fun m i => w m (4 * i) 0) m
  let m := w m 0x00 (2 ^ 31 + cause * 2 ^ 28)
  let m := w (w m 0x04 (m.now % 2 ^ 32)) 0x08 (m.now / 2 ^ 32)
  let m := w m 0x0C (m.get F.CFG_EPOCH)
  let m := w m 0x10 (m.get (F.MC_PAR_CNT_PAR ch) * 2 ^ 16 + m.get (F.MC_PAR_CNT_REPLAY ch))
  let m := w (w m 0x14 (m.mc ch).alerts) 0x18 log.goodIdx.toNat
  let m := (List.range 32).foldl (fun m i => w m (0x20 + 4 * i) (log.cmds.getD i 0).toNat) m
  let m := (List.range 4).foldl (fun m i => w m (0xA0 + 4 * i) (log.dimmLog.getD i 0).toNat) m
  let m := w m 0xB0 log.temps.toNat
  let m := w m 0xB4 (sumNat ((List.range 4).map fun r => (m.rankState ch r + 16 * m.get (F.MC_RANK_STATE_SERVES ch r)) * 256 ^ r))
  let m := w m 0xB8 ((m.mc ch).migBytes / 2 ^ 20)
  w m 0xBC (m.mc ch).trainCrc.toNat

/-- Freeze a channel (R331 to R335; a migration on it ends, and its rank goes on as it was): with the other channel PRESENT, the steps of Table 14-5; otherwise SAFE with DRAM_ABSENT, no snapshot and every
slot freed (Table 18-10). -/
def Mach.freezeChan (m : Mach) (ch cause : Nat) (log : FreezeLog) : Mach :=
  if m.mcState ch ≠ 2 then m
  else
    let other := m.mcState (1 - ch) == 2
    let m := if other then m.snapshot ch cause log else m
    let src := m.get (F.MC_MIG_STATUS_SRC ch)
    let m := if m.on (F.MC_STATUS_MIGRATING ch) && m.rankState ch src == 3 then m.put (F.MC_RANK_STATE_STATE ch src) 1 else m
    let m := ((m.put (F.MC_STATUS_STATE ch) 3).put (F.MC_STATUS_MIGRATING ch) 0).put F.MC_RSV_STATUS_RESYNC 0
    let m := m.syncMem
    let m := { m with rsv := m.rsv.without ch }
    let m := (m.syncRing).syncOldest
    if other then (m.emit 10 7 0 (evArg 0 cause ch)).syncSingle
    else ((m.emit 10 7 0 (evArg 0 cause ch)).enterSafe 2).flush.freeAll

/-- CA_PARITY_ERROR (R332): `failed` replays in a row have failed. -/
def Mach.caParity (m : Mach) (ch failed : Nat) (log : FreezeLog) : Mach :=
  if m.mcState ch ≠ 2 then m
  else
    let m := (m.bump (F.MC_PAR_CNT_PAR ch)).bumpBy (F.MC_PAR_CNT_REPLAY ch) (min (failed + 1) 4)
    let m := m.modMc ch fun c => { c with alerts := (c.alerts + 1) % 2 ^ 32, parTimes := m.now :: c.parTimes.filter fun t => decide (m.now < t + 10000000) }
    if 4 ≤ failed then m.freezeChan ch 1 log
    else if 16 ≤ (m.mc ch).parTimes.length then m.freezeChan ch 2 log
    else m

/-- A write of FREEZE with KEY 0x5AFE (R332). -/
def Mach.freezeWrite (m : Mach) (ch w : Nat) (log : FreezeLog) : Mach :=
  if bitsOf w 31 16 = 0x5AFE ∧ bitOf w 0 then m.freezeChan ch 3 log else m

end Sys2Proof.Machine
end

