-- ==== Sys2Proof/Machine/Cfg.lean ====
section
/-!
DEFINITION. Machine/Cfg.lean: how a commit applies, domain by domain, and ends (R61 to R65), the reload of R67 and R68, and the configuration
checker (R66, R67, R79).
-/
namespace Sys2Proof.Machine

/-! ### The checker -/

/-- Whether the checker covers a field of a row (R79): every RWS field, every RO field loaded from the image; never CFG.CRC_REF. -/
def FieldSpec.covered (f : FieldSpec) : Bool := f.acc == .rws || (f.acc == .ro && f.src == .image)

/-- The addresses of a block's covered registers, ascending. -/
def coveredIn (blk : Nat) : List Nat :=
  let rows := (blockRows blk).filter fun r => r.fields.any FieldSpec.covered
  let half (base : Nat) : List Nat :=
    rows.foldl (fun l r => (List.range r.count).foldl (fun l i => insertNat (base + r.off + r.stride * i) l) l) []
  let all := if twoHalves blk then half (blk * 0x10000) ++ half (blk * 0x10000 + 0x8000) else half (blk * 0x10000)
  all.filter fun a => a != F.CFG_CRC_REF.addr && unifyMc a == a

/-- The covered registers, ascending. -/
def coveredAddrs : List Nat := (List.range 20).flatMap coveredIn

/-- The covered bits of a register in a bank. -/
def coveredWord (b : List (Nat × Nat)) (a : Nat) : Nat :=
  match findRow a with
  | none => 0
  | some r => sumNat ((r.fields.filter FieldSpec.covered).map fun f => mapGet 0 b (a * 32 + f.lsb) * 2 ^ f.lsb)

/-- The CRC of R66 over a bank of active values. -/
def configCrc (b : List (Nat × Nat)) : Nat := crc32c (coveredAddrs.flatMap fun a => leBytes 4 a ++ leBytes 4 (coveredWord b a))

/-! ### Applying -/

/-- Copy from one bank to another the settings of a domain. -/
def copyDomain (d : Nat) (src dst : List (Nat × Nat)) : List (Nat × Nat) :=
  ((mapKeys src ++ mapKeys dst).filter fun k => domainOf k == some d).foldl (fun b k => mapPut 0 b k (mapGet 0 src k)) dst

/-- The settings of a bank. -/
def settingsOf (b : List (Nat × Nat)) : List (Nat × Nat) := b.filter fun e => (domainOf e.1).isSome

/-- Whether a commit is applying and still names domain `d` as not applied. -/
def Mach.pendingIn (m : Mach) (d : Nat) : Bool :=
  m.get F.CFG_COMMIT_STATUS_STATE == 2 && bitOf m.commit.mask d && !bitOf (m.get F.CFG_COMMIT_STATUS_APPLIED) d

/-- Change the commit's part. -/
def Mach.modCommit (m : Mach) (f : Commit → Commit) : Mach := { m with commit := f m.commit }

/-- Bring COMPARING in step (R67). -/
def Mach.syncCompare (m : Mach) : Mach :=
  m.putB F.CFG_CRC_STATUS_COMPARING (!m.commit.skipPass && !(m.get F.CFG_COMMIT_STATUS_STATE == 2 && m.get F.CFG_COMMIT_STATUS_APPLIED != 0))

/-- The RET copy is rewritten (R430): every setting, and every field loaded from the image. -/
def Mach.saveRet (m : Mach) : Mach := { m with regs := { m.regs with ret := m.regs.act } }

/-- The epoch after the completed one (R62); after a rollover of bits [15:0], counter + 1 in bits [31:16] (R60). -/
def Mach.nextEpoch (m : Mach) (counter : Nat) : Nat :=
  let e := m.get F.CFG_EPOCH
  if e % 65536 = 65535 then (counter + 1) % 65536 * 65536 else e + 1

/-- Form the pending epoch; a rollover takes the next boot epoch counter, which the NVM record then holds (R60). -/
def Mach.pendEpoch (m : Mach) : Mach :=
  let roll := m.get F.CFG_EPOCH % 65536 == 65535
  let m := m.put F.CFG_EPOCH_PEND_EPOCH (m.nextEpoch m.boot.counter)
  if roll then { m with boot := { m.boot with counter := m.boot.counter + 1 } } else m

/-- Start a reload (R67, R68) from a bank as a commit that names every domain. It runs no check of Table 03-7: the spec gives the checks to a host's commit and is
silent on a reload's (DESIGN CHOICE, log entry 81). -/
def Mach.startReload (m : Mach) (action : Nat) : Mach :=
  let src := if action = 1 then settingsOf m.regs.ret else m.boot.applied
  let m := { m with regs := { m.regs with staged := src } }
  let m := m.modCommit fun c => { c with mask := 31, reload := true, wantReload := 0 }
  let m := ((m.pendEpoch.put F.CFG_COMMIT_STATUS_STATE 2).put F.CFG_COMMIT_STATUS_APPLIED 0).put F.CFG_COMMIT_STATUS_OWNER 0
  m.syncCompare

/-- The lock of a commit that has ended, complete or not, is free. -/
def Mach.unlock (m : Mach) : Mach :=
  let m := { m with regs := { m.regs with staged := [] } }
  let m := (((m.put F.CFG_COMMIT_STATUS_STATE 0).put F.CFG_COMMIT_STATUS_APPLIED 0).put F.CFG_COMMIT_STATUS_OWNER 0).put F.CFG_EPOCH_PEND_EPOCH 0
  (m.modCommit fun c => { c with mask := 0, reload := false }).syncCompare

/-- The first full pass after a reload has mismatched too (R68): SAFE, and CRC_FAULT in the attestation records to come. -/
def Mach.checkFault (m : Mach) : Mach := (m.modCommit fun c => { c with crcFault := true, wantReload := 0 }).enterSafe 3

/-- What waited for a commit to end happens at once (R68): a reload from the configuration then in force, or SAFE after a second mismatch. -/
def Mach.waitingReload (m : Mach) : Mach :=
  match m.commit.wantReload with
  | 0 => m
  | 3 => m.checkFault
  | a => m.startReload a

/-- A commit has ended without completing. -/
def Mach.commitEnded (m : Mach) : Mach := m.unlock.waitingReload

/-- A domain applies the staging copy (R63): its settings take their staged values; with the last named domain the commit is complete: the
pending epoch becomes the completed one, EPOCH_COMPLETE is issued, the RET copy is rewritten, and the Jewels' master copy follows the new pool (R272). -/
def Mach.applyDomain (m : Mach) (d : Nat) : Mach :=
  if m.pendingIn d then
    let m := { m with regs := { m.regs with act := copyDomain d m.regs.staged m.regs.act } }
    let m := (m.putBit F.CFG_COMMIT_STATUS_APPLIED d true).syncCompare
    if m.get F.CFG_COMMIT_STATUS_APPLIED = m.commit.mask then
      let e := m.get F.CFG_EPOCH_PEND_EPOCH
      let m := m.put F.CFG_EPOCH e
      let m := m.modCommit fun c => { c with skipPass := true, reloaded := c.reload || c.reloaded,
                                             ref := if m.on F.CFG_CRC_CTRL_CRC_AUTO then configCrc m.regs.act else c.ref }
      let m := if m.commit.reload then m else m.takeMaster
      (m.saveRet.unlock.emit2 2 0 0 0 e).waitingReload
    else m
  else m

/-- Whether applying the staging copy in domain `d` changes a field. -/
def Mach.stagedChanges (m : Mach) (f : Fld) : Bool := mapGet 0 m.regs.staged f.key != m.get f

/-- An ABORT write (R63): it ends a commit that no domain has applied; once one has applied it is ignored and counted. A reload is no host
commit, and holds its lock to its end (R68). -/
def Mach.abortWrite (m : Mach) (w : Nat) : Mach :=
  if !bitOf w 0 || m.get F.CFG_COMMIT_STATUS_STATE == 0 then m
  else if m.get F.CFG_COMMIT_STATUS_APPLIED != 0 || m.commit.reload then m.bump F.CFG_COUNTS_ABORT_IGN
  else m.commitEnded

/-- CONFIG_CHECK_PASS (R67, R68): a full pass ends; outside the window without comparison it is compared with the reference; a mismatch is acted
on by ACTION, at once or when a pending commit has ended; a second one after a reload ends in SAFE. A mismatch found while a reload is already pending asks
for no further one. -/
def Mach.checkPass (m : Mach) : Mach :=
  let crc := configCrc m.regs.act
  let m := m.put F.CFG_CRC_LAST_CRC crc
  let st := m.get F.CFG_COMMIT_STATUS_STATE
  if st = 2 ∧ m.get F.CFG_COMMIT_STATUS_APPLIED ≠ 0 then m
  else
    -- a pass that starts after a completion ends the window, and is compared
    let m := (m.modCommit fun c => { c with skipPass := false }).syncCompare
    let ref := if m.on F.CFG_CRC_CTRL_CRC_AUTO then m.commit.ref else m.get F.CFG_CRC_REF
    let bad := crc ≠ ref
    let second := m.commit.reloaded
    let m := (m.modCommit fun c => { c with reloaded := false }).putB F.CFG_CRC_STATUS_MISMATCH bad
    if bad then
      let m := (m.bump F.CFG_CRC_STATUS_MISMATCH_CNT).emit 2 2 0 0
      let act := m.get F.CFG_CRC_CTRL_ACTION
      if (act = 1 ∨ act = 2) ∧ !m.commit.reload then
        let m := m.modCommit fun c => { c with wantReload := if second then 3 else act }
        if st = 0 then m.waitingReload else m
      else m
    else m

/-- CONFIG_RELOAD (R68): a reload that waited for a host commit starts once that commit has ended. -/
def Mach.configReload (m : Mach) : Mach :=
  if m.get F.CFG_COMMIT_STATUS_STATE = 0 then m.waitingReload else m

end Sys2Proof.Machine
end

