-- ==== Sys2Proof/Machine/Calib.lean ====
section
/-!
DEFINITION. Machine/Calib.lean: correction sets (R403 to R405), the interpolation and the candidate (R406, R407), the boundaries at which parts
become active (R408, R409), background deltas (R411).
-/
namespace Sys2Proof.Machine

/-! ### Sets -/

/-- The base of factory set k. -/
def factoryBase (k : Nat) : Nat := 0x0E40000 + 0x8000 * k

/-- The base of user set u. -/
def userBase (u : Nat) : Nat := 0x0E00000 + 0x8000 * u

/-- The base of the set in force. -/
def forceBase : Nat := 0x0E80000

/-- Whether a set is valid (R403): FMT 1, KIND 0 or 1, its res. bytes zero, its CRC-32C right. -/
def setValid (b : List (Nat × Nat)) (base : Nat) : Bool :=
  bankLe b base 2 == 1 && decide (bankLe b (base + 2) 1 ≤ 1) && bankLe b (base + 3) 1 == 0 && bankLe b (base + 6) 2 == 0 &&
  ((List.range 36).all fun i => bankByte b (base + 0x1C + i) == 0) &&
  crc32c (bankBytes b base 0x5FFC) == bankLe b (base + 0x5FFC) 4

/-- A coefficient of a set: its offset, its size in bytes, whether it is signed, its range, and for R408 the measure: |Δ| × num compared with threshold × den, where
den is `base`, or `base` and the active value with `rel`; `thr` is the threshold: 0 OFS_THR, 1 GAIN_THR, 2 SKEW_THR; `nom` its nominal value. -/
structure Coef where
  off  : Nat
  size : Nat
  sgn  : Bool
  lo   : Int
  hi   : Int
  num  : Nat
  rel  : Bool
  thr  : Nat
  nom  : Int
  base : Int := 1
deriving DecidableEq, Repr

/-- A signed 16-bit coefficient. -/
def coef16 (off num thr : Nat) : Coef := ⟨off, 2, true, -32768, 32767, num, false, thr, 0, 1⟩

/-- A deviation from a gain of 1 in 2^-20, compared relative to the gain in force (R408). -/
def coefGain (off : Nat) : Coef := ⟨off, 2, true, -32768, 32767, 2 ^ 20, true, 1, 0, 2 ^ 20⟩

/-- An unsigned 32-bit coefficient. -/
def coefU32 (off : Nat) (nom : Int) : Coef := ⟨off, 4, false, 0, 2 ^ 32 - 1, 2 ^ 20, true, 1, nom, 0⟩

/-- A signed 32-bit coefficient. -/
def coefS32 (off : Nat) (nom : Int) : Coef := ⟨off, 4, true, -(2 ^ 31), 2 ^ 31 - 1, 16, false, 1, nom, 1⟩

/-- OFS, GAIN and SKEW of a coherent slice. -/
def sliceCoefs (s : Nat) : List Coef := [coef16 (0x40 + 8 * s) 1 0, coefGain (0x42 + 8 * s), coef16 (0x44 + 8 * s) 1 2]

/-- OFS and GAIN of a Raman slice. -/
def ramanCoefs (s : Nat) : List Coef := [coef16 (0x40 + 8 * s) 1 0, coefGain (0x42 + 8 * s)]

/-- The nominal range gain of code t, 2^-24: 0, +6, +12, +18 dB (Table 07-1). -/
def nominalRange (t : Nat) : Int := match t with | 0 => 16777216 | 1 => 33474947 | 2 => 66791300 | _ => 133266164

/-- The coherent coefficients of a port (R408): the slices of its groups, RGAIN, IQ, PSY. A relative difference is taken of the gain that a value stands for; C_QI,
whose nominal is 0, is taken relative to unity, and the offsets and the skew of PSY relative to their full scale, 2^15 (log entry 71). -/
def coherentPart (p : Nat) : List Coef :=
  (List.range 68).flatMap (fun i => sliceCoefs (68 * p + i)) ++
  (List.range 4).flatMap (fun i => (List.range 4).map fun t => coefU32 (0x500 + 16 * (4 * p + i) + 4 * t) (nominalRange t)) ++
  ([2 * p, 2 * p + 1, 4 + p].flatMap fun e =>
    [⟨0x600 + 8 * e, 4, true, -(2 ^ 17), 2 ^ 17 - 1, 16, false, 1, 0, 1⟩, ⟨0x604 + 8 * e, 4, true, -(2 ^ 17), 2 ^ 17 - 1, 2 ^ 20, true, 1, 65536, 0⟩]) ++
  [coef16 (0x640 + 8 * p) 32 1, coef16 (0x642 + 8 * p) 32 1, coefGain (0x644 + 8 * p), coef16 (0x646 + 8 * p) 32 1]

/-- INTGAIN of a port's Raman channels. -/
def intGains (p : Nat) : List Coef :=
  [2 * p, 2 * p + 1].flatMap fun c => (List.range 8).map fun i => coefU32 (0x680 + 4 * (8 * c + i)) 16777216

/-- The APD coefficients of an output. -/
def apdPart (o : Nat) : List Coef := [coefU32 (0x700 + 8 * o) 16777216, coefS32 (0x704 + 8 * o) 0]

/-- HKC, RREF and CALDAC. -/
def hkcPart : List Coef :=
  (List.range 32).flatMap (fun c => [coefU32 (0x740 + 8 * c) 16777216, coefS32 (0x744 + 8 * c) 0]) ++
  [coefU32 0x840 400000, coefU32 0x844 4000000, coefU32 0x848 65536, coefS32 0x84C 0]

/-- The ramp table of a TIS input: edges in 2^-16 of 833.33 ps, compared with SKEW_THR in units of 2 fs: an edge unit is 78,125 / 12,288 of them. -/
def tisPart (i : Nat) : List Coef := (List.range 1024).map fun k => ⟨0x1000 + 2048 * i + 2 * k, 2, false, 0, 65535, 78125, false, 2, 64 * k, 12288⟩

/-- A coefficient of a set. -/
def Coef.read (c : Coef) (b : List (Nat × Nat)) (base : Nat) : Int :=
  let v := bankLe b (base + c.off) c.size
  if c.sgn then signedOf (8 * c.size) v else v

/-- A bank with a coefficient replaced. -/
def Coef.write (c : Coef) (b : List (Nat × Nat)) (base : Nat) (x : Int) : List (Nat × Nat) :=
  let a := base + c.off
  let w := a / 4 * 4
  let sh := 8 * (a % 4)
  let n := 8 * c.size
  let old := bankWord b w
  mapPut 0 b (w * 32) (old - old / 2 ^ sh % 2 ^ n * 2 ^ sh + codeOf n x * 2 ^ sh)

/-- A coefficient limited to its field. -/
def Coef.limit (c : Coef) (x : Int) : Int := clampInt c.lo c.hi x

/-! ### Interpolation and candidate -/

/-- The valid factory sets: numbers. -/
def Mach.goodSets (m : Mach) : List Nat := (List.range 5).filter fun k => bitOf (m.get F.CAL_STATUS_SETS_OK) k

/-- TEMP_MK of a set. -/
def setTemp (b : List (Nat × Nat)) (base : Nat) : Int := signedOf 32 (bankLe b (base + 8) 4)

/-- The valid set next below (or at) a temperature, and next above. -/
def Mach.bracket (m : Mach) (t : Int) : Option Nat × Option Nat :=
  let temp (k : Nat) := setTemp m.regs.act (factoryBase k)
  (m.goodSets.foldl (fun o k => if temp k ≤ t then (match o with | some j => if temp j ≤ temp k then some k else o | none => some k) else o) none,
   m.goodSets.foldl (fun o k => if t < temp k then (match o with | some j => if temp k < temp j then some k else o | none => some k) else o) none)

/-- F_x(T) of a coefficient (R406): the factory sets interpolated; nominal when no set is valid (R405). -/
def Mach.factoryAt (m : Mach) (c : Coef) (t : Int) : Int :=
  let b := m.regs.act
  match m.bracket t with
  | (none, none) => c.nom
  | (some k, none) => c.read b (factoryBase k)
  | (none, some k) => c.read b (factoryBase k)
  | (some j, some k) =>
    let tj := setTemp b (factoryBase j)
    let tk := setTemp b (factoryBase k)
    let xj := c.read b (factoryBase j)
    xj + roundAway ((c.read b (factoryBase k) - xj) * (t - tj)) (tk - tj).toNat

/-- The scope bit of Table 17-3 that measures the part holding an offset; none for parts that no scope measures. -/
def scopeOf (off : Nat) : Option Nat :=
  if off < 0x40 then none
  else if off < 0x40 + 8 * 68 then some 1
  else if off < 0x40 + 8 * 136 then some 2
  else if off < 0x40 + 8 * 146 then some 5
  else if off < 0x500 then none
  else if off < 0x540 then some 3
  else if off < 0x600 then some 4
  else if off < 0x610 ∨ (0x620 ≤ off ∧ off < 0x628) then some 3
  else if off < 0x630 then some 4
  else if off < 0x680 then none
  else if off < 0x700 then some 5
  else if off < 0x740 then none
  else if off < 0x840 then some 6
  else if off < 0x848 then none
  else if off < 0x850 then some 0
  else if off < 0x854 then some 8
  else if 0x1000 ≤ off then some 7
  else none

/-- The slice and kind (0 OFS, 1 GAIN, 2 SKEW) of a slice coefficient's offset, as the key of its background delta. -/
def bgKey (off : Nat) : Option Nat := if 0x40 ≤ off ∧ off < 0x40 + 8 * 146 then some (3 * ((off - 0x40) / 8) + (off - 0x40) % 8 / 2) else none

/-- The temperature of the last interpolation. -/
def Mach.calTemp (m : Mach) : Int := signedOf 32 (m.get F.CAL_TEMP_MK)

/-- The candidate of a coefficient (R407): F(T) + (U − F(T_U)) + B, limited to its field. B of a slice whose group's spare has been used for good stays in it: R182
says that its corrections then come from the factory sets and on-command calibration, and not what becomes of what B holds (DESIGN CHOICE, log entry 83). -/
def Mach.candidate (m : Mach) (c : Coef) : Int :=
  let b := m.regs.act
  let ub := userBase (m.get F.CAL_USER_SEL_SET)
  let mid : Int :=
    match scopeOf c.off with
    | some s => if m.on F.CAL_USER_SEL_EN && bitOf (bankLe b (ub + 4) 2) s then c.read b ub - m.factoryAt c (setTemp b ub) else 0
    | none => 0
  let bg : Int := match bgKey c.off with | some k => mapGet 0 m.cal.bg k | none => 0
  c.limit (m.factoryAt c m.calTemp + mid + bg)

/-! ### Becoming active -/

/-- The threshold of a coefficient (R408). -/
def Mach.coefThr (m : Mach) (c : Coef) : Nat :=
  match c.thr with | 0 => m.get F.CAL_APPLY_THR_OFS_THR | 1 => m.get F.CAL_APPLY_THR_GAIN_THR | _ => m.get F.CAL_APPLY_THR_SKEW_THR

/-- The denominator of a coefficient's measure. -/
def Coef.den (c : Coef) (active : Int) : Nat := max (if c.rel then (c.base + active).natAbs else c.base.natAbs) 1

/-- Change the active bank. -/
def Mach.setAct (m : Mach) (b : List (Nat × Nat)) : Mach := { m with regs := { m.regs with act := b } }

/-- FLAGS of a slice in the set in force (R404, Table 17-1): those of the selected user set when its SCOPE covers the slice, else those of the factory set next
below the temperature, or next above (log entry 83). -/
def Mach.sliceFlags (m : Mach) (s : Nat) : Nat :=
  let b := m.regs.act
  let off := 0x46 + 8 * s
  let ub := userBase (m.get F.CAL_USER_SEL_SET)
  let user := m.on F.CAL_USER_SEL_EN && (match scopeOf off with | some n => bitOf (bankLe b (ub + 4) 2) n | none => false)
  if user then bankLe b (ub + off) 2
  else match m.bracket m.calTemp with
    | (some k, _) => bankLe b (factoryBase k + off) 2
    | (none, some k) => bankLe b (factoryBase k + off) 2
    | (none, none) => 0

/-- The slices take their FLAGS with their coefficients (R404). -/
def Mach.takeFlags (m : Mach) (slices : List Nat) : Mach :=
  m.setAct (slices.foldl (fun b s => (coef16 (0x46 + 8 * s) 1 0).write b forceBase (m.sliceFlags s : Nat)) m.regs.act)

/-- Make the candidates of a part active whole. The flag answers whether any value changed. -/
def Mach.takeWhole (m : Mach) (part : List Coef) : Mach × Bool :=
  let new := part.map fun c => (c, c.read m.regs.act forceBase, m.candidate c)
  let diff := new.any fun x => x.2.1 != x.2.2
  (m.setAct (new.foldl (fun b x => if x.2.1 = x.2.2 then b else x.1.write b forceBase x.2.2) m.regs.act), diff)

/-- Take a part's candidates when some coefficient differs by more than its threshold (R408); with `step` each moves by at most twice its threshold
and a held-back coefficient is counted. The flag answers whether a new set became active. -/
def Mach.takeOver (m : Mach) (part : List Coef) (step : Bool) : Mach × Bool :=
  let xs := part.map fun c => (c, c.read m.regs.act forceBase, m.candidate c)
  let beyond (n : Nat) (x : Coef × Int × Int) : Bool :=
    decide (n * m.coefThr x.1 * x.1.den x.2.1 < (x.2.2 - x.2.1).natAbs * x.1.num)
  if xs.any (beyond 1) then
    let held := step && xs.any (beyond 2)
    let b := xs.foldl (fun b x =>
      let lim : Int := (2 * m.coefThr x.1 * x.1.den x.2.1 / x.1.num : Nat)
      let v := if step then x.2.1 + clampInt (-lim) lim (x.2.2 - x.2.1) else x.2.2
      if v = x.2.1 then b else x.1.write b forceBase v) m.regs.act
    let m := m.setAct b
    (if held then m.bump F.CAL_LIMIT_CNT_COUNT else m, true)
  else (m, false)

/-- The words of a port's coherent coefficients in force. -/
def Mach.coherentWords (m : Mach) (p : Nat) : List (Nat × Nat) :=
  (coherentPart p).foldl (fun b c => let w := (forceBase + c.off) / 4 * 4; mapPut 0 b (w * 32) (bankWord m.regs.act w)) []

/-- The coherent part of a port takes its candidate (R408): whole at the first t_B of an acquisition and at a module boundary of a port that is not
running, else by threshold with limited steps. The flag answers whether a coefficient changed. -/
def Mach.coherentTake (m : Mach) (p : Port) (whole : Bool) : Mach × Bool :=
  let part := coherentPart (portIx p)
  let (m, ch) := if whole then m.takeWhole part else m.takeOver part true
  (if whole || ch then m.takeFlags ((List.range 68).map (68 * portIx p + ·)) else m, ch)

/-- The Raman slices that serve a port's integrators: its own, and a spare in service for one of them (R185). -/
def Mach.ramanSlices (m : Mach) (p : Nat) : List Nat :=
  (List.range 4).map (fun i => 136 + 4 * p + i) ++
  (if m.get F.ADC_RAMAN_MAP_SPARE0_FOR / 4 = p then [144] else []) ++ (if m.get F.ADC_RAMAN_MAP_SPARE1_FOR / 4 = p then [145] else [])

/-- At a Raman frame boundary of a port (Table 17-2): Raman slices and INTGAIN by threshold, APD whenever it differs. The flag answers which APD
outputs changed. -/
def Mach.ramanSet (m : Mach) (p : Port) : Mach × List Nat :=
  let i := portIx p
  let part := (m.ramanSlices i).flatMap ramanCoefs ++ intGains i
  let (m, ch) := m.takeOver part false
  let m := if ch then m.takeFlags (m.ramanSlices i) else m
  let f := match p with | .A => F.ADC_CORR_GEN_RA_GEN | .B => F.ADC_CORR_GEN_RB_GEN
  let m := if ch then m.put f (m.get f + 1) else m
  [2 * i, 2 * i + 1].foldl (fun r o => let (m, ch) := r.1.takeWhole (apdPart o); (m, if ch then r.2 ++ [o] else r.2)) (m, [])

/-- DAC_GAIN and DAC_OFS show the CALDAC entry in force (R421). -/
def Mach.dacFigures (m : Mach) : Mach :=
  (m.put F.CAL_DAC_GAIN_GAIN (bankLe m.regs.act (forceBase + 0x848) 4)).put F.CAL_DAC_OFS_UV (bankLe m.regs.act (forceBase + 0x84C) 4)

/-- At a module boundary (Table 17-2): HKC, RREF and CALDAC whenever they differ; a TIS table when an edge differs by more than SKEW_THR; the spare
Raman slices that serve no integrator. -/
def Mach.moduleSet (m : Mach) : Mach :=
  let (m, _) := m.takeWhole hkcPart
  let m := (List.range 8).foldl (fun m i => (m.takeOver (tisPart i) false).1) m
  let idle := [(144, m.get F.ADC_RAMAN_MAP_SPARE0_FOR), (145, m.get F.ADC_RAMAN_MAP_SPARE1_FOR)].filter fun x => x.2 == 15
  let (m, ch) := m.takeOver (idle.flatMap fun x => ramanCoefs x.1) false
  (if ch then m.takeFlags (idle.map (·.1)) else m).dacFigures

/-- XO_TRIM becomes active at a module boundary, in FREE only (Table 17-2, R416). -/
def Mach.xoTrimAt (m : Mach) : Mach :=
  if m.get F.CLK_REG_STATUS_STATE = 0 then
    let x := if m.on F.CAL_USER_SEL_EN then bankLe m.regs.act (userBase (m.get F.CAL_USER_SEL_SET) + 0x850) 4 else 0
    (m.setAct ((coefS32 0x850 0).write m.regs.act forceBase (x : Nat))).put F.CAL_XO_TRIM_TRIM x
  else m

/-- The die temperature is taken into the interpolation (R406). -/
def Mach.calTempAt (m : Mach) (t : Int) : Mach := if m.on F.CAL_CTRL_INTERP_EN then m.put F.CAL_TEMP_MK (codeOf 32 t) else m

/-- Step 3 of Table 03-1 (R405): the factory sets are checked; with none valid, nominal coefficients, STORE_BAD and CAL_FAIL. -/
def Mach.checkStore (m : Mach) : Mach :=
  let ok := (List.range 5).filter fun k => setValid m.regs.act (factoryBase k)
  let m := m.put F.CAL_STATUS_SETS_OK (ok.foldl (fun o k => o + 2 ^ k) 0)
  if ok.isEmpty then (m.put F.CAL_STATUS_STORE_BAD 1).emit 17 2 0 (evArg 0 9 0) else m.put F.CAL_STATUS_STORE_BAD 0

/-- The whole set in force formed anew at a start (R404): header with KIND 2 and the module's serial number, every part at its candidate. What the other words of its
header hold the spec does not say: SCOPE, REF_UV and BOOT_EPOCH are those of a factory set, and TEMP_MK is that of CAL.TEMP (log entry 83). -/
def Mach.formForce (m : Mach) : Mach :=
  let parts := coherentPart 0 ++ coherentPart 1 ++ (List.range 10).flatMap (fun i => ramanCoefs (136 + i)) ++ intGains 0 ++ intGains 1 ++
    (List.range 4).flatMap apdPart ++ hkcPart ++ (List.range 8).flatMap tisPart
  let word (b : List (Nat × Nat)) (off v : Nat) := mapPut 0 b ((forceBase + off) * 32) v
  let b := word (word m.regs.act 0 0x00020001) 4 0xFF
  let b := word (word b 8 (m.get F.CAL_TEMP_MK)) 0x18 0
  let b := word (word b 0x10 (m.get F.SYS_SERIAL_LO_SERIAL)) 0x14 (m.get F.SYS_SERIAL_HI_SERIAL)
  (((m.setAct b).takeWhole parts).1.takeFlags (List.range 146)).dacFigures

/-- A word of the tables as they are read (R404): the CRC of the set in force is over what it holds. -/
def tableWord (b : List (Nat × Nat)) (a : Nat) : Nat :=
  if a = forceBase + 0x5FFC then crc32c (bankBytes b forceBase 0x5FFC) else bankWord b a

/-- Every background delta of the slices inside a SCOPE is set to zero (R407). -/
def Mach.clearBg (m : Mach) (scope : Nat) : Mach :=
  { m with cal := { m.cal with bg := m.cal.bg.filter fun e => !(match scopeOf (0x40 + 8 * (e.1 / 3)) with | some s => bitOf scope s | none => false) } }

/-- The background deltas after a measurement (R411): B ← B + round(e / 2^BG_SH), within ±256, for the kinds given as (kind, measured). -/
def Mach.bgUpdate (m : Mach) (slice : Nat) (xs : List (Nat × Int)) : Mach :=
  let sh := m.get F.CAL_CTRL_BG_SH
  let bg := xs.foldl (fun bg x =>
    let c := coef16 (0x40 + 8 * slice + 2 * x.1) 1 0
    let e := x.2 - c.read m.regs.act forceBase
    mapPut 0 bg (3 * slice + x.1) (clampInt (-256) 256 (mapGet 0 bg (3 * slice + x.1) + roundAway e (2 ^ sh)))) m.cal.bg
  let m := ({ m with cal := { m.cal with bg := bg } }).bump F.CAL_BG_CNT_COUNT
  (m.put F.CAL_BG_LAST_SLICE slice).put F.CAL_BG_LAST_OFS (codeOf 16 ((xs.headD (0, 0)).2))

end Sys2Proof.Machine
end

