-- ==== Sys2Proof/Machine/Take.lean ====
section
/-!
DEFINITION. Machine/Take.lean: how a port's samples are taken: its blocks and interleave positions (R174, R175), and the log of rangers' codes, correction
sets, gaps and marks from which sample words and block descriptors are formed (R147, R150, R151, R178 to R181, R184 to R186, R194).
-/
namespace Sys2Proof.Machine

/-! ### Acquisition state of a port -/

/-- The acquisition state of a port. -/
def Mach.acqOf (m : Mach) (p : Port) : Acq := m.acq.at p

/-- Change the acquisition state of a port. -/
def Mach.modAcq (m : Mach) (p : Port) (f : Acq → Acq) : Mach := { m with acq := m.acq.put p (f (m.acq.at p)) }

/-- Whether a port acquires: STATUS.RUNNING. -/
def Mach.running (m : Mach) (p : Port) : Bool := m.on (F.ESC_STATUS_RUNNING (portIx p))

/-- Whether a port forms blocks: it acquires and is not in a restart interval (R151, R175). -/
def Mach.blocksRun (m : Mach) (p : Port) : Bool := m.running p && !m.on (F.ESC_STATUS_RESTARTING (portIx p))

/-- Device time of an instant on the TIS count, past or to come. -/
def Mach.timeOf (m : Mach) (edge : Nat) : Nat :=
  if edge ≤ m.count then m.timeAt edge else m.now + (m.clk.frac + devStep m.trim (edge - m.count)) / 2 ^ 32

/-! ### Samples and blocks: positions are half cycles of the TIS count -/

/-- The present position. -/
def Mach.half (m : Mach) : Nat := 2 * m.count

/-- Half cycles from a sample to the next (R175). -/
def sampleStep (wide : Bool) : Nat := if wide then 1 else 2

/-- Where block b begins, for an acquisition whose first t_B is at TIS count t0. -/
def blockAt (t0 : Nat) (wide : Bool) (b : Nat) : Nat := 2 * t0 + 16 * sampleStep wide * b

/-- The block that holds a position. -/
def blockOf (t0 : Nat) (wide : Bool) (h : Nat) : Nat := (h - 2 * t0) / (16 * sampleStep wide)

/-- The first block that begins at or after a position. -/
def blockFrom (t0 : Nat) (wide : Bool) (h : Nat) : Nat := ceilDiv (h - 2 * t0) (16 * sampleStep wide)

/-- A sample's number in the run of interleave positions: modulo 16, in wideband mode modulo 32 (R175). -/
def posAt (t0 : Nat) (wide : Bool) (h : Nat) : Nat := (h - 2 * t0) / sampleStep wide % (if wide then 32 else 16)

/-- The group of a port (0 to 3) and the interleave position that takes input i (0 XI, 1 XQ, 2 YI, 3 YQ) of a sample (R174, R175): in wideband mode odd samples
come from the groups of Y. -/
def groupOf (wide : Bool) (i pos : Nat) : Nat × Nat := if wide then (i + 2 * (pos % 2), pos / 2 % 16) else (i, pos % 16)

/-- The input that a group serves (Table 08-2). -/
def groupInput (wide : Bool) (g : Nat) : Nat := if wide then g % 2 else g

/-- The inputs in use (R13). -/
def inputsOf (wide : Bool) : List Nat := if wide then [0, 1] else [0, 1, 2, 3]

/-! ### The log -/

/-- The entries of a list, newest first, down to the one in force at `need`. -/
def keepFrom {α : Type} (f : α → Nat) (need : Nat) : List α → List α
  | [] => []
  | x :: r => if f x ≤ need then [x] else x :: keepFrom f need r

/-- Whether a mark on `key` holds at a position. -/
def MarkSpan.holds (x : MarkSpan) (key h : Nat) : Bool :=
  x.key == key && decide (x.from_ ≤ h) && (match x.to_ with | none => true | some t => decide (h < t))

/-- The open marks on `key` end at a position. -/
def endMarks (l : List MarkSpan) (key h : Nat) : List MarkSpan :=
  l.map fun x => if x.key = key ∧ x.to_ = none then { x with to_ := some h } else x

/-- The marks that still hold at `need` or later. -/
def keepMarks (need : Nat) (l : List MarkSpan) : List MarkSpan :=
  l.filter fun x => match x.to_ with | none => true | some t => decide (need < t)

/-- What of a log a position `need` or a later one still uses. -/
def TakeLog.keep (need : Nat) (g : TakeLog) : TakeLog :=
  { gx := keepFrom (·.from_) need g.gx, gy := keepFrom (·.from_) need g.gy, sets := keepFrom (·.from_) need g.sets
    gaps := g.gaps.filter fun x => decide (need < x.tB)
    cmf := keepMarks need g.cmf, bad := keepMarks need g.bad, fail := keepMarks need g.fail }

/-- The ranger's code at a position. -/
def gainAt (l : List GainSpan) (h : Nat) : GainSpan := ((l.find? fun x => decide (x.from_ ≤ h)).orElse fun _ => l.getLast?).getD ⟨0, 0, 0⟩

/-- The correction set and map that a sample is taken with (R180, R194). -/
def TakeLog.setAt (g : TakeLog) (h : Nat) : SetSpan :=
  ((g.sets.find? fun x => decide (x.from_ ≤ h)).orElse fun _ => g.sets.getLast?).getD ⟨0, 0, [], []⟩

/-- The gap that a position lies in, up to the t_B that ends it. -/
def TakeLog.gapAt (g : TakeLog) (h : Nat) : Option LendSpan := g.gaps.find? fun x => decide (x.from_ ≤ h) && decide (h < x.tB)

/-- The slice that takes input i of the sample at a position: the group's spare when it serves the position for good or is lent to it (R174, R181, R184,
R185). -/
def TakeLog.sliceAt (g : TakeLog) (p : Port) (wide : Bool) (t0 i h : Nat) : Nat :=
  let (gr, j) := groupOf wide i (posAt t0 wide h)
  let base := 17 * (4 * portIx p + gr)
  let lent := match g.gapAt h with
    | some x => x.sub == j && x.groups.getD gr false && (decide (h < x.to_) || x.held.contains gr)
    | none => false
  if (g.setAt h).pos.getD gr 31 = j || lent then base + 16 else base + j

/-- The gap whose blocks a block belongs to: the block lies in it whole (R122, R181). -/
def TakeLog.gapOf (g : TakeLog) (wide : Bool) (t0 b : Nat) : Option LendSpan :=
  g.gaps.find? fun x => decide (x.from_ ≤ blockAt t0 wide b) && decide (blockAt t0 wide (b + 1) ≤ x.to_)

/-- Whether an input's group has failed twice (boundary of R185). -/
def TakeLog.failed (g : TakeLog) (p : Port) (wide : Bool) (i h : Nat) : Bool :=
  (List.range 4).any fun gr => groupInput wide gr == i && g.fail.any (MarkSpan.holds · (4 * portIx p + gr) h)

/-- Whether a sample of a block was taken by a slice that has failed the watchdog (R184). -/
def TakeLog.badBlock (g : TakeLog) (p : Port) (wide : Bool) (t0 b : Nat) : Bool :=
  g.bad.any fun x => (List.range 16).any fun k =>
    let h := blockAt t0 wide b + sampleStep wide * k
    x.holds x.key h && (inputsOf wide).any fun i => g.sliceAt p wide t0 i h == x.key

/-- The descriptor of a block (Table 08-5). A block that holds a t_B carries the generation and the marks of its first sample: the spec does not say which
(DESIGN CHOICE, log entry 83). -/
def TakeLog.descAt (g : TakeLog) (p : Port) (wide : Bool) (t0 b : Nat) : Nat :=
  let h := blockAt t0 wide b
  let fails := (inputsOf wide).filter fun i => g.failed p wide i h
  let cmf := (inputsOf wide).filter fun i => fails.contains i || g.cmf.any (MarkSpan.holds · i h)
  2 ^ 11 * ((g.setAt h).gen % 32) + sumNat (cmf.map fun i => 2 ^ (7 + i)) + 2 ^ 6 * bit (!fails.isEmpty || g.badBlock p wide t0 b) +
    2 ^ 5 * bit (g.gapOf wide t0 b).isSome + (match g.gapOf wide t0 b with | some x => x.sub | none => 31)

/-- Whether the slice of a sample is powered down in a gap (R186): neither a spare nor a slice under measurement takes samples then. -/
def TakeLog.downAt (g : TakeLog) (p : Port) (wide : Bool) (t0 i h : Nat) : Bool :=
  match g.gapAt h with
  | some x => x.gate && decide (h < x.wake) && g.sliceAt p wide t0 i h % 17 != 16
  | none => false

/-- The word of input i of the sample at a position (Table 08-3): the clamp flag, the settle flag, the ranger's code in force, and the slice's code, zero while
the slice is powered down. -/
def TakeLog.wordAt (g : TakeLog) (p : Port) (wide : Bool) (t0 i h : Nat) (clamp : Bool) (raw : Nat) : Nat :=
  let s := gainAt (if i < 2 then g.gx else g.gy) h
  2 ^ 15 * bit clamp + 2 ^ 14 * bit (decide (h < s.settle)) + 2 ^ 12 * (s.code % 4) + (if g.downAt p wide t0 i h then 0 else raw % 4096)

/-- The clamp flags of a run of samples from where the clamp conducts, and the samples still to be flagged after it (R150): a clamp flags its samples and the 16
that follow. -/
def clampRun : Nat → List Bool → List Bool × Nat
  | c, [] => ([], c)
  | c, x :: t =>
    let r := clampRun (if x then 16 else c - 1) t
    ((x || decide (0 < c)) :: r.1, r.2)

/-! ### Keeping the log -/

/-- Change the log of a port. -/
def Mach.modLog (m : Mach) (p : Port) (f : TakeLog → TakeLog) : Mach := m.modAcq p fun a => { a with log := f a.log }

/-- The first position that an unformed tick or a raw window of a port still needs. -/
def Mach.logNeed (m : Mach) (p : Port) : Nat :=
  let a := m.acqOf p
  let ticks := (a.launches.filter fun l => decide (l.formed < l.set.range)).map fun l => 2 * l.edge - 2048
  let raw := match m.adc.raw with
    | some w => if w.port = p then w.taken.map fun b => blockAt b.t0 b.wide (b.block - 1) else []
    | none => []
  (ticks ++ raw).foldl min (2 * a.edge0 - 2048)

/-- Forget what nothing needs any more. -/
def Mach.trimLog (m : Mach) (p : Port) : Mach := let n := m.logNeed p; m.modLog p (TakeLog.keep n)

/-- The set and the map in force are taken from a position on, when they differ from the latest. -/
def Mach.noteSet (m : Mach) (p : Port) (h gen : Nat) (bank : List (Nat × Nat)) (pos : List Nat) : Mach :=
  m.modLog p fun g =>
    match g.sets.head? with
    | some x => if x.gen = gen ∧ x.bank = bank ∧ x.pos = pos then g else { g with sets := ⟨h, gen, bank, pos⟩ :: g.sets }
    | none => { g with sets := ⟨h, gen, bank, pos⟩ :: g.sets }

/-- A ranger's code applies from a position on. -/
def Mach.noteGain (m : Mach) (p : Port) (y : Pol) (x : GainSpan) : Mach :=
  m.modLog p fun g => match y with | .X => { g with gx := x :: g.gx } | .Y => { g with gy := x :: g.gy }

/-- The position at which a polarisation's present block, number `b`, begins. -/
def Mach.blockPos (m : Mach) (p : Port) (b : Nat) : Nat := blockAt (m.acqOf p).t0 (m.acqOf p).set.wide b

end Sys2Proof.Machine
end

