-- ==== Sys2Proof/Machine/Shots.lean ====
section
/-!
DEFINITION. Machine/Shots.lean: the shot schedule (R21, R220 to R223): which ports take the next shot, the shot span, and the instant at which it falls.
-/
namespace Sys2Proof.Machine

/-- The Raman path of a port. -/
def Mach.ramanOf (m : Mach) (p : Port) : Raman := m.dts.at p

/-- Change the Raman path of a port. -/
def Mach.modRaman (m : Mach) (p : Port) (f : Raman → Raman) : Mach := { m with dts := m.dts.put p (f (m.dts.at p)) }

/-- Change the frame in progress of a port. -/
def Mach.modFrame (m : Mach) (p : Port) (f : RFrame → RFrame) : Mach := m.modRaman p fun r => { r with frame := f r.frame }

/-- Whether the Raman path of a port is enabled. -/
def Mach.ramanOn (m : Mach) (p : Port) : Bool := m.on (F.AFE_RFE_CTRL_EN (portIx p))

/-- Whether the energy trip of a port holds its RTRIG low (R140, R224). -/
def Mach.tripped (m : Mach) (p : Port) : Bool := m.on (F.ESC_STATUS_TRIPPED (portIx p))

/-- Whether an on-command run is in progress: until its result has been written (R417). -/
def Mach.calBusy (m : Mach) : Bool := m.cal.scope != 0

/-- Whether a port takes part in the next shot: enabled, not tripped, not waiting for the other port's boundary (R224, R225),
not held by scope 5 of an on-command calibration (R418). -/
def Mach.inFrame (m : Mach) (p : Port) : Bool := m.ramanOn p && !m.tripped p && !(m.ramanOf p).waits && !m.cal.todo.contains 5

/-- The ports that take part in the next shot. -/
def Mach.shotPorts (m : Mach) : List Port := [Port.A, Port.B].filter m.inFrame

/-- The shot span in cycles (R221). -/
def Mach.shotSpan (m : Mach) : Nat :=
  let n (p : Port) : Nat := if m.ramanOn p then m.get (F.AFE_RFE_NBIN_N_BIN (portIx p)) else 0
  m.get F.AFE_RFE_BIN_BIN_DLY + max (n .A) (n .B) * m.get F.AFE_RFE_BIN_BIN_K + 32

/-- The port whose beats shots are locked to, while it runs (R220, R222). -/
def Mach.lockPort (m : Mach) : Option Port :=
  match m.get F.DTS_SHOT_CTRL_MODE with
  | 1 => if m.blocksRun .A then some .A else none
  | 2 => if m.blocksRun .B then some .B else none
  | _ => none

/-- Device time up to which the next shot waits (R132, R226): the later of the ends of the idle interval and of a participating port's switch settle. -/
def Mach.shotWait (m : Mach) : Nat :=
  let idle := [Port.A, Port.B].map fun p => if (m.ramanOf p).idle then (m.ramanOf p).idleEnd else 0
  let settle := m.shotPorts.map fun p => (m.ramanOf p).settleEnd
  (idle ++ settle).foldl max 0

/-- Whether an instant on the TIS count lies at or after a device time. -/
def Mach.notBefore (m : Mach) (edge time : Nat) : Bool :=
  if m.now < time then decide (m.count + m.cyclesUntil time ≤ edge) else m.count ≤ edge || decide (time ≤ m.timeAt edge)

/-- TIS count from which the next shot instant may fall (R221, R222): after the last instant, and a span or more after the last shot. -/
def Mach.shotFrom (m : Mach) : Nat := max (match m.inst with | some e => e + 1 | none => 0) (match m.shotAt with | some e => e + m.shotSpan | none => 0)

/-- TIS count of the next shot instant (R220 to R222): the locked instant of the locked port's present beat, or the next of the grid of T_SHOT; after the last
instant, a span or more after the last shot, and after what the shot waits for. None when the present beat holds no such instant. -/
def Mach.shotNext (m : Mach) : Option Nat :=
  let from_ := m.shotFrom
  match m.lockPort with
  | some p =>
    let a := m.acqOf p
    let e := a.edge0 + m.get F.DTS_LOCK_OFS_CYCLES
    if a.beat % max (m.get F.DTS_SHOT_CTRL_LOCK_DIV) 1 == 0 && decide (from_ ≤ e) && m.notBefore e m.shotWait then some e else none
  | none =>
    let at_ := max from_ (m.count + m.cyclesUntil m.shotWait)
    let period := max (m.get F.DTS_T_SHOT_CYCLES) 1
    some (if at_ ≤ m.grid then m.grid else m.grid + ceilDiv (at_ - m.grid) period * period)

/-- TIS count of the next shot instant, in the present beat of the locked port or in a later one. -/
def Mach.shotAfter (m : Mach) : Option Nat :=
  match m.shotNext, m.lockPort with
  | some e, _ => some e
  | none, some p =>
    let a := m.acqOf p
    let div := max (m.get F.DTS_SHOT_CTRL_LOCK_DIV) 1
    let tb := a.set.tl * a.set.n
    let first := a.edge0 + (div - a.beat % div) * tb + m.get F.DTS_LOCK_OFS_CYCLES
    let at_ := max m.shotFrom (m.count + m.cyclesUntil m.shotWait)
    some (if at_ ≤ first then first else first + ceilDiv (at_ - first) (max (div * tb) 1) * (div * tb))
  | none, none => none

/-- The interval in which a Raman slice may be measured (R412): from the last bin conversion of the last shot to 50 ns before the next; its start on the TIS count
and its cycles. -/
def Mach.shotGap (m : Mach) : Option (Nat × Nat) :=
  match m.shotAt, m.shotAfter with
  | some e, some next =>
    let from_ := e + m.shotSpan - 32
    if m.shotPorts.isEmpty then none else some (from_, next - 60 - from_)
  | _, _ => none

end Sys2Proof.Machine
end

