-- ==== Sys2Proof/Machine/Adc.lean ====
section
/-!
DEFINITION. Machine/Adc.lean: the conversion array (chapter 08): the slice map, failures and retirement (R183 to R185), background rotation (R181,
R182) with the measurements of R410 to R412, and raw windows (R188 to R190).
-/
namespace Sys2Proof.Machine

/-! ### Marks and the Raman path -/

/-- The ticks of the present beat carry CONV_SUSPECT (R184). -/
def Mach.markSuspect (m : Mach) (p : Port) : Mach :=
  if m.running p then
    m.modAcq p fun a => { a with suspect := some a.beat, launches := a.launches.map fun l => if l.acq = a.acqNo ∧ l.beat = a.beat then { l with suspect := true } else l }
  else m

/-! ### The slice map -/

/-- The port that a coherent group serves. -/
def groupPort (g : Nat) : Port := ixPort (g / 4)

/-- SPARE_POS of a group: 31 when its spare serves nothing for good. -/
def Mach.sparePos (m : Mach) (g : Nat) : Nat := m.get (F.ADC_GRP_MAP_SPARE_POS g)

/-- Whether a slice is in the retired set. -/
def Mach.sliceRetired (m : Mach) (s : Nat) : Bool :=
  if s < 136 then bitOf (m.get (F.ADC_GRP_MAP_RETIRED (s / 17))) (s % 17) else bitOf (m.get F.ADC_RAMAN_MAP_RETIRED) (s - 136)

/-- Whether a group's spare is free: it serves no position and is not retired (R181, R182). -/
def Mach.spareFree (m : Mach) (g : Nat) : Bool := m.sparePos g == 31 && !m.sliceRetired (17 * g + 16)

/-- A group that fails a second time (boundary of R185): from the first block after, its port's blocks carry BAD, and CMF on its input. -/
def Mach.groupFail (m : Mach) (g slice cause : Nat) : Mach :=
  let p := groupPort g
  let h := m.blockPos p (blockFrom (m.acqOf p).t0 (m.acqOf p).set.wide m.half)
  let m := (m.putBit F.ADC_STATUS_GROUP_FAIL g true).modLog p fun l => { l with fail := ⟨g, h, none⟩ :: l.fail }
  m.emit 8 2 0 (evArg slice cause 0)

/-- Change the conversion array. -/
def Mach.modAdc (m : Mach) (f : Adc → Adc) : Mach := { m with adc := f m.adc }

/-- Whether a slice is connected to the calibration DAC in its port's lending interval (R181). -/
def Mach.measuring (m : Mach) (s : Nat) : Bool :=
  let g := s / 17
  decide (s < 136) && (m.acqOf (groupPort g)).lending && m.spareFree g && s % 17 == (m.acqOf (groupPort g)).gaps % 17

/-- After a watchdog failure a coherent slice's samples are bad from the conversion that did not complete in its 16 cycles (R184, Table 08-6). -/
def Mach.failMarks (m : Mach) (s cause : Nat) : Mach :=
  let h := m.half - 32
  if cause = 5 then m.modLog (groupPort (s / 17)) fun l => { l with bad := ⟨s, h, none⟩ :: l.bad } else m

/-- When a slice that is to be retired is under measurement, the lending that serves its position goes on to t_B (boundary of R185). -/
def Mach.holdLent (m : Mach) (s : Nat) : Mach :=
  if m.measuring s && s % 17 != 16 then
    m.modLog (groupPort (s / 17)) fun l => { l with gaps := match l.gaps with | [] => [] | x :: r => { x with held := s / 17 % 4 :: x.held } :: r }
  else m

/-- A slice fails (R183): recorded and counted; with AUTO, or on a host's request, it is to be retired; otherwise SLICE_FAIL alone. -/
def Mach.sliceFail (m : Mach) (s cause : Nat) : Mach :=
  if m.sliceRetired s || m.adc.pend.any fun x => x.slice == s then m
  else
    let m := ((m.put F.ADC_LAST_FAIL_SLICE s).put F.ADC_LAST_FAIL_CAUSE cause).bump F.ADC_FAIL_CNT_COUNT
    let m := if s < 136 then m.failMarks s cause else m
    if !m.on F.ADC_SPARE_POLICY_AUTO && cause != 6 then m.emit 8 0 0 (evArg s cause 0)
    else if s < 136 then
      let g := s / 17
      let m := m.markSuspect (groupPort g)
      -- a second slice of the group, or its serving spare
      if m.sparePos g ≠ 31 ∨ (s % 17 ≠ 16 ∧ !m.spareFree g) ∨ m.adc.pend.any (fun x => x.slice / 17 == g) then m.groupFail g s cause
      else (m.holdLent s).modAdc fun a => { a with pend := a.pend ++ [⟨s, cause⟩] }
    else
      let serves := if s < 144 then s - 136 else if s = 144 then m.get F.ADC_RAMAN_MAP_SPARE0_FOR else m.get F.ADC_RAMAN_MAP_SPARE1_FOR
      let m := if serves < 8 then m.modFrame (ixPort (serves / 4)) fun f => { f with suspect := true } else m
      m.modAdc fun a => { a with pend := a.pend ++ [⟨s, cause⟩] }

/-- Retire the coherent slices of a port that wait, at its t_B (R184): the group's spare takes the position for good. NO_SPARE is set too when the slice is the idle
spare itself: the group has no spare then, and R182 speaks of a spare that serves a position alone (DESIGN CHOICE, log entry 83). -/
def Mach.retireCoherent (m : Mach) (p : Port) : Mach :=
  let (now, later) := m.adc.pend.partition fun x => decide (x.slice < 136) && groupPort (x.slice / 17) == p
  let m := m.modAdc fun a => { a with pend := later }
  let h := if m.running p then 2 * (m.acqOf p).edge0 else m.half
  now.foldl (fun m x =>
    let g := x.slice / 17
    let m := m.modLog p fun l => { l with bad := endMarks l.bad x.slice h }
    let m := m.putBit (F.ADC_GRP_MAP_RETIRED g) (x.slice % 17) true
    let m := if x.slice % 17 = 16 then m else m.put (F.ADC_GRP_MAP_SPARE_POS g) (x.slice % 17)
    let m := m.putBit F.ADC_STATUS_NO_SPARE g true
    m.emit 8 1 0 (evArg x.slice x.cause 0)) m

/-- SPARE_POS of the four groups of a port. -/
def Mach.groupPos (m : Mach) (p : Port) : List Nat := (List.range 4).map fun g => m.sparePos (4 * portIx p + g)

/-- The words of the coherent coefficients (offsets 0x40 to 0x640 of the set in force). -/
def coherentBank (b : List (Nat × Nat)) : List (Nat × Nat) :=
  b.filter fun x => decide (32 * (forceBase + 0x40) ≤ x.1) && decide (x.1 < 32 * (forceBase + 0x640))

/-- CORR_GEN of a port. -/
def corrGen (p : Port) : Fld := match p with | .A => F.ADC_CORR_GEN_A_GEN | .B => F.ADC_CORR_GEN_B_GEN

/-- The coherent boundary of a port (R180, R184): failed slices retire, the candidate is taken, and when a coefficient or the map changed the generation
counts; the samples of a running port are taken with them from its t_B on. -/
def Mach.coherentBoundary (m : Mach) (p : Port) (whole : Bool) : Mach :=
  let pos := m.groupPos p
  let (m, ch) := (m.retireCoherent p).coherentTake p whole
  let m := if ch || m.groupPos p != pos then m.put (corrGen p) (m.get (corrGen p) + 1) else m
  if m.running p then m.noteSet p (2 * (m.acqOf p).edge0) (m.get (corrGen p)) (coherentBank m.regs.act) (m.groupPos p) else m

/-- The integrator (0 to 7) that a Raman slice serves. -/
def Mach.integratorOf (m : Mach) (s : Nat) : Option Nat :=
  let n := if s < 144 then s - 136 else if s = 144 then m.get F.ADC_RAMAN_MAP_SPARE0_FOR else m.get F.ADC_RAMAN_MAP_SPARE1_FOR
  if n < 8 then some n else none

/-- Replace one failed Raman slice (R185): by slice 144, or 145 if 144 serves or is retired; with neither, the integrator's bins carry INV. -/
def Mach.retireRaman1 (m : Mach) (x : SliceFault) : Mach :=
  let serves := m.integratorOf x.slice
  let m := m.putBit F.ADC_RAMAN_MAP_RETIRED (x.slice - 136) true
  let m := if x.slice = 144 then m.put F.ADC_RAMAN_MAP_SPARE0_FOR 15 else if x.slice = 145 then m.put F.ADC_RAMAN_MAP_SPARE1_FOR 15 else m
  match serves with
  | none => m.emit 8 1 0 (evArg x.slice x.cause 0)
  | some i =>
    let free0 := m.get F.ADC_RAMAN_MAP_SPARE0_FOR == 15 && !m.sliceRetired 144
    let free1 := m.get F.ADC_RAMAN_MAP_SPARE1_FOR == 15 && !m.sliceRetired 145
    if free0 then ((m.put F.ADC_RAMAN_MAP_SPARE0_FOR i).put F.ADC_STATUS_RSPARE_USED (1 + bit (m.get F.ADC_RAMAN_MAP_SPARE1_FOR != 15))).emit 8 1 0 (evArg x.slice x.cause 0)
    else if free1 then ((m.put F.ADC_RAMAN_MAP_SPARE1_FOR i).put F.ADC_STATUS_RSPARE_USED (1 + bit (m.get F.ADC_RAMAN_MAP_SPARE0_FOR != 15))).emit 8 1 0 (evArg x.slice x.cause 0)
    else ((m.putBit F.ADC_RAMAN_MAP_FAIL i true).put F.ADC_STATUS_RSPARE_USED
      (bit (m.get F.ADC_RAMAN_MAP_SPARE0_FOR != 15) + bit (m.get F.ADC_RAMAN_MAP_SPARE1_FOR != 15))).emit 8 2 0 (evArg x.slice x.cause 0)

/-- Replace the Raman slices that wait and serve a port, at its frame boundary (R185). -/
def Mach.retireRaman (m : Mach) (p : Port) : Mach :=
  let mine (x : SliceFault) : Bool := decide (136 ≤ x.slice) && (match m.integratorOf x.slice with | some i => ixPort (i / 4) == p | none => false)
  let (now, later) := m.adc.pend.partition mine
  (m.modAdc fun a => { a with pend := later }) |> fun m => now.foldl (fun m x => m.retireRaman1 x) m

/-- Replace the Raman spares that wait and serve nothing, at a module boundary. -/
def Mach.retireSpares (m : Mach) : Mach :=
  let (now, later) := m.adc.pend.partition fun x => decide (136 ≤ x.slice) && (m.integratorOf x.slice).isNone
  (m.modAdc fun a => { a with pend := later }) |> fun m => now.foldl (fun m x => m.retireRaman1 x) m

/-- A write of SPARE_CTRL with KEY and RETIRE (R183, cause HOST); 146 and above are reserved. -/
def Mach.sliceRetireWrite (m : Mach) (w : Nat) : Mach :=
  if bitsOf w 31 16 = 0x5AFE ∧ bitOf w 8 ∧ w % 256 < 146 then m.sliceFail (w % 256) 6 else m

/-! ### Background -/

/-- The port's slices are powered down in lending intervals: GATE with N = 1 on a running port (R186). -/
def Mach.gated (m : Mach) (p : Port) : Bool := m.on F.ADC_CTRL_GATE && m.plan p 2 1 == 1

/-- The Raman slices of a port are powered down between shots (R187): from the end of the last bin conversion of the latest shot to 50 ns before bin 0 of the
next. -/
def Mach.ramanGated (m : Mach) (p : Port) : Bool :=
  m.on F.ADC_CTRL_RGATE && m.ramanOn p &&
  (match m.shotAt with
   | none => false
   | some e => decide (e + m.get F.AFE_RFE_BIN_BIN_DLY + m.get (F.AFE_RFE_NBIN_N_BIN (portIx p)) * m.get F.AFE_RFE_BIN_BIN_K + 32 ≤ m.count) &&
     (match m.shotAfter with
      | none => true
      | some n => decide (m.count + 60 < n + m.get F.AFE_RFE_BIN_BIN_DLY)))

/-- Whether a Raman slice is under measurement (R412): the slice in turn, in the first 0.853 µs of an interval of 1 µs or more between two shots that has not been
used. -/
def Mach.ramanMeasuring (m : Mach) (s : Nat) : Bool :=
  match m.shotGap with
  | none => false
  | some (from_, len) => m.on F.CAL_CTRL_RBG_EN && !m.on F.CAL_STATUS_DAC_BUSY && decide (1200 ≤ len) && m.adc.rdone != m.shotAt && s == m.adc.rturn &&
      decide (from_ ≤ m.count) && decide (m.count ≤ from_ + 1024)

/-- Whether a slice is powered down (R184, R186, R187, R412): every slice of a stopped port, the gated slices of a lending interval but for spares and slices under
measurement, Raman slices between shots but for 144, 145 and the one under measurement, and retired slices. -/
def Mach.sliceOff (m : Mach) (s : Nat) : Bool :=
  if m.sliceRetired s then true
  else if s < 136 then
    let p := groupPort (s / 17)
    if !m.running p then true
    else match (m.acqOf p).log.gapAt m.half with
      | some x => x.gate && decide (m.half < x.wake) && s % 17 != 16 && !m.measuring s
      | none => false
  else match m.integratorOf s with
    | some i => decide (s < 144) && m.ramanGated (ixPort (i / 4)) && !m.ramanMeasuring s
    | none => false

/-- CONVERSION_WATCHDOG (R183, cause WDOG). A slice that is powered down converts nothing. -/
def Mach.convWatchdog (m : Mach) (s : Nat) : Mach := if s < 146 && !m.sliceOff s then m.sliceFail s 5 else m

/-- Whether any port's slices are gated (R431). -/
def Mach.gating (m : Mach) : Bool :=
  ((m.acqOf .A).lending && m.gated .A) || ((m.acqOf .B).lending && m.gated .B) || m.ramanGated .A || m.ramanGated .B

/-- SYS.PWR_STATE between RUN and BEAT-IDLE (R431). -/
def Mach.syncIdle (m : Mach) : Mach :=
  if m.get F.SYS_PWR_STATE_PSTATE ≤ 1 then m.put F.SYS_PWR_STATE_PSTATE (bit m.gating) else m

/-- T_comp of a port's settings in cycles (R121): 1 / BW of the narrowest sub-band, rounded up. -/
def PipeSet.tComp (u : PipeSet) : Nat :=
  let bws := u.bands.map fun b => b.getD 1 0
  ceilDiv 1200000 (max (bws.foldl min (bws.headD 1)) 1)

/-- TIS count at which the fibre-end gap of a port's present beat begins (R122), and at which its next t_B falls. -/
def Acq.gapEdge (a : Acq) : Nat := a.edge0 + a.set.range * a.set.d + a.set.tComp

/-- TIS count of a port's next t_B. -/
def Acq.nextEdge (a : Acq) : Nat := a.edge0 + a.set.tl * a.set.n

/-- GAP_LENDING_START (R181, R186): the fibre-end gap of the present beat begins, at t_B + RT_cfg + T_comp (R122): its rotation position is lent by every group
with a free spare, from the first block boundary in the gap to the last at or before the next t_B; gated slices wake at the last boundary at or before t_B − 50 ns.
Nothing is lent while a scope holds the calibration DAC (R413). The blocks carry SUB = r for r = 16, and when no group has a free spare, as well: R181 says so of
every lending interval, while Table 08-5 has 31 where none is lent (DESIGN CHOICE, log entry 83). -/
def Mach.lendStart (m : Mach) (p : Port) : Mach :=
  let a := m.acqOf p
  if !m.blocksRun p || a.lent then m
  else
    let m := m.reach a.gapEdge
    let r := a.gaps % 17
    let m := m.put (match p with | .A => F.ADC_ROT_ROT_A | .B => F.ADC_ROT_ROT_B) r
    let busy := m.on F.CAL_STATUS_DAC_BUSY
    let t0 := a.t0
    let w := a.set.wide
    let x : LendSpan := {
      from_ := blockAt t0 w (blockFrom t0 w (2 * a.gapEdge)), to_ := blockAt t0 w (blockOf t0 w (2 * a.nextEdge)), tB := 2 * a.nextEdge
      sub := if busy then 31 else r
      groups := (List.range 4).map fun g => !busy && decide (r < 16) && m.spareFree (4 * portIx p + g)
      gate := m.gated p && !busy, wake := blockAt t0 w (blockOf t0 w (2 * a.nextEdge - 120)) }
    (m.modAcq p fun a => { a with lent := true, lending := !busy, log := { a.log with gaps := x :: a.log.gaps } }).syncIdle

/-- Lending on a port ends. -/
def Mach.lendStop (m : Mach) (p : Port) : Mach :=
  if (m.acqOf p).lending then (m.modAcq p fun a => { a with lending := false }).syncIdle else m

/-- LENDING_END (R181): at the last block boundary at or before the next t_B. -/
def Mach.lendEnd (m : Mach) (p : Port) : Mach :=
  let a := m.acqOf p
  if a.lending then (m.reach (match a.log.gaps.head? with | some x => x.to_ / 2 | none => m.count)).lendStop p else m

/-- The first cause of Table 08-6 that a measurement shows: OFFSET outside ±48 LSB, GAIN outside ±2 %, SKEW outside ±15 ps, BITS. -/
def measCause (ofs gain skew : Int) (stuck : Bool) : Nat :=
  if 768 < ofs.natAbs then 1
  else if 2 * 2 ^ 20 < 100 * gain.natAbs then 2
  else if 7500 < skew.natAbs then 3
  else if stuck then 4
  else 0

/-- BACKGROUND_MEASUREMENT (R410, R411). -/
def Mach.background (m : Mach) (s : Nat) (x : SliceMeas) (stuck : Bool) : Mach :=
  if !m.measuring s then m
  else
    let m := if m.on F.CAL_CTRL_BG_EN then (m.bgUpdate s [(0, x.ofs), (1, x.gain), (2, x.skew)]).saveRet else m
    let c := measCause x.ofs x.gain x.skew stuck
    if c = 0 then m else m.sliceFail s c

/-- RAMAN_BACKGROUND_MEASURE (R412): the next Raman slice in turn, once in an interval of 1 µs or more between two shots; steps 1 and 2 take 64 conversions. -/
def Mach.ramanBackground (m : Mach) (ofs gain : Int) (stuck : Bool) : Mach :=
  match m.shotGap with
  | none => m
  | some (from_, len) =>
  if !m.on F.CAL_CTRL_RBG_EN || m.on F.CAL_STATUS_DAC_BUSY || decide (len < 1200) || m.adc.rdone == m.shotAt then m
  else
    let m := m.reach (from_ + 1024)
    let s := m.adc.rturn
    let shot := m.shotAt
    let m := m.modAdc fun a => { a with rdone := shot, rturn := if s = 145 then 136 else s + 1 }
    if m.sliceRetired s then m
    else
      let m := (m.bgUpdate s [(0, ofs), (1, gain)]).saveRet
      let c := measCause ofs gain 0 stuck
      if c = 0 then m else m.sliceFail s c

/-! ### Raw windows -/

/-- Bytes of a block entry: 132 in normal mode, 68 in wideband (R189). -/
def Mach.entryBytes (m : Mach) (p : Port) : Nat := if m.plan p 4 1 = 1 then 68 else 132

/-- The first condition of Table 08-7 that refuses a window; 0 when none holds. -/
def Mach.rawRefusal (m : Mach) (p : Port) (start blocks beats : Nat) : Nat :=
  let perBeat := m.plan p 8 4 * (if m.plan p 4 1 = 1 then 2 else 1)
  if m.on F.ADC_RAW_STATUS_BUSY then 1
  else if perBeat < start + 16 * (blocks + 1) then 2
  else if m.get F.MC_RSV_SIZES_RAW_MIB * 2 ^ 20 < blocks * (beats + 1) * m.entryBytes p then 3
  else if !m.running p then 4
  else 0

/-- GO (R188, R190): a window is armed or refused. -/
def Mach.rawGo (m : Mach) : Mach :=
  let p := ixPort (m.get F.ADC_RAW_CTRL_PORT)
  let start := m.get F.ADC_RAW_START_START
  let blocks := m.get F.ADC_RAW_LEN_BLOCKS
  let beats := m.get F.ADC_RAW_CTRL_BEATS
  let r := m.rawRefusal p start blocks beats
  if r ≠ 0 then (m.put F.ADC_RAW_STATUS_REJ 1).put F.ADC_RAW_STATUS_REJ_CODE r
  else
    let m := ((m.put F.ADC_RAW_STATUS_BUSY 1).put F.ADC_RAW_STATUS_CUT 0).put F.ADC_RAW_STATUS_BEATS_DONE 0
    m.modAdc fun a => { a with raw := some { port := p, start := start, blocks := blocks, beats := beats + 1, from_ := m.now + 10000 } }

/-- A t_B of a port passes for the raw window: the beat before is captured, and this one is taken while beats remain (R188). -/
def Mach.rawBeat (m : Mach) (p : Port) (beat : Nat) : Mach :=
  match m.adc.raw with
  | none => m
  | some w =>
    if w.port ≠ p ∨ w.ended then m
    else
      let m := m.put F.ADC_RAW_STATUS_BEATS_DONE w.taken.length
      if w.taken.length = w.beats then m.modAdc fun a => { a with raw := some { w with ended := true } }
      else if m.now < w.from_ then m
      else
        let ep := m.epochOf (portIx p)
        let x := m.acqOf p
        let lsb := if m.tisEnabled (portIx p) then ((x.edge0 * 1024 : Nat) + x.lmonLsb).toNat else x.edge0 * 1024
        let wide := x.set.wide
        let b := blockFrom x.t0 wide (2 * x.edge0 + sampleStep wide * w.start)
        let len := w.blocks * m.entryBytes p
        let pos := w.taken.length * len
        let m := m.rawStore pos len
        m.modAdc fun a => { a with raw := some { w with taken := w.taken ++ [{ acq := x.acqNo, beat := beat, t0 := x.t0, block := b, wide := wide, lsb := lsb, epoch := ep.1, part := ep.2, pos := pos, len := len, ticks := x.set.n }] } }

/-- The record flags of a launch's tick (R16, R184, R388): LMON_MISS, NO_LAUNCH, CONV_SUSPECT. -/
def Launch.flags (l : Launch) : Nat := 2 ^ 1 * bit l.missed + 2 ^ 3 * bit l.dark + 2 ^ 4 * bit l.suspect

/-- What the launches of a beat say of its record in a raw window (R16): the launch instant of its first tick and the flags of each tick. What a launch said that
the pipe has forgotten since stays. -/
def RawBeat.note (b : RawBeat) (ls : List Launch) : RawBeat :=
  (ls.filter fun l => l.acq == b.acq && l.beat == b.beat).foldl (fun b l =>
    { b with lsb := if l.k = 0 then l.lsb else b.lsb, marks := mapPut 0 b.marks l.k l.flags }) b

/-- The record flags of a beat's ticks together (R388). -/
def RawBeat.flags (b : RawBeat) : Nat := b.marks.foldl (fun f x => f ||| x.2) 0

/-- A launch of a port, or what became of it, is noted for the raw window. -/
def Mach.rawNote (m : Mach) (p : Port) : Mach :=
  m.modAdc fun a => { a with raw := a.raw.map fun w =>
    if w.port = p then { w with taken := w.taken.map fun b => b.note (m.acqOf p).launches } else w }

/-- A plan restart or a stop ends a window (R190). -/
def Mach.rawCut (m : Mach) (p : Port) : Mach :=
  match m.adc.raw with
  | none => m
  | some w =>
    if w.port ≠ p ∨ w.ended then m
    else
      let m := m.modAdc fun a => { a with raw := some { w with ended := true } }
      (m.put F.ADC_RAW_STATUS_BEATS_DONE w.taken.length).putB F.ADC_RAW_STATUS_CUT (decide (w.taken.length < w.beats))

/-- The clamp flags of an input over a beat of a window; the block before the window says what its clamp still flags (R150). -/
def rawFlags (l : List RawEntry) (j : Nat) : List Bool :=
  ((clampRun 0 (l.flatMap fun e => ((e.words.drop (16 * j)).take 16).map fun w => bitOf w.toNat 15)).1).drop 16

/-- The bytes of block `k` of a beat of a window (R189): its descriptor and number, and 16 words of each input in use. -/
def rawBlock (g : TakeLog) (p : Port) (b : RawBeat) (flags : List (List Bool)) (k : Nat) (e : RawEntry) : List Byte :=
  let h := blockAt b.t0 b.wide (b.block + k)
  let word (j s : Nat) : Nat :=
    g.wordAt p b.wide b.t0 j (h + sampleStep b.wide * s) ((flags.getD j []).getD (16 * k + s) false) (e.words.getD (16 * j + s) 0).toNat
  leBytes 2 (g.descAt p b.wide b.t0 (b.block + k)) ++ leBytes 2 k ++
    (inputsOf b.wide).flatMap fun j => (List.range 16).flatMap fun s => leBytes 2 (word j s)

/-- The blocks of a beat from number k up. -/
def rawBlocks (g : TakeLog) (p : Port) (b : RawBeat) (flags : List (List Bool)) : Nat → List RawEntry → List Byte
  | _, [] => []
  | k, e :: t => rawBlock g p b flags k e ++ rawBlocks g p b flags (k + 1) t

/-- The payload of one beat of a window (R189): `l` holds the block before the window and then its blocks. -/
def rawPayload (g : TakeLog) (p : Port) (b : RawBeat) (l : List RawEntry) : List Byte :=
  rawBlocks g p b ((inputsOf b.wide).map fun j => rawFlags l j) 0 (l.drop 1)

/-- Whether what a beat of a window brings has its form: the block before the window and the window's blocks, 16 codes of each input in use. -/
def rawFits (w : RawWin) (b : RawBeat) (l : List RawEntry) : Bool :=
  l.length == w.blocks + 1 && l.all fun e => e.words.length == 16 * (inputsOf b.wide).length

end Sys2Proof.Machine
end

