-- ==== Sys2Proof/Machine/Afe.lean ====
section
/-!
DEFINITION. Machine/Afe.lean: the front ends and the housekeeping converter (chapter 07): the rangers (R144 to R149), the clamp (R150) and the
common-mode monitor (R151, R152), APD bias (R159 to R163), and the HKC (R164 to R170).
-/
namespace Sys2Proof.Machine

/-! ### Rangers -/

/-- The ranger of a polarisation. -/
def Mach.ranger (m : Mach) (p : Port) (y : Pol) : Ranger := match y with | .X => (m.cfe.at p).x | .Y => (m.cfe.at p).y

/-- Replace the ranger of a polarisation. -/
def Mach.putRanger (m : Mach) (p : Port) (y : Pol) (r : Ranger) : Mach :=
  { m with cfe := m.cfe.put p (match y with | .X => { m.cfe.at p with x := r } | .Y => { m.cfe.at p with y := r }) }

/-- The gain code in force of a polarisation. -/
def gainFld (p : Port) (y : Pol) : Fld :=
  match y with | .X => F.AFE_CFE_STATUS_GAIN_X (portIx p) | .Y => F.AFE_CFE_STATUS_GAIN_Y (portIx p)

/-- The fixed gain code of a polarisation. -/
def fixFld (p : Port) (y : Pol) : Fld :=
  match y with | .X => F.AFE_CFE_CTRL_FIX_X (portIx p) | .Y => F.AFE_CFE_CTRL_FIX_Y (portIx p)

/-- Whether a port is in wideband mode (R13). -/
def Mach.wideband (m : Mach) (p : Port) : Bool := m.plan p 4 1 == 1

/-- The code of a sample word: 12 bits, two's complement. -/
def sampleCode (w : Half) : Int := signedOf 12 w.toNat

/-- Whether a sample word carries the clamp flag. -/
def sampleClamp (w : Half) : Bool := bitOf w.toNat 15

/-- The peak of a block: the largest |code| (R144). -/
def blockPeak (l : List Half) : Nat := l.foldl (fun b w => max b (sampleCode w).natAbs) 0

/-- Whether a block is saturated (R144). -/
def blockSaturated (l : List Half) : Bool :=
  l.any fun w => sampleCode w == -2048 || sampleCode w == 2047 || sampleClamp w

/-- Count one in byte `i` of a register of four byte counters. -/
def Mach.bumpQuad (m : Mach) (f : Fld) (i : Nat) : Mach := m.bumpByte f f i

/-- Decide a new gain code in block `blk` of a polarisation (R145, R147): it applies from the first sample two blocks on, that is when the next block ends, its
first four blocks carry the settle flag, and five blocks are not evaluated. -/
def Mach.decideGain (m : Mach) (p : Port) (y : Pol) (blk code : Nat) : Mach :=
  let m := m.noteGain p y ⟨m.blockPos p (blk + 2), code, m.blockPos p (blk + 6)⟩
  m.putRanger p y { m.ranger p y with low := 0, hold := 5, next := some code }

/-- Whether a block lies in a gap whose slices are powered down (R186): it is not evaluated and does not count toward H. -/
def Mach.blockDown (m : Mach) (p : Port) (blk : Nat) : Bool :=
  match (m.acqOf p).log.gapAt (m.blockPos p blk) with
  | some x => x.gate && decide (m.blockPos p blk < x.wake)
  | none => false

/-- The sample codes of a block of a polarisation with their clamp flags: 16 of I, then 16 of Q, with what a clamp flags in the blocks after (R150). -/
def clampBlock (r : Ranger) (l : List Half) : (List Bool × List Bool) × Ranger :=
  let i := clampRun r.clI ((l.take 16).map sampleClamp)
  let q := clampRun r.clQ ((l.drop 16).map sampleClamp)
  ((i.1, q.1), { r with clI := i.2, clQ := q.2 })

/-- A block of a polarisation ends (R144 to R150, R186): time comes to its end, blocks that hold a clamp flag are counted, a decided code applies in its time,
and the block is evaluated unless the ranger is on hold, its slices are powered down or the gains are fixed. `samples` holds 16 codes of the I input, then 16 of
the Q input, each with bit 15 where the clamp conducts. -/
def Mach.rangerBlock (m : Mach) (p : Port) (y : Pol) (samples : List Half) : Mach :=
  if !m.blocksRun p || (y == .Y && m.wideband p) then m
  else
    let blk := (m.ranger p y).blk
    let m := m.reach ((m.blockPos p (blk + 1) + 1) / 2)
    let base := match y with | .X => 0 | .Y => 2
    let cnt := F.AFE_CFE_CLAMP_CNT_BYTES (portIx p)
    let (fl, r) := clampBlock (m.ranger p y) samples
    let m := if fl.1.any id then m.bumpQuad cnt base else m
    let m := if fl.2.any id then m.bumpQuad cnt (base + 1) else m
    let r := { r with blk := blk + 1 }
    if m.on (F.AFE_CFE_CTRL_FIXED (portIx p)) then m.putRanger p y r
    else
      let (m, r) := match r.next with
        | some c => (m.put (gainFld p y) c, { r with next := none })
        | none => (m, r)
      if r.hold ≠ 0 then m.putRanger p y { r with hold := r.hold - 1 }
      else if m.blockDown p blk then m.putRanger p y r
      else
        let m := m.putRanger p y r
        let g := m.get (gainFld p y)
        let peak := blockPeak samples
        let sat := blockSaturated samples || fl.1.any id || fl.2.any id
        if (sat || 1792 < peak) && g != 0 then (m.bump (F.AFE_CFE_RANGE_CNT_DOWN (portIx p))).decideGain p y blk (if sat then 0 else g - 1)
        else if peak < 768 then m.putRanger p y { r with low := min (r.low + 1) (max (m.get (F.AFE_CFE_CTRL_H (portIx p))) 1) }
        else m.putRanger p y { r with low := 0 }

/-- The gain rises by one code after H low blocks in a row (R146). -/
def Mach.rangerUp (m : Mach) (p : Port) (y : Pol) : Mach :=
  let r := m.ranger p y
  let g := m.get (gainFld p y)
  if m.blocksRun p && !(y == .Y && m.wideband p) && !m.on (F.AFE_CFE_CTRL_FIXED (portIx p)) && r.hold == 0 && g < 3 &&
      decide (max (m.get (F.AFE_CFE_CTRL_H (portIx p))) 1 ≤ r.low) then
    (m.bump (F.AFE_CFE_RANGE_CNT_UP (portIx p))).decideGain p y (r.blk - 1) (g + 1)
  else m

/-- One polarisation at a t_B, at position `h`: fixed gains are those of FIX_X and FIX_Y; when FIXED applies as 0 the ranger continues from the code in force and its count starts
at zero; a change of a fixed code or of FIXED sets the settle flag on the first four blocks of the beat, of which the block that holds t_B is the first
(R148, log entry 64). -/
def Mach.rangerBeat (m : Mach) (p : Port) (wasFixed : Bool) (h : Nat) (y : Pol) : Mach :=
  let a := m.acqOf p
  let fixed := m.on (F.AFE_CFE_CTRL_FIXED (portIx p))
  let old := m.get (gainFld p y)
  let code := if fixed then m.get (fixFld p y) else old
  let m := if fixed || wasFixed then (m.put (gainFld p y) code).putRanger p y { m.ranger p y with low := 0, hold := 0, next := none } else m
  if wasFixed != fixed || (fixed && old != code) then
    m.noteGain p y ⟨h, code, blockAt a.t0 a.set.wide (blockOf a.t0 a.set.wide h + 4)⟩
  else m

/-- An input's time in its window begins anew (R152). -/
def Mach.cmSince (m : Mach) (p : Port) (i : Nat) : Mach :=
  let now := m.now
  { m with cfe := m.cfe.put p { m.cfe.at p with since := listPut (m.cfe.at p).since i now } }

/-- CM_FAULT_DECLARE (R151, R152): two consecutive blocks of an input end, with these averages of (V_P + V_N) / 2 in mV. Both outside the window from CM_LO to
CM_HI: the input is in fault, and its samples carry the mark from the first of the two blocks. A block outside the window restarts the recovery of an input in
fault. -/
def Mach.cmDeclare (m : Mach) (p : Port) (i : Nat) (avg0 avg1 : Int) : Mach :=
  let f := F.AFE_CFE_STATUS_CM_FAULT (portIx p)
  let outs (x : Int) : Bool := decide (x < 10 * m.get (F.AFE_CFE_CM_CM_LO (portIx p))) || decide ((10 * m.get (F.AFE_CFE_CM_CM_HI (portIx p)) : Int) < x)
  if m.blocksRun p && (inputsOf (m.wideband p)).contains i && bitOf (m.get (F.AFE_CFE_CM_MON_EN (portIx p))) i then
    if bitOf (m.get f) i then (if outs avg0 || outs avg1 then m.cmSince p i else m)
    else if outs avg0 && outs avg1 then
      let a := m.acqOf p
      let h := m.blockPos p (blockOf a.t0 a.set.wide m.half - 2)
      let m := (m.modLog p fun l => { l with cmf := ⟨i, h, none⟩ :: l.cmf }).cmSince p i
      ((m.putBit f i true).bumpQuad (F.AFE_CFE_FAULT_CNT_BYTES (portIx p)) i).emit (6 + portIx p) 0 (evPort p) (evArg i 0 0)
    else m
  else m

/-- The fault of an input ends (R152): its marks stop from the first block at or after a position. -/
def Mach.cmEnd (m : Mach) (p : Port) (i h : Nat) : Mach :=
  let f := F.AFE_CFE_STATUS_CM_FAULT (portIx p)
  let a := m.acqOf p
  let stop := m.blockPos p (blockFrom a.t0 a.set.wide h)
  if bitOf (m.get f) i then
    ((m.modLog p fun l => { l with cmf := endMarks l.cmf i stop }).putBit f i false).emit (6 + portIx p) 1 (evPort p) (evArg i 0 0)
  else m

/-- CM_RECOVERY (R152): time comes to the instant at which an input in fault has stayed in its window for 1 ms. -/
def Mach.cmRecovery (m : Mach) (p : Port) (i : Nat) : Mach :=
  if m.blocksRun p && bitOf (m.get (F.AFE_CFE_STATUS_CM_FAULT (portIx p))) i then
    let m := m.reachNs ((m.cfe.at p).since.getD i 0 + 1000000)
    m.cmEnd p i m.half
  else m

/-- The front end of a port at a t_B, at position `h`: the gains of R148 and the faults of inputs whose MON_EN applies as 0 (R152). -/
def Mach.cfeBeat (m : Mach) (p : Port) (wasFixed : Bool) (h : Nat) : Mach :=
  let m := (m.rangerBeat p wasFixed h .X).rangerBeat p wasFixed h .Y
  [0, 1, 2, 3].foldl (fun m i => if bitOf (m.get (F.AFE_CFE_CM_MON_EN (portIx p))) i then m else m.cmEnd p i h) m

/-- The front end at a first t_B: block numbers begin anew; at an acquisition start each ranger starts at code 0 (R149), or at the fixed codes. The recovery of an
input still in fault begins from the first block (R152). Three points the spec leaves open are DESIGN CHOICEs (log entry 83): a plan restart (R124) is no
acquisition start for the rangers, which keep their codes; and a change of FIXED or of a fixed code that applies at a first t_B, or with the commit of a plan
restart, puts the settle flag of R148 on no block. -/
def Mach.cfeStart (m : Mach) (p : Port) (first : Bool) : Mach :=
  let h := 2 * (m.acqOf p).edge0
  let m := [Pol.X, Pol.Y].foldl (fun m y =>
    let fixed := m.on (F.AFE_CFE_CTRL_FIXED (portIx p))
    let code := if !first then m.get (gainFld p y) else if fixed then m.get (fixFld p y) else 0
    let m := if first then (m.put (gainFld p y) code).putRanger p y {} else m.putRanger p y { m.ranger p y with blk := 0 }
    if first then m.noteGain p y ⟨h, code, 0⟩ else m) m
  let m := [0, 1, 2, 3].foldl (fun m i => if bitOf (m.get (F.AFE_CFE_STATUS_CM_FAULT (portIx p))) i then m.cmSince p i else m) m
  [0, 1, 2, 3].foldl (fun m i => if bitOf (m.get (F.AFE_CFE_CM_MON_EN (portIx p))) i then m else m.cmEnd p i h) m

/-! ### Raman inputs and APD bias -/

/-- 64 bins of a channel in a row have carried SAT (R156): channel 0 ST_A, 1 AS_A, 2 ST_B, 3 AS_B. -/
def Mach.rfeFault (m : Mach) (ch : Nat) : Mach :=
  let p := ixPort (ch / 2)
  let r := m.ramanOf p
  if ch < 4 ∧ 64 ≤ (if ch % 2 = 0 then r.satST else r.satAS) then
    (m.modRaman p fun r => if ch % 2 = 0 then { r with satST := 0 } else { r with satAS := 0 }).emit (6 + portIx p) 2 (evPort p) (evArg ch 0 0)
  else m

/-- The port of an APD output (R159). -/
def apdPort (o : Nat) : Port := ixPort (o / 2)

/-- The temperature table of an APD output (R160). -/
def apdTable (o : Nat) : Nat := 0x0FC4400 + 0x40 * o

/-- The table's bias code at a temperature in mK (R160, Table 07-6). -/
def apdCode (b : List (Nat × Nat)) (base : Nat) (t : Int) : Nat :=
  let v (i : Nat) : Int := bankLe b (base + 8 + 2 * i) 2
  let step : Int := bankLe b (base + 4) 2
  let x := t - signedOf 32 (bankLe b base 4)
  if x ≤ 0 then (v 0).toNat
  else if 16 * step ≤ x then (v 16).toNat
  else
    let i := (x / step).toNat
    (v i + ((v (i + 1) - v i) * (x - i * step) + step / 2) / step).toNat

/-- The latest VALID result of TSRC: 0 RTD0, 1 RTD1, 2 the die temperature, mK (R160, R165). -/
def Mach.tsrc (m : Mach) (src : Nat) : Option Int :=
  let val (c : Nat) : Option Int := if m.on (F.HKC_RAW_VALID c) then some (signedOf 32 (m.get (F.HKC_VAL c))) else none
  match src with
  | 0 => val 22
  | 1 => val 23
  | _ => match val 0, val 1, val 2 with
    | some a, some b, some c => some (max a (max b c))
    | _, _, _ => none

/-- The bias code that an output's settings ask for, and whether it is stale for want of a VALID result (R160, boundary of R163). -/
def Mach.apdWanted (m : Mach) (o : Nat) : Nat × Bool :=
  let now := m.get (F.AFE_APD_STATUS_V_NOW o)
  match m.get (F.AFE_APD_CTRL_MODE o) with
  | 1 => (m.get (F.AFE_APD_CTRL_V_SET o), false)
  | 2 => match m.tsrc (m.get (F.AFE_APD_CTRL_TSRC o)) with
    | some t => (apdCode m.regs.act (apdTable o) t, false)
    | none => (now, true)
  | _ => (0, false)

/-- Whether two codes differ by more than SETTLE_THR. -/
def Mach.apdFar (m : Mach) (a b : Nat) : Bool := decide (m.get F.AFE_APD_SETTLE_SETTLE_THR < ((a : Int) - b).natAbs)

/-- The highest bias code of an output (R162). -/
def Mach.apdMax (m : Mach) (o : Nat) : Nat := m.get (F.AFE_APD_LIM_V_MAX o)

/-- No output drives above V_MAX (R162): an output above a V_MAX that has just applied comes down to it at once, with no settle (log entry 83). -/
def Mach.apdCap (m : Mach) (o : Nat) : Mach := m.put (F.AFE_APD_STATUS_V_NOW o) (min (m.get (F.AFE_APD_STATUS_V_NOW o)) (m.apdMax o))

/-- One APD output at a boundary of its domain (R160 to R163): whether a settle begins and whether its bias is stale. An output shut down by
LIMIT stays at 0 V. -/
def Mach.apdOne (m : Mach) (o : Nat) (back : Bool) : Mach × Bool × Bool :=
  if m.on (F.AFE_APD_STATUS_LIMIT o) then (m, false, false)
  else
    let (want, stale) := m.apdWanted o
    let v := min want (m.apdMax o)
    let far := back || m.apdFar v (m.get (F.AFE_APD_STATUS_V_NOW o))
    (m.put (F.AFE_APD_STATUS_V_NOW o) v, far, stale)

/-- The outputs of a port at a Raman frame boundary (R161, R163): new codes take effect; a large change, a changed calibration entry (`cal`) and a
return from LIMIT start one bias settle that both outputs share. The flags answer whether it began and whether a bias is stale. -/
def Mach.apdBoundary (m : Mach) (p : Port) (cal : List Nat) : Mach × Bool × Bool :=
  let o := 2 * portIx p
  let back := (m.ramanOf p).rstFor
  let (m, f0, s0) := m.apdOne o (back.contains o || cal.contains o)
  let (m, f1, s1) := m.apdOne (o + 1) (back.contains (o + 1) || cal.contains (o + 1))
  let m := m.modRaman p fun r => { r with rstFor := [] }
  let settle := f0 || f1
  let stop := m.now + 100000 * m.get F.AFE_APD_SETTLE_SETTLE
  let m := if settle then ((m.put (F.AFE_APD_STATUS_SETTLING o) (bit f0)).put (F.AFE_APD_STATUS_SETTLING (o + 1)) (bit f1)).modRaman p fun r => { r with biasEnd := stop } else m
  (m, settle, s0 || s1)

/-- The outputs of a port whose Raman path is disabled, at a module boundary: changes apply and no shot is excluded (boundary of R163). -/
def Mach.apdIdle (m : Mach) (p : Port) : Mach :=
  let o := 2 * portIx p
  let (m, _, _) := m.apdOne o false
  let (m, _, _) := m.apdOne (o + 1) false
  m.modRaman p fun r => { r with rstFor := [] }

/-- Whether a shot instant falls within a bias settle of either port: shots are common to both (R161). -/
def Mach.apdSettling (m : Mach) (edge : Nat) : Bool :=
  [0, 1, 2, 3].any fun o => m.on (F.AFE_APD_STATUS_SETTLING o) && !m.notBefore edge (m.ramanOf (apdPort o)).biasEnd

/-- Whether a port's outputs settle. -/
def Mach.biasSettling (m : Mach) (p : Port) : Bool :=
  m.on (F.AFE_APD_STATUS_SETTLING (2 * portIx p)) || m.on (F.AFE_APD_STATUS_SETTLING (2 * portIx p + 1))

/-- APD_SETTLE_END (R161): SETTLE × 100 µs after the boundary the settle of a port's outputs ends. -/
def Mach.apdSettleEnd (m : Mach) (p : Port) : Mach :=
  if m.biasSettling p then
    let m := m.reachNs (m.ramanOf p).biasEnd
    (m.put (F.AFE_APD_STATUS_SETTLING (2 * portIx p)) 0).put (F.AFE_APD_STATUS_SETTLING (2 * portIx p + 1)) 0
  else m

/-- An output has been in current limit for 10 ms (R163). -/
def Mach.apdLimit (m : Mach) (o : Nat) : Mach :=
  if o < 4 ∧ !m.on (F.AFE_APD_STATUS_LIMIT o) ∧ m.get (F.AFE_APD_CTRL_MODE o) ≠ 0 then
    ((m.put (F.AFE_APD_STATUS_LIMIT o) 1).put (F.AFE_APD_STATUS_V_NOW o) 0).emit (6 + o / 2) 3 (o / 2 + 1) (evArg o 0 0)
  else m

/-- A write of 1 to LIMIT (R163): the output returns to its mode at the port's next Raman frame boundary. -/
def Mach.apdLimitClear (m : Mach) (o : Nat) : Mach :=
  if m.on (F.AFE_APD_STATUS_LIMIT o) then
    (m.put (F.AFE_APD_STATUS_LIMIT o) 0).modRaman (apdPort o) fun r => { r with rstFor := r.rstFor ++ [o] }
  else m

/-- Whether the bins of a port's channel (0 Stokes, 1 anti-Stokes) are invalid because its output is shut down or not yet back (R163). -/
def Mach.apdDown (m : Mach) (p : Port) (ch : Nat) : Bool :=
  m.on (F.AFE_APD_STATUS_LIMIT (2 * portIx p + ch)) || (m.ramanOf p).rstFor.contains (2 * portIx p + ch)

/-- The level of an output in µV (R159): 20 V + v × 70 V / 16,383; 0 V while it is off, or down after LIMIT until it is back. -/
def Mach.apdUv (m : Mach) (o : Nat) : Rat :=
  if m.get (F.AFE_APD_CTRL_MODE o) = 0 ∨ m.apdDown (apdPort o) (o % 2) then 0
  else 20000000 + ((m.get (F.AFE_APD_STATUS_V_NOW o) * 70000000 : Nat) : Rat) / (16383 : Nat)

/-! ### The housekeeping converter -/

/-- Change the HKC. -/
def Mach.modHkc (m : Mach) (f : Hkc → Hkc) : Mach := { m with hkc := f m.hkc }

/-- A coefficient of the set in force; nominal while no set has been formed. -/
def Mach.coefNow (m : Mach) (c : Coef) : Int := if bankLe m.regs.act forceBase 2 = 1 then c.read m.regs.act forceBase else c.nom

/-- The calibrated value of a channel (R164, Table 17-1) from what it reads at unit gain: its gain in 2^-24, and its offset in the unit of VAL (log entry 71). -/
def Mach.hkcVal (m : Mach) (c : Nat) (raw : Int) : Int :=
  roundAway (raw * m.coefNow (coefU32 (0x740 + 8 * c) 16777216)) (2 ^ 24) + m.coefNow (coefS32 (0x744 + 8 * c) 0)

/-- The converter's last code of a channel (Table 07-10). -/
def Mach.hkcCode (m : Mach) (c code : Nat) : Mach := (m.put (F.HKC_RAW_CODE c) code).putB (F.HKC_RAW_OVR c) (code == 0 || code == 4095)

/-- Write a channel's result (Table 07-10): its calibrated value and its code. -/
def Mach.hkcResult (m : Mach) (c : Nat) (val : Int) (code : Nat) (inj : Bool) : Mach :=
  let m := ((m.put (F.HKC_VAL c) (codeOf 32 val)).put (F.HKC_RAW_VALID c) 1).hkcCode c code
  m.putB (F.HKC_RAW_INJ c) inj

/-- Bring INJ_STATUS.LEVEL in step with the queue. -/
def Mach.syncInj (m : Mach) : Mach := m.put F.HKC_INJ_STATUS_LEVEL m.hkc.inj.length

/-- INJ_REQ (R167). -/
def Mach.injRequest (m : Mach) (c : Nat) : Mach :=
  let rtd := c = 22 ∨ c = 23
  let full := 4 ≤ m.hkc.inj.length
  let m := if rtd then m.put F.HKC_INJ_STATUS_REJ 1 else m
  let m := if full then m.put F.HKC_INJ_STATUS_OVF 1 else m
  if rtd ∨ full then m else (m.modHkc fun h => { h with inj := h.inj ++ [c % 32] }).syncInj

/-- Calibration has the HKC from now on. -/
def Mach.hkcCalGrant (m : Mach) : Mach :=
  let now := m.now
  (m.modHkc fun h => { h with calAt := now }).put F.HKC_STATUS_CAL 1

/-- Calibration of the HKC is requested (R168): it waits for the injected conversions already queued. -/
def Mach.hkcCalStart (m : Mach) : Mach :=
  let n := m.hkc.inj.length
  let m := m.modHkc fun h => { h with before := n }
  if n = 0 then m.hkcCalGrant else m.put F.HKC_STATUS_CAL_WAIT 1

/-- Calibration of the HKC ends: scans and injected requests go on (R168). -/
def Mach.hkcCalEnd (m : Mach) : Mach := (m.put F.HKC_STATUS_CAL 0).put F.HKC_STATUS_CAL_WAIT 0

/-- A new scan is due, SCAN_PERIOD µs after the one before (R166). Calibration pauses scans (R168). -/
def Mach.hkcScan (m : Mach) : Mach :=
  if m.get F.HKC_HKC_CTRL_SCAN_LEN = 0 ∨ m.on F.HKC_STATUS_CAL ∨ m.hkc.first then m
  else
    let m := match m.hkc.scanAt with | some t => m.reachNs (t + m.get F.HKC_HKC_CTRL_SCAN_PERIOD * 1000) | none => m
    let at_ := m.now
    let m := m.modHkc fun h => { h with scanAt := some at_ }
    match m.hkc.pos with
    | some _ => (m.modHkc fun h => { h with due := true }).bump F.HKC_STATUS_OVERRUN_CNT
    | none => (m.modHkc fun h => { h with pos := some 0 }).put F.HKC_STATUS_SCANNING 1

/-- The channel of a scan entry (Table 07-10). -/
def Mach.scanEntry (m : Mach) (i : Nat) : Nat := m.get (F.HKC_SCAN_LIST_ENTRY (i / 4)) / 2 ^ (8 * (i % 4)) % 32

/-- Whether an RTD is enabled (RTD_CTRL). -/
def Mach.rtdEnabled (m : Mach) (n : Nat) : Bool := if n = 0 then bitOf (m.get F.HKC_RTD_CTRL_RTD0) 0 else m.on F.HKC_RTD_CTRL_EN1

/-- The resistance of a platinum RTD at a temperature in mK, by IEC 60751, in 10^-24 of its resistance at 0 °C: 1 + A t + B t² + C (t − 100) t³ below 0 °C. A and B
are the spec's, C the standard's (PRESUMED, log entry 22). -/
def rtdRatio (mk : Int) : Int :=
  let t := mk - 273150
  let c : Int := if t < 0 then -4183 * (t - 100000) * t ^ 3 else 0
  10 ^ 24 + 39083 * t * 10 ^ 14 - 5775 * t ^ 2 * 10 ^ 8 + c / 10 ^ 3

/-- The temperature in mK at which a ratio in 10^-24 is reached, between −200 °C and 850 °C, by halving; `n` steps. -/
def rtdSearch : Nat → Int → Int → Int → Int
  | 0, lo, _, _ => lo
  | n + 1, lo, hi, r =>
    let mid := (lo + hi) / 2
    if r < rtdRatio mid then rtdSearch n lo mid r else rtdSearch n mid hi r

/-- The temperature of RTD `n` from its conversions (R169): R = R_ref × V_S / V_R with the R_ref of the set in force (Table 17-1), nominally 400 Ω for a Pt100 and 4 kΩ
for a Pt1000, to the nearest mK. The channel's gain and offset have no part in it: both voltages pass one converter (log entry 71). None outside −200 °C to
850 °C. -/
def Mach.rtdTemp (m : Mach) (n : Nat) (x : HkcConv) : Option Int :=
  let big := if n = 0 then bitOf (m.get F.HKC_RTD_CTRL_RTD0) 1 else m.on F.HKC_RTD_CTRL_TYPE1
  let (ref, r0) : Int × Int := if big then (m.coefNow (coefU32 0x844 4000000), 1000000) else (m.coefNow (coefU32 0x840 400000), 100000)
  if x.vr = 0 then none
  else
    let r := roundAway (ref * x.vs * x.vr.sign * 10 ^ 24) (r0.toNat * x.vr.natAbs)
    if r < rtdRatio 73150 ∨ rtdRatio 1123150 < r then none
    else
      let lo := rtdSearch 21 73150 1123151 r
      some (if r - rtdRatio lo < rtdRatio (lo + 1) - r then lo else lo + 1)

/-- The temperature that a conversion of RTD `n` gives; outside the range of R169 it is open (log entry 15). -/
def Mach.rtdValue (m : Mach) (n : Nat) (x : HkcConv) : Int × Mach :=
  match m.rtdTemp n x with
  | some t => (t, m)
  | none => let (k, m) := m.fresh; (signedOf 32 (Config.openValue k), m)

/-- A measurement of RTD `n` that gives `t` mK (R169, R170): a break keeps VAL and clears VALID; three good measurements in a row end it. -/
def Mach.rtdMeasure (m : Mach) (n : Nat) (x : HkcConv) (t : Int) : Mach :=
  let c := 22 + n
  let good := if n = 0 then m.hkc.good0 else m.hkc.good1
  let setGood (m : Mach) (g : Nat) : Mach := m.modHkc fun h => if n = 0 then { h with good0 := g } else { h with good1 := g }
  if x.broke then
    let first := !m.on (F.HKC_RAW_BREAK c)
    let m := setGood (((m.put (F.HKC_RAW_BREAK c) 1).put (F.HKC_RAW_VALID c) 0).hkcCode c x.code) 0
    if first then m.emit (6 + n) 4 (n + 1) (evArg n 0 0) else m
  else if m.on (F.HKC_RAW_BREAK c) then
    if good + 1 < 3 then setGood (m.hkcCode c x.code) (good + 1)
    else (setGood ((m.put (F.HKC_RAW_BREAK c) 0).hkcResult c t x.code false) 0).emit (6 + n) 5 (n + 1) (evArg n 0 0)
  else m.hkcResult c t x.code false

/-- The scan goes on past an entry; at its end the next scan starts at once when it is due (R166). -/
def Mach.scanNext (m : Mach) (i : Nat) : Mach :=
  if i + 1 < m.get F.HKC_HKC_CTRL_SCAN_LEN then m.modHkc fun h => { h with pos := some (i + 1) }
  else if m.hkc.due then m.modHkc fun h => { h with pos := some 0, due := false }
  else (m.modHkc fun h => { h with pos := none }).put F.HKC_STATUS_SCANNING 0

/-- One conversion slot completes (R166 to R170): the oldest injected request first, then the present scan entry. During calibration neither is
served; the last injected conversion that it waited for lets it start. -/
def Mach.hkcSlot (m : Mach) (x : HkcConv) : Mach :=
  if m.on F.HKC_STATUS_CAL || m.hkc.first then m
  else match m.hkc.inj with
    | c :: rest =>
      let m := (m.modHkc fun h => { h with inj := rest, before := h.before - 1 }).syncInj
      let m := (m.hkcResult c (m.hkcVal c x.val) x.code true).putBit F.HKC_INJ_DONE_DONE c true
      if m.on F.HKC_STATUS_CAL_WAIT && m.hkc.before == 0 then (m.put F.HKC_STATUS_CAL_WAIT 0).hkcCalGrant else m
    | [] =>
      match m.hkc.pos with
      | none => m
      | some i =>
        let c := m.scanEntry i
        let m := if c = 22 ∨ c = 23 then (if m.rtdEnabled (c - 22) then let (t, m) := m.rtdValue (c - 22) x; m.rtdMeasure (c - 22) x t else m)
          else m.hkcResult c (m.hkcVal c x.val) x.code false
        m.scanNext i

/-- The die temperature of a conversion of channels 0 to 2 (R165): the highest of the three, mK. -/
def Mach.dieOf (m : Mach) (c0 c1 c2 : HkcConv) : Int := max (m.hkcVal 0 c0.val) (max (m.hkcVal 1 c1.val) (m.hkcVal 2 c2.val))

/-- The die temperature slots (R165): every 10 ms channels 0 to 2 are written and the highest is the die temperature. -/
def Mach.hkcDie (m : Mach) (c0 c1 c2 : HkcConv) : Mach :=
  let m := match m.hkc.dieAt with | some t => m.reachNs (t + 10000000) | none => m
  let now := m.now
  let m := m.modHkc fun h => { h with dieAt := some now, first := false }
  let t := m.dieOf c0 c1 c2
  let put (m : Mach) (c : Nat) (x : HkcConv) := m.hkcResult c (m.hkcVal c x.val) x.code false
  let m := put (put (put m 0 c0) 1 c1) 2 c2
  { m with pwr := { m.pwr with dieMk := t } }

/-- A disabled RTD has no VALID result (boundary of R163); SCAN_LEN = 0 stops scanning (R166). At module boundaries. BREAK and the count of good measurements of a
broken RTD that is disabled are cleared without RTD_OK: the spec does not say (DESIGN CHOICE, log entry 83). -/
def Mach.hkcBoundary (m : Mach) : Mach :=
  let m := [0, 1].foldl (fun m n => if m.rtdEnabled n then m
    else ((m.put (F.HKC_RAW_VALID (22 + n)) 0).put (F.HKC_RAW_BREAK (22 + n)) 0).modHkc fun h => if n = 0 then { h with good0 := 0 } else { h with good1 := 0 }) m
  if m.get F.HKC_HKC_CTRL_SCAN_LEN = 0 then (m.modHkc fun h => { h with pos := none, due := false }).put F.HKC_STATUS_SCANNING 0 else m

end Sys2Proof.Machine
end

