-- ==== Sys2Proof/Machine/Dts.lean ====
section
/-!
DEFINITION. Machine/Dts.lean: Raman temperature (chapter 10) with the Raman path of the front ends (R155 to R158) and the optical switch (R132): shots,
frames and their boundaries, and profiles.
-/
namespace Sys2Proof.Machine

/-! ### The Raman path of a port -/

/-- Whether a frame holds an instant: a shot accumulated, excluded or suppressed. -/
def RFrame.begun (f : RFrame) : Bool := f.tStart.isSome || f.excl != 0 || f.supp != 0

/-- Whether a port that begins to take shots waits for the other port's frame boundary: the other port is in a frame (R224, R225). Two ports of which neither
is in a frame begin on the same shot. -/
def Mach.mustWait (m : Mach) (p : Port) : Bool := m.inFrame (otherPort p) && (m.ramanOf (otherPort p)).frame.begun

/-- DTS.STATUS: the ports that accumulate, IDLING, LOCKED while shots follow the locked port (R220, R222), and SUPPRESSING from a suppressed instant to
the next shot, while a port takes shots (R223). -/
def Mach.syncDts (m : Mach) : Mach :=
  let inA := m.inFrame .A && (m.ramanOf .A).frame.tStart.isSome
  let inB := m.inFrame .B && (m.ramanOf .B).frame.tStart.isSome
  let locked := m.lockPort.isSome
  let m := ((m.putB F.DTS_STATUS_A_IN_FRAME inA).putB F.DTS_STATUS_B_IN_FRAME inB).putB F.DTS_STATUS_LOCKED locked
  let m := m.putB F.DTS_STATUS_SUPPRESSING (m.on F.DTS_STATUS_SUPPRESSING && !m.shotPorts.isEmpty)
  let m := m.putB F.DTS_STATUS_IDLING ((m.ramanOf .A).idle || (m.ramanOf .B).idle)
  m.put F.DTS_FRAME_SHOTS_SHOTS (max (m.ramanOf .A).frame.shots (m.ramanOf .B).frame.shots)

/-- The code of a position of SW_SEQ (R132). -/
def Mach.switchCode (m : Mach) (p : Port) (pos : Nat) : Nat :=
  let f := if pos < 8 then F.ESC_SW_SEQ_LO_POS (portIx p) else F.ESC_SW_SEQ_HI_POS (portIx p)
  m.get f / 2 ^ (4 * (pos % 8)) % 16

/-- Use a position of the sequence: new lines start a settle (R132). -/
def Mach.setSwitch (m : Mach) (p : Port) (pos : Nat) : Mach :=
  let i := portIx p
  let c := m.switchCode p pos
  let moves := c != m.get (F.ESC_SW_STATUS_CODE i)
  let m := (m.modRaman p fun r => { r with pos := some pos }).put (F.ESC_SW_STATUS_INDEX i) pos
  if moves then
    let stop := m.now + 100000 * m.get (F.ESC_SW_CTRL_SETTLE i)
    ((m.put (F.ESC_SW_STATUS_CODE i) c).put (F.ESC_SW_STATUS_SETTLING i) 1).modRaman p fun r => { r with settleEnd := stop }
  else m

/-- The next position, cyclically (R132). -/
def Mach.nextPos (m : Mach) (p : Port) : Nat :=
  match (m.ramanOf p).pos with
  | some n => (n + 1) % max (m.get (F.ESC_SW_CTRL_LEN (portIx p))) 1
  | none => 0

/-- SWITCH_SETTLE_END (R132): SETTLE × 100 µs after the lines of SW changed. -/
def Mach.switchSettled (m : Mach) (p : Port) : Mach :=
  if m.on (F.ESC_SW_STATUS_SETTLING (portIx p)) then (m.reachNs (m.ramanOf p).settleEnd).put (F.ESC_SW_STATUS_SETTLING (portIx p)) 0 else m

/-- Abandon the frame in progress of a port (R228): its bank is cleared, it yields no profile and is counted. The next frame takes the next position of the sequence
(R132): a reverse frame that follows finds no forward frame (R235). -/
def Mach.abandon (m : Mach) (p : Port) : Mach :=
  let f := (m.ramanOf p).frame
  if f.begun then
    let m := m.modRaman p fun r => { r with frame := { stale := f.stale }, lost := r.lost + 1, fwd := none }
    let m := m.setSwitch p (m.nextPos p)
    ((m.bump F.DTS_ABANDON_CNT_COUNT).emit 16 0 (evPort p) (evArg f.fibre 0 0)).syncDts
  else m

/-- Abandon the frames of both ports (R154, R228). -/
def Mach.abandonBoth (m : Mach) : Mach := (m.abandon .A).abandon .B

/-- Whether an output of a port in MODE 2 has no VALID result to follow (boundary of R163). -/
def Mach.biasStale (m : Mach) (p : Port) : Bool :=
  [2 * portIx p, 2 * portIx p + 1].any fun o => !m.on (F.AFE_APD_STATUS_LIMIT o) && (m.apdWanted o).2

/-- The Raman path of a port has been enabled (R225): it waits for the other port's frame boundary while that port is in a frame. -/
def Mach.ramanStart (m : Mach) (p : Port) : Mach :=
  let waits := m.mustWait p
  let stale := m.biasStale p
  let m := m.modRaman p fun r => { r with waits := waits, frame := { stale := stale } }
  (m.setSwitch p (m.nextPos p)).syncDts

/-- The Raman path of a port has been disabled: acquisition of temperature stops (R228); a port that waited for it starts at the next instant. -/
def Mach.ramanStop (m : Mach) (p : Port) : Mach :=
  let m := (m.abandon p).modRaman p fun r => { r with waits := false, idle := false, pos := none, fwd := none }
  (m.modRaman (otherPort p) fun r => { r with waits := false }).syncDts

/-- An energy trip holds a port's RTRIG low (R224): its frame is abandoned; the other port goes on, and one that waited for its boundary starts at the next
instant. -/
def Mach.ramanTrip (m : Mach) (p : Port) : Mach :=
  if m.ramanOn p then
    (((m.abandon p).modRaman p fun r => { r with waits := false }).modRaman (otherPort p) fun r => { r with waits := false }).syncDts
  else m

/-! ### Shots -/

/-- The linearised output of a bin's u (R158). -/
def rfeOut (b : List (Nat × Nat)) (base u : Nat) : Nat :=
  let i := u / 128
  let y (k : Nat) : Int := bankLe b (base + 2 * k) 2
  (clampInt 0 65535 (y i + ((y (i + 1) - y i) * ((u % 128 : Nat) : Int) + 64) / 128)).toNat

/-- u = code + 2,048 of a bin word (R156). -/
def binU (w : Half) : Nat := (signedOf 12 w.toNat + 2048).toNat

/-- Whether a bin carries a SAT mark (R156). -/
def binSat (w : Half) : Bool := binU w == 4095 || bitOf w.toNat 12

/-- A run of SAT bins after one more bin; a run of 64 stays until RFE_FAULT reports it. -/
def satRun (n : Nat) (w : Half) : Nat := if 64 ≤ n then n else if binSat w then n + 1 else 0

/-- The word of bin j of a channel (Table 08-4) from what its slice and integrator give: INV, bit 14 zero, INT by the bin's parity, SATD and the code. -/
def binWord (inv : Nat → Bool) (j : Nat) (w : Half) : Half :=
  BitVec.ofNat 16 (2 ^ 15 * bit (inv (j % 2)) + 2 ^ 13 * (j % 2) + w.toNat % 2 ^ 12 + 2 ^ 12 * bit (bitOf w.toNat 12))

/-- Add the bins of a channel (0 Stokes, 1 anti-Stokes) from bin `j` up (R227): a word that carries SATD or INV adds nothing. `inv` answers whether an
integrator's bins are invalid (R163, R185). -/
def addBins (b : List (Nat × Nat)) (base ch : Nat) (inv : Nat → Bool) : Nat → List Half → List (Nat × (Nat × Nat)) → List (Nat × (Nat × Nat))
  | _, [], s => s
  | j, w :: t, s =>
    let w := binWord inv j w
    let s := if bitOf w.toNat 15 || bitOf w.toNat 12 then s
      else
        let old := mapGet (0, 0) s (2 * j + ch)
        mapPut (0, 0) s (2 * j + ch) (old.1 + rfeOut b base (binU w), old.2 + 1)
    addBins b base ch inv (j + 1) t s

/-- The settings that a frame of a port is computed with. -/
def Mach.dtsSet (m : Mach) (p : Port) (fibre : Nat) : DtsSet :=
  let i := portIx p
  { entry := bankBytes m.regs.act (0x0FC5000 + 0x800 * i + 64 * fibre) 64
    minFrac := m.get (F.DTS_CTRL_MIN_FRAC i), raw := m.on (F.DTS_CTRL_RAW i), gamma := m.get (F.DTS_GAMMA_MK i), ng := m.get (F.DTS_NG_R_NG i)
    z0 := m.get (F.DTS_Z0_BIN_BIN i), darkN := m.get (F.DTS_DARK_DARK_N i), darkF := m.get (F.DTS_DARK_DARK_FIRST i)
    binK := m.get F.AFE_RFE_BIN_BIN_K, shots := m.get F.DTS_FRAME_SHOTS }

/-- Begin a frame with its first instant: its fibre, settings and epoch. -/
def Mach.beginFrame (m : Mach) (p : Port) : Mach :=
  let f := (m.ramanOf p).frame
  if f.begun then m
  else
    let fibre := m.get (F.ESC_SW_STATUS_CODE (portIx p))
    let ep := m.epochOf (2 + portIx p)
    let u := m.dtsSet p fibre
    m.modFrame p fun f => { f with fibre := fibre, epoch := ep.1, part := ep.2, set := u }

/-- Count and mark the SAT bins of a channel of a port. -/
def Mach.satBins (m : Mach) (p : Port) (ch : Nat) (l : List Half) : Mach :=
  let f := if ch = 0 then F.AFE_RFE_SAT_CNT_ST (portIx p) else F.AFE_RFE_SAT_CNT_AS (portIx p)
  let m := m.bumpBy f (l.filter binSat).length
  m.modRaman p fun r => if ch = 0 then { r with satST := l.foldl satRun r.satST } else { r with satAS := l.foldl satRun r.satAS }

/-- Accumulate one shot of a port, at TIS count `edge` (R155 to R158, R227). -/
def Mach.accumulate (m : Mach) (p : Port) (edge : Nat) (st as_ : List Half) : Mach :=
  let i := portIx p
  let inv (ch k : Nat) : Bool := m.apdDown p ch || bitOf (m.get F.ADC_RAMAN_MAP_FAIL) (4 * i + 2 * ch + k)
  let b := m.regs.act
  let time := m.timeAt edge
  m.modFrame p fun f => { f with
    sums := addBins b (0x0FC4000 + 0x80 * (2 * i + 1)) 1 (inv 1) 0 as_ (addBins b (0x0FC4000 + 0x80 * (2 * i)) 0 (inv 0) 0 st f.sums)
    shots := f.shots + 1
    tStart := some (f.tStart.getD time)
    lsb := if f.tStart.isSome then f.lsb else edge * 1024 }

/-- Whether launching is permitted for a shot (R223): PFAIL_N is high, INTLK_N has not cut drive, and no port that takes part still has its drive cut
under R136. -/
def Mach.shotPermitted (m : Mach) (ps : List Port) : Bool :=
  m.on F.SYS_POWER_PFAIL == false && !m.pwr.intlkCut && ps.all fun p => !((m.acqOf p).cut && m.running p)

/-- Whether shot instants fall (R220): the module runs outside SAFE (R48), or its start waits for INTLK_N and PFAIL_N to let the first beats begin (R47), when no
instant is permitted. -/
def Mach.shotsRun (m : Mach) : Bool :=
  m.get F.SYS_STATE_MODE != 2 &&
  (m.pwr.phase == .running || (m.pwr.phase == .starting && m.get F.SYS_STATE_START_STEP == 11 && !m.calBusy && !m.shotPermitted m.shotPorts))

/-- RTRIG of the ports that take part rises at TIS count `edge` and stays high for WIDTH × 5 ns (R131). -/
def Mach.fireRtrig (m : Mach) (ps : List Port) (edge : Nat) : Mach :=
  ps.foldl (fun m p => let w := m.get (F.ESC_RTRIG_CTRL_WIDTH (portIx p)); m.modRaman p fun r => { r with trigEnd := some (edge + 6 * w) }) m

/-- RAMAN_SHOT: time comes to the next shot instant of the schedule (R220 to R225, R161), which is suppressed, excluded by a bias settle, or accumulated. A shot at a locked
instant anchors the grid that shots follow while the locked port does not run (R222). None
falls while a participating port's switch settles, in an idle interval or in a frame that already holds its SHOTS. -/
def Mach.ramanShot (m : Mach) (st0 as0 st1 as1 : List Half) : Mach :=
  let ps := m.shotPorts
  let bins (p : Port) : List Half × List Half := match p with | .A => (st0, as0) | .B => (st1, as1)
  let fits (p : Port) : Bool := let n := m.get (F.AFE_RFE_NBIN_N_BIN (portIx p)); (bins p).1.length == n && (bins p).2.length == n
  let full (p : Port) : Bool := decide (m.get F.DTS_FRAME_SHOTS ≤ (m.ramanOf p).frame.shots)
  match m.shotNext with
  | none => m
  | some e =>
    if !m.shotsRun || ps.isEmpty || m.on F.DTS_STATUS_IDLING ||
        ps.any (fun p => m.on (F.ESC_SW_STATUS_SETTLING (portIx p)) || full p || !fits p) then m
    else
      let m := m.reach e
      let grid := if m.lockPort.isSome then e else m.grid
      let m := ps.foldl (fun m p => m.beginFrame p) { m with inst := some e }
      if !m.shotPermitted ps then
        let m := (m.bump F.DTS_SUPP_CNT_COUNT).put F.DTS_STATUS_SUPPRESSING 1
        (ps.foldl (fun m p => m.modFrame p fun f => { f with supp := f.supp + 1 }) m).syncDts
      else
        let m := { (m.put F.DTS_STATUS_SUPPRESSING 0).fireRtrig ps e with shotAt := some e, grid := grid }
        let m := ps.foldl (fun m p => (m.satBins p 0 (bins p).1).satBins p 1 (bins p).2) m
        (if m.apdSettling e then
          ps.foldl (fun m p => m.modFrame p fun f => { f with excl := f.excl + 1 }) (m.bump F.DTS_EXCL_CNT_COUNT)
        else ps.foldl (fun m p => m.accumulate p e (bins p).1 (bins p).2) m).syncDts.syncIdle

/-! ### From sums to temperature -/

/-- A natural logarithm of num / den > 0, by squaring, to 52 fractional bits of log2. -/
def lnBits : Nat → Nat → Nat → Nat
  | 0, _, acc => acc
  | n + 1, x, acc =>
    let y := x * x / 2 ^ 64
    if 2 ^ 65 ≤ y then lnBits n (y / 2) (2 * acc + 1) else lnBits n y (2 * acc)

/-- ln(num / den) for positive num and den. -/
def lnOf (num den : Nat) : Rat :=
  let e : Int := (Nat.log2 num : Int) - Nat.log2 den
  let x := if 0 ≤ e then num * 2 ^ 64 / (den * 2 ^ e.toNat) else num * 2 ^ (64 + (-e).toNat) / den
  let (x, e) := if x < 2 ^ 64 then (2 * x, e - 1) else (x, e)
  let l : Int := e * 2 ^ 52 + lnBits 52 x 0
  (l * 12786308645202655660 : Int) / ((2 ^ 116 : Nat) : Rat)

/-- ln of a positive rational. -/
def lnRat (x : Rat) : Rat := lnOf x.num.toNat x.den

/-- An unsigned field of a fibre entry. -/
def DtsSet.fld (u : DtsSet) (off n : Nat) : Nat := leNat ((u.entry.drop off).take n)

/-- A sum of a frame: A and n. -/
def RFrame.sum (f : RFrame) (ch j : Nat) : Nat × Nat := mapGet (0, 0) f.sums (2 * j + ch)

/-- The dark level of a channel (R229); none when its bins hold no shot. -/
def RFrame.dark (f : RFrame) (ch : Nat) : Option Rat :=
  if f.set.darkN = 0 then some 0
  else
    let l := (List.range f.set.darkN).map fun i => f.sum ch (f.set.darkF + i)
    let n := sumNat (l.map (·.2))
    if n = 0 then none else some (((sumNat (l.map (·.1)) : Nat) : Rat) / (n : Nat))

/-- The signal of a bin (R229). -/
def RFrame.signal (f : RFrame) (d : Rat) (ch j : Nat) : Option Rat :=
  let x := f.sum ch j
  if x.2 = 0 then none else some ((x.1 : Rat) / (x.2 : Nat) - d)

/-- The signals of a valid bin (R229): Stokes and anti-Stokes. -/
def RFrame.valid (f : RFrame) (d : Rat × Rat) (j : Nat) : Option (Rat × Rat) :=
  let need := f.set.minFrac * f.set.shots
  if 256 * (f.sum 0 j).2 < need ∨ 256 * (f.sum 1 j).2 < need then none
  else match f.signal d.1 0 j, f.signal d.2 1 j with
    | some s, some a => if 0 < s ∧ 0 < a then some (s, a) else none
    | _, _ => none

/-- ln R of a valid bin. -/
def RFrame.lnR (f : RFrame) (d : Rat × Rat) (j : Nat) : Option Rat := (f.valid d j).map fun x => lnRat (x.2 / x.1)

/-- Δz in m (R230). -/
def DtsSet.dz (u : DtsSet) : Rat := ((299792458 * u.binK * 2 ^ 28 : Nat) : Rat) / ((2 * max u.ng 1 * 1200000000 : Nat) : Rat)

/-- z of bin j (R230). -/
def DtsSet.z (u : DtsSet) (j : Nat) : Rat := (((2 * (j : Int) - 2 * u.z0 + 1 : Int) : Rat) / 2) * u.dz

/-- First bin, count, source and fixed temperature of reference r (Table 10-2). -/
def DtsSet.ref (u : DtsSet) (r : Nat) : Nat × Nat × Nat × Int :=
  (u.fld (20 + 8 * r) 4, u.fld (24 + 8 * r) 2, u.fld (26 + 8 * r) 1, signedOf 32 (u.fld (36 + 4 * r) 4))

/-- The bins of a reference. -/
def DtsSet.refBins (u : DtsSet) (r : Nat) : List Nat := (List.range (u.ref r).2.1).map fun i => (u.ref r).1 + i

/-- The centre of a reference: the mean of z over its bins (R231). -/
def DtsSet.zRef (u : DtsSet) (r : Nat) : Rat :=
  let (first, n, _, _) := u.ref r
  (((2 * (first : Int) + n - 1 - 2 * u.z0 + 1 : Int) : Rat) / 2) * u.dz

/-- The temperature of a reference in mK when its source is VALID (Table 10-1). -/
def RFrame.refTemp (f : RFrame) (r : Nat) : Option Int :=
  let (_, _, src, fix) := f.set.ref r
  match src with
  | 0 => some fix
  | 1 => (f.refs[0]?).join
  | 2 => (f.refs[1]?).join
  | _ => none

/-- ln of the summed signals of bins (R231), with at least half of them valid. -/
def ratioOf (bins : List Nat) (sig : Nat → Option (Rat × Rat)) : Option Rat :=
  let l := bins.filterMap sig
  if l.isEmpty ∨ 2 * l.length < bins.length then none
  else some (lnRat ((l.foldl (fun s x => s + x.2) 0) / (l.foldl (fun s x => s + x.1) 0)))

/-- What a profile is computed from: constant, Δa (Np/m) and flags. -/
structure Fit where
  const : Rat
  da    : Rat
  stale : Bool
  t0    : Option Int
  t1    : Option Int
deriving DecidableEq, Repr

/-- DALPHA's unit: 10^-9 × ln(10) / 10 Np/m (R232). -/
def dalphaUnit : Rat := lnOf 10 1 / ((10 ^ 10 : Nat) : Rat)

/-- 2^-40 units of the constants kept between profiles. -/
def keep40 (x : Rat) : Int := roundRat (x * ((2 ^ 40 : Nat) : Rat))

/-- A kept constant. -/
def unkeep (x : Int) : Rat := (x : Rat) / ((2 ^ 40 : Nat) : Rat)

/-- γ / T of a reference at `t` mK: GAMMA is in mK. -/
def gammaOver (u : DtsSet) (t : Int) : Rat := (u.gamma : Rat) / (t : Rat)

/-- The fit of a single-ended profile (R232, R233 and the boundaries of R235); none for NO_CONST. `last` is the constant and Δa of the fibre's last
profile. -/
def fitSingle (f : RFrame) (mode : Nat) (d : Rat × Rat) (last : Option (Int × Int)) : Option Fit :=
  let u := f.set
  let nRef := u.fld 2 1
  let ref (r : Nat) : Option (Int × Rat) :=
    if nRef ≤ r then none
    else match f.refTemp r, ratioOf (u.refBins r) (f.valid d) with
      | some t, some l => if t = 0 then none else some (t, l + gammaOver u t)
      | _, _ => none
  let old := last.map fun x => (unkeep x.1, unkeep x.2)
  if mode = 1 then
    let da := ((signedOf 32 (u.fld 12 4) : Int) : Rat) * dalphaUnit
    match ref 0, old with
    | some (t, l), _ => some ⟨l + da * u.zRef 0, da, false, some t, none⟩
    | none, some (c, _) => some ⟨c, da, true, none, none⟩
    | none, none => none
  else
    match ref 0, ref 1, old with
    | some (t0, l0), some (t1, l1), _ =>
      let dz := u.zRef 1 - u.zRef 0
      let da := if dz = 0 then 0 else (l0 - l1) / dz
      some ⟨l0 + da * u.zRef 0, da, false, some t0, some t1⟩
    | some (t0, l0), none, some (_, da) => some ⟨l0 + da * u.zRef 0, da, true, some t0, none⟩
    | none, some (t1, l1), some (_, da) => some ⟨l1 + da * u.zRef 1, da, true, none, some t1⟩
    | none, none, some (c, da) => some ⟨c, da, true, none, none⟩
    | _, _, none => none

/-- D[j] of a dual pair (R234). -/
def dualD (f g : RFrame) (df dg : Rat × Rat) (loop j : Nat) : Option Rat :=
  if loop < j then none else match f.lnR df j, g.lnR dg (loop - j) with
    | some a, some b => some (a + b)
    | _, _ => none

/-- The fit of a dual pair (R234): K from reference 0, and the mean with reference 1 when that is good. The references are those of the forward end's entry, read at
the boundary that completes the pair (log entry 67). -/
def fitDual (f g : RFrame) (df dg : Rat × Rat) (last : Option (Int × Int)) : Option Fit :=
  let u := f.set
  let loop := u.fld 16 4
  let ref (r : Nat) : Option (Int × Rat) :=
    if u.fld 2 1 ≤ r then none
    else
      let both := (u.refBins r).filter fun j => (f.valid df j).isSome && decide (j ≤ loop) && (g.valid dg (loop - j)).isSome
      match ({ f with refs := g.refs } : RFrame).refTemp r, ratioOf both (f.valid df), ratioOf (both.map fun j => loop - j) (g.valid dg) with
      | some t, some a, some b => if t = 0 ∨ 2 * both.length < (u.refBins r).length then none else some (t, a + b + 2 * gammaOver u t)
      | _, _, _ => none
  match ref 0, ref 1, last with
  | some (t0, k0), some (t1, k1), _ => some ⟨(k0 + k1) / 2, 0, false, some t0, some t1⟩
  | some (t0, k0), none, _ => some ⟨k0, 0, false, some t0, none⟩
  | none, _, some (k, _) => some ⟨unkeep k, 0, true, none, none⟩
  | none, _, none => none

/-- A temperature of γ·q over a denominator, in mK without OFFSET_MK: none when the denominator is not positive or T lies outside 173.15 K to 873.15 K
(R235). -/
def tempOf (u : DtsSet) (q : Nat) (den : Rat) : Option Rat :=
  if den ≤ 0 then none
  else
    let t := ((q * u.gamma : Nat) : Rat) / den
    if t < 173150 ∨ 873150 < t then none else some t

/-- The words of a list of temperatures (R235): each within 1 mK of the exact value; 0x8000_0000 for an invalid bin. -/
def tempWords (off : Int) : List (Option Rat) → Nat → List Byte × Nat
  | [], k => ([], k)
  | none :: t, k => let r := tempWords off t k; (leBytes 4 0x80000000 ++ r.1, r.2)
  | some x :: t, k =>
    let r := tempWords off t (k + 1)
    (leBytes 4 (codeOf 32 (roundRat x + off + clampInt (-1) 1 (Config.tempError k))) ++ r.1, r.2)

/-- A signal in 2^-8 of a linearised output as an unsigned word; one that is negative or has no shots is open. -/
def signalWords : List (Option Rat) → Nat → List Byte × Nat
  | [], k => ([], k)
  | x :: t, k =>
    let (v, k) : Nat × Nat := match x with
      | some y => if y < 0 then (Config.openValue k % 2 ^ 32, k + 1) else ((roundRat (y * 256)).toNat, k)
      | none => (Config.openValue k % 2 ^ 32, k + 1)
    let r := signalWords t k
    (leBytes 4 v ++ r.1, r.2)

/-- The dark levels of a frame; one whose bins hold no shot is open. -/
def Mach.darks (m : Mach) (f : RFrame) : (Rat × Rat) × Mach :=
  let get (m : Mach) (ch : Nat) : Rat × Mach := match f.dark ch with
    | some d => (d, m)
    | none => let (k, m) := m.fresh; (((Config.openValue k % 65536 : Nat) : Rat), m)
  let (a, m) := get m 0
  let (b, m) := get m 1
  ((a, b), m)

/-- The profile of a frame, or of a forward frame `f` with its reverse frame `g` (R238, Table 10-4). -/
def Mach.profile (m : Mach) (p : Port) (f : RFrame) (g : Option RFrame) : Mach :=
  let u := f.set
  let i := portIx p
  let mode := u.fld 0 1
  let last := ((m.ramanOf p).consts.find? fun e => e.1 == f.fibre).map (·.2)
  let (df, m) := m.darks f
  let (dg, m) := match g with | some g => m.darks g | none => (df, m)
  let outs := (List.range (u.fld 8 4)).map fun k => u.fld 4 4 + k
  let fit := match g with | some g => fitDual f g df dg last | none => fitSingle f mode df last
  let temps : List (Option Rat) := outs.map fun j =>
    match fit with
    | none => none
    | some c => match g with
      | some g => (dualD f g df dg (u.fld 16 4) j).bind fun d => tempOf u 2 (c.const - d)
      | none => (f.lnR df j).bind fun l => tempOf u 1 (c.const - c.da * u.z j - l)
  let suspect := f.suspect || (match g with | some g => g.suspect | none => false)
  let stale := f.stale || (match g with | some g => g.stale | none => false)
  let flags := bit stale + 2 * bit (match fit with | some c => c.stale | none => false) + 4 * bit fit.isNone + 8 * bit suspect +
    16 * bit g.isSome + 32 * bit u.raw
  let sum (h : RFrame → Nat) : Nat := h f + (match g with | some g => h g | none => 0)
  let t (x : Option Int) : Nat := match x with | some v => codeOf 32 v | none => 0x80000000
  -- with NO_CONST the spec states neither CONST nor DALPHA (log entry 67)
  let (k, m) := m.fresh
  let const := match fit with
    | some c => codeOf 32 (clampInt (-(2 ^ 31)) (2 ^ 31 - 1) (roundRat (c.const * ((2 ^ 24 : Nat) : Rat))))
    | none => Config.openValue k % 2 ^ 32
  let dal := match fit with
    | some c => codeOf 32 (clampInt (-(2 ^ 31)) (2 ^ 31 - 1) (roundRat (c.da / dalphaUnit)))
    | none => if g.isSome then 0 else Config.openValue (k + 1) % 2 ^ 32
  let m := { m with free := m.free + 1 }
  let d8 (x : Rat) : Nat := (clampInt 0 (2 ^ 32 - 1) (roundRat (x * 256))).toNat
  let head := leBytes 4 1 ++ leBytes 1 f.fibre ++ leBytes 1 mode ++ leBytes 2 flags ++ leBytes 4 (sum (·.shots)) ++ leBytes 4 (sum (·.excl)) ++
    leBytes 4 (sum (·.supp)) ++ leBytes 4 (m.ramanOf p).lost ++ leBytes 8 (f.tStart.getD 0) ++ leBytes 8 (match g with | some g => g.tEnd | none => f.tEnd) ++
    leBytes 4 (t (fit.bind (·.t0))) ++ leBytes 4 (t (fit.bind (·.t1))) ++ leBytes 4 dal ++ leBytes 4 const ++ leBytes 4 (d8 df.1) ++ leBytes 4 (d8 df.2)
  let (tb, k) := tempWords (signedOf 32 (u.fld 44 4)) temps m.free
  let (sb, k) := if u.raw then signalWords ((outs.map fun j => f.signal df.1 0 j) ++ (outs.map fun j => f.signal df.2 1 j)) k else ([], k)
  let m := { m with free := k }
  let m := match fit with
    | some c => m.modRaman p fun r => { r with consts := (f.fibre, (keep40 c.const, keep40 c.da)) :: r.consts.filter fun e => e.1 != f.fibre }
    | none => m
  let m := m.modRaman p fun r => { r with lost := 0 }
  let m := ((m.bump (F.DTS_PROF_CNT_COUNT i)).put (F.DTS_LAST_FIBRE i) f.fibre).put (F.DTS_LAST_FLAGS i) flags
  let m := (m.put (F.DTS_LAST_CONST_CONST i) const).put (F.DTS_LAST_INV_BINS i) (temps.filter (·.isNone)).length
  m.draft { typ := 4, port := i, flags := bit f.part, epoch := f.epoch, lsb := f.lsb, first := u.fld 4 4, count := u.fld 8 4,
            bodies := [head ++ tb ++ sb] }

/-- DTS_PROFILE_COMPLETE (R232 to R238): the closed bank of a port has been computed. A forward frame waits for its reverse frame; a reverse frame without
one of its epoch yields no profile and is counted. -/
def Mach.dtsComplete (m : Mach) (p : Port) : Mach :=
  match (m.ramanOf p).closed with
  | none => m
  | some f =>
    let r := m.ramanOf p
    let m := m.modRaman p fun r => { r with closed := none }
    match f.set.fld 0 1 with
    | 1 => m.profile p f none
    | 2 => m.profile p f none
    | 3 => m.modRaman p fun r => { r with fwd := some f }
    | 4 =>
      let m := m.modRaman p fun r => { r with fwd := none }
      match r.fwd with
      | some g =>
        if g.epoch = f.epoch ∧ g.part = f.part ∧ g.set.fld 1 1 = f.fibre then m.profile p g (some f)
        else (m.modRaman p fun r => { r with lost := r.lost + 1 }).bump F.DTS_ABANDON_CNT_COUNT
      | none => (m.modRaman p fun r => { r with lost := r.lost + 1 }).bump F.DTS_ABANDON_CNT_COUNT
    | _ => m

/-- The frame of a port that holds its SHOTS is closed at its boundary (step 1 of R226); a bank still closed is computed first. -/
def Mach.closeFrame (m : Mach) (p : Port) : Mach :=
  let m := m.dtsComplete p
  let refs := [22, 23].map fun c => if m.on (F.HKC_RAW_VALID c) then some (signedOf 32 (m.get (F.HKC_VAL c))) else none
  let now := m.now
  m.modRaman p fun r => { r with closed := some { r.frame with tEnd := now, refs := refs }, frame := {} }

/-- Steps 3 and 4 of R226 at a port's frame boundary: the next switch position, bias, the Raman correction set and failed slices, the idle interval; a port
that waits for this boundary joins (R224, R225). -/
def Mach.frameNext (m : Mach) (p : Port) : Mach :=
  let m := m.retireRaman p
  let (m, cal) := m.ramanSet p
  let (m, _, stale) := m.apdBoundary p cal
  let m := m.modFrame p fun f => { f with stale := stale }
  let m := m.setSwitch p (m.nextPos p)
  let idle := m.get F.DTS_IDLE != 0
  let stop := m.now + 10000000 * m.get F.DTS_IDLE
  let m := m.modRaman p fun r => { r with idle := idle, idleEnd := stop }
  let q := otherPort p
  let m := if m.ramanOn q && !m.tripped q then m.modRaman q fun r => { r with waits := false } else m
  m.syncDts

/-- RAMAN_IDLE_END (R226): IDLE × 10 ms after the frame boundary. -/
def Mach.ramanIdleEnd (m : Mach) (p : Port) : Mach :=
  if (m.ramanOf p).idle then ((m.reachNs (m.ramanOf p).idleEnd).modRaman p fun r => { r with idle := false }).syncDts else m

end Sys2Proof.Machine
end

