-- ==== Sys2Proof/Machine/Probe.lean ====
section
/-!
DEFINITION. Machine/Probe.lean: probe synthesis (R128).
-/
namespace Sys2Proof.Machine

/-! ### Probe synthesis -/

/-- One turn in 2^60 units of a radian: 2π × 2^60. -/
def twoPi60 : Int := 7244019458077122842

/-- cos and sin of x radians for 0 ≤ x < π/2, in 2^60 units, by their series: `n` terms from the k-th, with the running terms. -/
def cosSin60 : Nat → Int → Int → Int → Int × Int
  | 0, _, _, _ => (0, 0)
  | n + 1, k, x, t =>
    -- t is x^(2k)/(2k)! with its sign
    let s := t * x / (2 ^ 60) / (2 * k + 1)
    let t' := -(s * x / (2 ^ 60) / (2 * k + 2))
    let r := cosSin60 n (k + 1) x t'
    (t + r.1, s + r.2)

/-- cos and sin of a phase of `bits` bits, in 2^60 units. -/
def cosSinOf (bits ang : Nat) : Int × Int :=
  let quarter := 2 ^ (bits - 2)
  let (c, s) := cosSin60 16 0 (twoPi60 * (ang % quarter : Nat) / (2 ^ bits)) (2 ^ 60)
  match ang / quarter % 4 with
  | 0 => (c, s)
  | 1 => (-s, c)
  | 2 => (-c, -s)
  | _ => (s, -c)

/-- cos and sin of an 18-bit phase, in 2^60 units (R128). -/
def cosSin (ang : Nat) : Int × Int := cosSinOf 18 ang

/-- cos(π × num / den) in Q1.15 doubled to 2^60 units, for 0 ≤ num ≤ den. -/
def cosHalfTurn (num den : Nat) : Int :=
  if den = 0 then 2 ^ 60
  else
    let quarter := decide (2 * num ≤ den)
    let n := if quarter then num else den - num
    let c := (cosSin60 16 0 (twoPi60 * (n : Nat) / (2 * (den : Nat))) (2 ^ 60)).1
    if quarter then c else -c

/-- The window in Q1.15 (Table 06-4): sample n of TP with taper code t. The tapers of codes 1 and 2 reach over 0.05 × m and 0.125 × m samples. -/
def window (t tp n : Nat) : Int :=
  let m := tp - 1
  let raise (num den : Nat) : Int := roundAway (2 ^ 15 * (2 ^ 60 - cosHalfTurn num den)) (2 ^ 61)
  match t with
  | 0 => 2 ^ 15
  | 1 => let k := min n (m - n); if 20 * k < m then raise (20 * k) m else 2 ^ 15
  | 2 => let k := min n (m - n); if 8 * k < m then raise (8 * k) m else 2 ^ 15
  | _ => let k := min n (m - n); raise (2 * k) m

/-- The probe of a sub-band with DIR after DIR_FLIP and PHASE0 (R128): CENTRE and BW in kHz, TP, AMP, TAPER. -/
def makeProbe (centre : Int) (bw tp amp taper dir phase0 : Nat) : Probe :=
  let f0 : Int := 2 * centre + (if dir = 0 then -(bw : Int) else bw)
  { w0 := roundAway (f0 * 2 ^ 48) (2 * 2400000)
    dlt := roundAway ((if dir = 0 then (bw : Int) else -(bw : Int)) * 2 ^ 48) (max tp 1 * 2400000)
    phi := phase0 * 2 ^ 16, tp := tp, amp := amp, taper := taper }

/-- The 48-bit phase of sample n: phi + n × w0 + n (n − 1) / 2 × dlt, modulo 2^48 (R128). -/
def Probe.phase (x : Probe) (n : Nat) : Nat := codeOf 48 ((x.phi : Int) + n * x.w0 + ((n * (n - 1) / 2 : Nat) : Int) * x.dlt)

/-- Sample n of a probe: the DAC codes I and Q (R128). Beyond the probe both DACs hold 0. -/
def Probe.sample (x : Probe) (n : Nat) : Int × Int :=
  if x.tp ≤ n then (0, 0)
  else
    let (c, s) := cosSin (x.phase n / 2 ^ 30)
    let w := (x.amp : Int) * window x.taper x.tp n
    (roundAway (w * c) (2 ^ 75), roundAway (w * s) (2 ^ 75))

end Sys2Proof.Machine
end

