-- ==== Sys2Proof/Machine/Pipe.lean ====
section
/-!
DEFINITION. Machine/Pipe.lean: the coherent pipe (chapter 09): correction (R193 to R196), marks and blanks (R201, R202), the gauge product, phase and
quality (R203 to R205), merge, unwrap and fill (R206 to R210), strain rate (R211 to R214), and the tiles it forms (R260).
-/
namespace Sys2Proof.Machine

/-! ### Samples of a cell -/

/-- R_dec: samples per cell. -/
def PipeSet.rdec (u : PipeSet) : Nat := if u.wide then 2 * u.d else u.d

/-- A field of a sub-band: 0 CENTRE, 1 BW, 2 TP, 3 AMP, 4 TAPER, 5 DIR. -/
def PipeSet.band (u : PipeSet) (k f : Nat) : Nat := (u.bands.getD k []).getD f 0

/-- TP_cells of a sub-band (R199): ⌈TP × f_cell / 2.4 GHz⌉. -/
def PipeSet.tpCells (u : PipeSet) (k : Nat) : Nat := ceilDiv (u.band k 2) (2 * max u.d 1)

/-- W: the samples of a cell's support on each input (R202). -/
def PipeSet.support (u : PipeSet) (k : Nat) : Nat := (u.tpCells k + 29) * u.rdec + 1

/-- A sample as the pipe takes it: its position, whether it lies before the acquisition's first sample, the words and slices of the four inputs, its block's
descriptor, the correction set of its instant (R194), and whether its gap is gated (R186). -/
structure Sample where
  h     : Nat
  early : Bool
  words : List Nat
  slice : List Nat
  desc  : Nat
  bank  : List (Nat × Nat)
  gate  : Bool
deriving DecidableEq, Repr

/-- The position of sample n of a launch, counted from its cell origin n_k (R197): t_k and CELL0_DLY. -/
def Launch.posOf (l : Launch) (n : Int) : Int := 2 * (l.edge : Int) + ((l.set.dly : Int) + n) * sampleStep l.set.wide

/-- The code of an input as a slice gives it, bit 15 apart. -/
def rawCode (s : PipeSample) (i : Nat) : Nat :=
  match i with | 0 => s.xi.toNat | 1 => s.xq.toNat | 2 => s.yi.toNat | _ => s.yq.toNat

/-- One sample with the words, the descriptor and the set of its instant (R178 to R181, R194). -/
def TakeLog.sample (g : TakeLog) (p : Port) (l : Launch) (n : Int) (clamps : List Bool) (s : PipeSample) : Sample :=
  let w := l.set.wide
  let h := (l.posOf n).toNat
  let b := blockOf l.t0 w h
  { h := h, early := decide (l.posOf n < 2 * (l.t0 : Int))
    words := (List.range 4).map fun i => g.wordAt p w l.t0 i h (clamps.getD i false) (rawCode s i)
    slice := (List.range 4).map fun i => g.sliceAt p w l.t0 i h
    desc := g.descAt p w l.t0 b, bank := (g.setAt h).bank
    gate := match g.gapOf w l.t0 b with | some x => x.gate | none => false }

/-- The samples of a compressed cell with four more at either end (R195, R202), from what the slices convert: `s` begins 16 samples before those, which say
what a clamp still flags (R150). -/
def TakeLog.samples (g : TakeLog) (p : Port) (l : Launch) (cell : Nat) (s : List PipeSample) : List Sample :=
  let flags (i : Nat) : List Bool := (clampRun 0 (s.map fun x => bitOf (rawCode x i) 15)).1
  let f0 := flags 0
  let f1 := flags 1
  let f2 := flags 2
  let f3 := flags 3
  let start : Int := ((cell * l.set.rdec : Nat) : Int) - 15 * l.set.rdec - 20
  ((List.range s.length).zip s |>.drop 16).map fun x =>
    g.sample p l (start + x.1) [f0.getD x.1 false, f1.getD x.1 false, f2.getD x.1 false, f3.getD x.1 false] x.2

/-! ### Stages 1 and 2 -/

/-- A signed field of the set a sample was taken with. -/
def setS (b : List (Nat × Nat)) (off n : Nat) : Int := signedOf (8 * n) (bankLe b (forceBase + off) n)

/-- 18-bit saturation. -/
def sat18 (x : Int) : Int := clampInt (-131072) 131071 x

/-- M of R193: round(2^22 / (g × A)), unsigned 24-bit, with g = 1 + GAIN × 2^-20 and A in 2^-24. -/
def gainWord (gain : Int) (a : Nat) : Int :=
  let den := ((2 ^ 20 + gain) * a).toNat
  if den = 0 then 2 ^ 24 - 1 else clampInt 0 (2 ^ 24 - 1) (roundAway (2 ^ 66) den)

/-- Whether a sample of input i carries a blank mark (R201). -/
def blankMark (u : PipeSet) (s : Sample) (i : Nat) : Bool :=
  let w := s.words.getD i 0
  let c := signedOf 12 w
  !s.early && (bitOf w 15 || c == -2048 || c == 2047 || (bitOf w 14 && u.settleBl) || (bitOf s.desc 5 && s.gate))

/-- Whether a sample of input i carries a fault mark (R201). -/
def faultMark (s : Sample) (i : Nat) : Bool := !s.early && (bitOf s.desc 6 || bitOf s.desc (7 + i))

/-- Stage 1 (R193): the input-referred value of input i of a sample, and the skew of its slice in 2 fs. A sample before the acquisition's first is open
(log entry 13). -/
def stage1 (p : Port) (u : PipeSet) (s : Sample) (i : Nat) : Int × Int :=
  let slice := s.slice.getD i 0
  let w := s.words.getD i 0
  let o := clampInt (-2048) 2047 (setS s.bank (0x40 + 8 * slice) 2)
  let a := bankLe s.bank (forceBase + 0x500 + 16 * (4 * portIx p + i) + 4 * (w / 4096 % 4)) 4
  let mm := gainWord (setS s.bank (0x42 + 8 * slice) 2) a
  let v := if s.early then sat18 (Config.earlySample s.h i)
           else if blankMark u s i then 0 else sat18 (roundAway ((16 * signedOf 12 w - o) * mm) (2 ^ 20))
  (v, setS s.bank (0x44 + 8 * slice) 2)

/-- The differentiator of R195 in Q1.15, m = −4 to 4. -/
def diffTaps : List Int := [117, -1248, 6554, -26214, 0, 26214, -6554, 1248, -117]

/-- Stage 2's skew correction (R195) of the middle of nine samples; τ is 2^-16 of a sample period from the slice's skew in 2 fs. -/
def deskew (wide : Bool) (xs : List Int) (skew : Int) : Int :=
  let fs : Int := if wide then 2400000000 else 1200000000
  let tau := clampInt (-32768) 32767 (roundAway (skew * 2 * fs * 65536) (10 ^ 15))
  let acc := (diffTaps.zip xs).foldl (fun a t => a + t.1 * t.2) 0
  xs.getD 4 0 - roundAway (tau * acc) (2 ^ 31)

/-- The corrected stream of an input: `l` carries four samples beyond the support at either end (R195). -/
def deskewAll (wide : Bool) : List (Int × Int) → List Int
  | [] => []
  | a :: t =>
    if t.length < 8 then []
    else deskew wide (((a :: t).take 9).map (·.1)) ((t.getD 3 (0, 0)).2) :: deskewAll wide t

/-- Stage 2 (R195, R196): the complex samples of a polarisation (0 X, 1 Y) over a support. -/
def stage2 (p : Port) (u : PipeSet) (l : List Sample) (pol : Nat) : List (Int × Int) :=
  let i := deskewAll u.wide (l.map fun s => stage1 p u s (2 * pol))
  let q := deskewAll u.wide (l.map fun s => stage1 p u s (2 * pol + 1))
  let e := if u.wide then 4 + portIx p else 2 * portIx p + pol
  let mid := (l.drop 4).map (·.bank)
  ((i.zip q).zip mid).map fun y =>
    let ci := signedOf 18 (bankLe y.2 (forceBase + 0x600 + 8 * e) 4)
    let cq := signedOf 18 (bankLe y.2 (forceBase + 0x604 + 8 * e) 4)
    (y.1.1, roundAway (ci * y.1.1 + cq * y.1.2) 65536)

/-! ### Stages 3 to 7 -/

/-- The mixer word W_k (R197). -/
def PipeSet.mixer (u : PipeSet) (k : Nat) : Int :=
  roundAway (-(signedOf 32 (u.band k 0)) * 2 ^ 32) (if u.wide then 2400000 else 1200000)

/-- DIR of sub-band k in beats of pattern step s, after DIR_FLIP (R123). -/
def PipeSet.dirAt (u : PipeSet) (s k : Nat) : Nat := (u.band k 5 + bit (bitOf (u.flips.getD s 0) k)) % 2

/-- The pair u of a tick: sub-band and chirp direction. -/
def PipeSet.pair (u : PipeSet) (s k : Nat) : Nat := 2 * k + u.dirAt s k

/-- The pairs that a plan produces, the reference pair first (R206). -/
def PipeSet.pairs (u : PipeSet) : List Nat :=
  let ref := u.pair 0 0
  let all := (List.range u.flips.length).flatMap fun s => (List.range u.n).map fun k => u.pair s k
  ref :: ((List.range 16).filter fun x => all.contains x && x != ref)

/-- The polarisations in use. -/
def PipeSet.pols (u : PipeSet) : List Nat := if u.wide then [0] else [0, 1]

/-- The inputs in use. -/
def PipeSet.inputs (u : PipeSet) : List Nat := inputsOf u.wide

/-- A compressed cell's marks (R202): fault mark, over the blank limit, blanked. -/
structure CellMarks where
  fault : Bool
  overs  : Bool
  blank : Bool
deriving DecidableEq, Repr

/-- The marks of a cell from the samples of its support. -/
def PipeSet.marks (u : PipeSet) (k : Nat) (l : List Sample) : CellMarks :=
  let sup := (l.drop 4).take (u.support k)
  let fault := sup.any fun s => u.inputs.any fun i => faultMark s i
  let b := sumNat (sup.map fun s => (u.inputs.filter fun i => blankMark u s i).length)
  let overs := decide (u.blankMax * u.support k * u.inputs.length < 256 * b)
  ⟨fault, overs, decide (0 < b) && !overs && !fault⟩

/-- A complex product. -/
def cxMul (a b : Rat × Rat) : Rat × Rat := (a.1 * b.1 - a.2 * b.2, a.1 * b.2 + a.2 * b.1)

/-- A rational limited to ±`lim`. -/
def within (lim x : Rat) : Rat := max (-lim) (min lim x)

/-- exp(j 2π × phase / 2^32) of the mixer (R197): cosine and sine with the table's error, at most −100 dBc. -/
def mixAt (phase : Nat) : Rat × Rat :=
  let (c, s) := cosSinOf 32 phase
  let e := Config.mixError phase
  ((c : Rat) / (2 ^ 60 : Nat) + within (1 / 100000) e.1, (s : Rat) / (2 ^ 60 : Nat) + within (1 / 100000) e.2)

/-- Mix sample n of sub-band k, counted from the cell origin, to baseband (R197). -/
def PipeSet.mix (u : PipeSet) (k : Nat) (n : Int) (x : Rat × Rat) : Rat × Rat := cxMul x (mixAt (codeOf 32 (n * u.mixer k)))

/-- The response of a symmetric filter of 30 × R_dec + 1 taps, `tap` by the distance from the middle, at `num` / `den` of f_cell from the sub-band centre: real. -/
def decResponse (tap : Nat → Rat) (r num den : Nat) : Rat :=
  let term (m : Nat) : Rat := tap m * ((cosSinOf 32 (m * num * 2 ^ 32 / (max (r * den) 1))).1 : Rat) / (2 ^ 60 : Nat)
  term 0 + 2 * (((List.range (15 * r)).map fun m => term (m + 1)).foldl (· + ·) 0)

/-- The bounds of Table 09-2 on the filter of an R_dec, at every `num` / `den` of f_cell from 0 to f_s / 2 (R198, R126): the pass band within 0.01 dB, a
monotonic roll-off to 0.5 f_cell that passes −3 dB at 0.47 ± 0.01 f_cell, and at most −90 dB from 0.6 f_cell on. The amplitudes of 0.01 dB, −3 dB and −90 dB are
0.99885 to 1.00115, 0.70795 and 3.1622 × 10^-5. -/
def DecimationMeets (tap : Nat → Rat) (r : Nat) : Prop :=
  ∀ num den : Nat, 0 < den → 2 * num ≤ r * den →
    (5 * num ≤ 2 * den → 99885 / 100000 ≤ decResponse tap r num den ∧ decResponse tap r num den ≤ 100115 / 100000) ∧
    (2 * den ≤ 5 * num → 2 * num ≤ den → ∀ n' : Nat, num ≤ n' → 2 * n' ≤ den → decResponse tap r n' den ≤ decResponse tap r num den) ∧
    (100 * num = 46 * den → 70795 / 100000 ≤ decResponse tap r num den) ∧
    (100 * num = 48 * den → decResponse tap r num den ≤ 70795 / 100000) ∧
    (3 * den ≤ 5 * num → -(31622 / 1000000000) ≤ decResponse tap r num den ∧ decResponse tap r num den ≤ 31622 / 1000000000)

/-- A decimation filter: its taps by R_dec and the distance from the middle, which meet Table 09-2 for every R_dec (R126, R197, R198). -/
structure DecFilter where
  tap   : Nat → Nat → Rat
  meets : ∀ r, 0 < r → DecimationMeets (tap r) r

/-- h_dec: one of the filters that meet Table 09-2. The spec gives its length, its symmetry and its response, not its taps; `none` stands for there being no such
filter, and leaves stage 4 open (log entry 13). -/
opaque Config.decFilter : Option DecFilter

/-- h_dec over 30 × R_dec + 1 samples (R197): the filter's output at their middle. The filter is symmetric. -/
def DecFilter.decimate (h : DecFilter) (r : Nat) (l : List (Rat × Rat)) : Rat × Rat :=
  ((List.range l.length).zip l).foldl (fun a x =>
    let t := h.tap r ((x.1 : Int) - 15 * r).natAbs
    (a.1 + t * x.2.1, a.2 + t * x.2.2)) (0, 0)

/-- u of the i-th cell of a support (R197): `xs` holds the stage-2 samples of compressed cell `cell`. -/
def PipeSet.baseband (h : DecFilter) (u : PipeSet) (k cell : Nat) (xs : List (Int × Int)) (i : Nat) : Rat × Rat :=
  let r := u.rdec
  let n0 : Int := ((cell + i) * r : Nat) - 15 * (r : Int)
  let part := (xs.drop (i * r)).take (30 * r + 1)
  h.decimate r (((List.range part.length).zip part).map fun x => u.mix k (n0 + x.1) ((x.2.1 : Rat), (x.2.2 : Rat)))

/-- The probe that a launch sends (R128): its sub-band with DIR after DIR_FLIP, and PHASE0 of its pattern step. -/
def Launch.probe (l : Launch) : Probe :=
  let u := l.set
  makeProbe (signedOf 32 (u.band l.k 0)) (u.band l.k 1) (u.band l.k 2) (u.band l.k 3) (u.band l.k 4) (u.dirAt l.step l.k) (u.phases.getD l.step 0)

/-- Sample i of the baseband reference ρ of a launch (R199): the probe sent, in units of its amplitude, taken at f_s, mixed by −CENTRE and filtered by h_dec. -/
def Launch.reference (h : DecFilter) (l : Launch) (i : Nat) : Rat × Rat :=
  let u := l.set
  let r := u.rdec
  let amp : Rat := (max l.probe.amp 1 : Nat)
  h.decimate r ((List.range (30 * r + 1)).map fun t =>
    let n : Int := ((i * r + t : Nat) : Int) - 15 * r
    if n < 0 then (0, 0)
    else
      let s := l.probe.sample ((if u.wide then 1 else 2) * n.toNat)
      u.mix l.k n ((s.1 : Rat) / amp, (s.2 : Rat) / amp))

/-- The exact value of R199 for a polarisation of a cell: the correlation with the reference over its energy. -/
def Launch.correlate (h : DecFilter) (p : Port) (l : Launch) (cell : Nat) (s : List Sample) (pol : Nat) : Rat × Rat :=
  let u := l.set
  let xs := stage2 p u s pol
  let sum := (List.range (u.tpCells l.k)).foldl (fun (a : (Rat × Rat) × Rat) i =>
    let v := u.baseband h l.k cell xs i
    let c := l.reference h i
    let z := cxMul v (c.1, -c.2)
    ((a.1.1 + z.1, a.1.2 + z.2), a.2 + c.1 * c.1 + c.2 * c.2)) ((0, 0), 0)
  (sum.1.1 / sum.2, sum.1.2 / sum.2)

/-- A component of stage 4 (R200): a whole number within 2^-18 of full scale, 2^5, of the exact value, limited to 24 bits. -/
def compWord (k : Nat) (x : Rat) : Int :=
  clampInt (-(2 ^ 23)) (2 ^ 23 - 1) (clampInt (x - 32).ceil (x + 32).floor (roundRat x + Config.pipeError k))

/-- Stages 1 to 4 for a polarisation of a cell (R193 to R200): the word r. -/
def Mach.compressed (m : Mach) (p : Port) (l : Launch) (cell : Nat) (s : List Sample) (pol : Nat) : (Int × Int) × Mach :=
  let k := m.free
  let r := match Config.decFilter with
    | some h => let z := l.correlate h p cell s pol; (compWord k z.1, compWord (k + 1) z.2)
    | none => (signedOf 24 (Config.openValue k), signedOf 24 (Config.openValue (k + 1)))
  (r, { m with free := k + 2 })

/-- Stage 5 (R203): z = Σ over P of r[hi] × conj(r[lo]). -/
def Mach.gauge (m : Mach) (p : Port) (l : Launch) (lo hi : Nat) (sl sh : List Sample) : (Int × Int) × Mach :=
  l.set.pols.foldl (fun z pol =>
    let (a, m) := z.2.compressed p l hi sh pol
    let (b, m) := m.compressed p l lo sl pol
    ((z.1.1 + a.1 * b.1 + a.2 * b.2, z.1.2 + a.2 * b.1 - a.1 * b.2), m)) ((0, 0), m)

/-- Keep a complex number to 64 bits: its argument is what counts. -/
def shrink (z : Int × Int) : Int × Int :=
  let n := max z.1.natAbs z.2.natAbs
  let s := Nat.log2 n - 63
  if n < 2 ^ 64 then z else (z.1 / 2 ^ s, z.2 / 2 ^ s)

/-- `n` binary digits of arg(z) / 2π, most significant first, by squaring. -/
def turnBits : Nat → Int × Int → Nat → Nat
  | 0, _, acc => acc
  | n + 1, z, acc =>
    let b := z.2 < 0 ∨ (z.2 = 0 ∧ z.1 < 0)
    turnBits n (shrink (z.1 * z.1 - z.2 * z.2, 2 * z.1 * z.2)) (2 * acc + bit b)

/-- round(2^16 × arg(z) / 2π) mod 2^16 (R204). -/
def phaseOf (z : Int × Int) : Nat := (turnBits 17 (shrink z) 0 + 1) / 2 % 65536

/-- L = round(256 × log2 |z|) for |z| ≥ 1, else 0 (R204). -/
def logMag (z : Int × Int) : Nat :=
  let n := (z.1 * z.1 + z.2 * z.2).toNat
  if n = 0 then 0 else (Nat.log2 (n ^ 256) + 1) / 2

/-! ### Stage 8 -/

/-- x reduced modulo 2^16 into −32,768 … 32,767 (R206). -/
def wrapTurn (x : Int) : Int := signedOf 16 (codeOf 16 x)

/-- x reduced to the 32 bits of Φ (R206). -/
def wrapPhi (x : Int) : Int := signedOf 32 (codeOf 32 x)

/-- What stages 5 to 7 answer for a cell of a tick: invalid (with or without a fault mark, blanked or not), or a phase, a magnitude and BLANK. -/
inductive Formed where
  | invalid (marked blank : Bool)
  | valid (phi l : Nat) (blank : Bool)
deriving DecidableEq, Repr

/-- Quality of a valid tick (R205): whether it is faded, its AMP, and Lbar after it. -/
def quality (u : PipeSet) (c : Cell) (l : Nat) : Bool × Nat × Nat :=
  match c.lbar with
  | none => (false, 7, l)
  | some lb =>
    let d : Int := (l : Int) - lb
    (decide ((l : Int) < (lb : Int) - 128 * u.fadeThr), (clampInt 0 7 (7 + d / 128)).toNat, ((lb : Int) + d / 2 ^ u.meanSh).toNat)

/-- The merge of R206 on a valid tick: the cell and the state. -/
def merge (u : PipeSet) (c : Cell) (pr phi : Nat) : Cell × Nat × Int :=
  let ref := u.pair 0 0
  let psi : Int := ((phi : Int) - (if pr = ref then 0 else mapGet 0 c.theta pr)) % 65536
  if !c.init.contains pr then
    if pr = ref then ({ c with phi := wrapPhi (c.phi + wrapTurn (psi - c.phi)), init := pr :: c.init, bad := false }, 2, psi)
    else if c.init.contains ref then
      ({ c with theta := mapPut 0 c.theta pr (codeOf 16 ((phi : Int) - c.phi % 65536)), init := pr :: c.init, bad := false }, 2, psi)
    else ({ c with bad := false }, 2, psi)
  else if c.bad then ({ c with phi := wrapPhi (c.phi + wrapTurn (psi - c.phi)), bad := false }, 2, psi)
  else ({ c with phi := wrapPhi (c.phi + wrapTurn (psi - c.phi)) }, 0, psi)

/-- Fill the held ticks after `a` by linear phase to Φ(a) + Δ over n ticks (R208). -/
def fillHeld (a : HeldTick) (delta : Int) (n : Nat) (l : List HeldTick) : List HeldTick :=
  l.map fun h => if h.acq = a.acq ∧ a.m < h.m then { h with phi := wrapPhi (a.phi + roundAway (delta * ((h.m - a.m : Nat) : Int)) n), state := 1 } else h

/-- Whether a tick is at state GOOD and not faded. -/
def HeldTick.clear (h : HeldTick) : Bool := h.state == 0 && !h.faded

/-- Take one formed tick of a cell into stage 8 (R205 to R208). -/
def Cell.take (u : PipeSet) (l : Launch) (c : Cell) (f : Formed) : Cell :=
  let pr := u.pair l.step l.k
  let base : HeldTick := { acq := l.acq, m := l.m, phi := c.phi, pair := pr, state := 3, seg := l.seg }
  match f with
  | .invalid marked blank =>
    let h := { base with marked := marked, blank := blank }
    { c with bad := true, anchor := none, held := c.held ++ [h], prev := some (h, 0) }
  | .valid phi lm blank =>
    let (faded, amp, lb) := quality u c lm
    let before := c.phi
    let (c, st, psi) := merge u { c with lbar := some lb } pr phi
    let h : HeldTick := { base with phi := c.phi, state := st, faded := faded, blank := blank, amp := amp }
    let open_ : Option HeldTick := c.anchor.filter fun a => a.seg == l.seg && a.acq == l.acq && decide (a.m < l.m)
    if st ≠ 0 then { c with anchor := none, held := c.held ++ [h], prev := some (h, 0) }
    else if faded then
      { c with anchor := open_.filter (fun a => decide (l.m - a.m ≤ u.fill)), held := c.held ++ [h], prev := some (h, wrapPhi (h.phi - before)) }
    else
      let (c, h, before) := match open_ with
        | some a =>
          if 1 < l.m - a.m then
            let delta := wrapTurn (psi - a.phi)
            let n := l.m - a.m
            let c := { c with phi := wrapPhi (a.phi + delta), held := fillHeld a delta n c.held }
            (c, { h with phi := wrapPhi (a.phi + delta) }, a.phi + roundAway (delta * ((n - 1 : Nat) : Int)) n)
          else (c, h, before)
        | none => (c, h, before)
      let d := wrapPhi (h.phi - before)
      let c := match c.prev with
        | some (q, dq) =>
          if q.clear && q.pair != u.pair 0 0 && q.acq == l.acq && q.m + 1 == l.m then
            { c with theta := mapPut 0 c.theta q.pair (codeOf 16 ((mapGet 0 c.theta q.pair : Nat) + (dq - d) / 2 ^ (u.alpha + 1))) }
          else c
        | none => c
      { c with anchor := some h, held := c.held ++ [h], prev := some (h, d) }

/-! ### Stage 9 and the tiles -/

/-- The value word of an increment (R211): its value and whether it is limited. -/
def valueOf (u : PipeSet) (d : Int) : Int × Bool :=
  let v := roundAway (d * u.mant) (2 ^ u.sh)
  (clampInt (-32767) 32767 v, decide (32767 ≤ v.natAbs))

/-- The value word and quality byte of a tick that leaves stage 8 (R211 to R214). -/
def HeldTick.words (h : HeldTick) (u : PipeSet) (before : Int) : Int × Nat :=
  if h.state = 3 then (-32768, 0xC0 + 16 * bit h.blank)
  else
    let q := 64 * h.state + 32 * bit h.faded + 16 * bit h.blank + h.amp
    if h.state = 2 then (-32768, q)
    else
      let (v, clip) := valueOf u (wrapPhi (h.phi - before))
      (v, q + 8 * bit clip)

/-- Count a delivered cell-tick (Table 09-10). -/
def Mach.countTick (m : Mach) (p : Port) (marked : Bool) (q : Nat) : Mach :=
  let i := portIx p
  let m := if q / 64 = 3 then (if marked then (m.bump (F.CPP_INVALID_CNT_COUNT i)).bump (F.CPP_MARK_CNT_COUNT i) else m.bump (F.CPP_INVALID_CNT_COUNT i)) else m
  let m := if q / 64 = 2 then m.bump (F.CPP_RESYNC_CNT_COUNT i) else m
  let m := if q / 64 = 1 then m.bump (F.CPP_FILLED_CNT_COUNT i) else m
  let m := if bitOf q 5 then m.bump (F.CPP_FADED_CNT_COUNT i) else m
  let m := if bitOf q 4 then m.bump (F.CPP_BLANK_CNT_COUNT i) else m
  if bitOf q 3 then m.bump (F.CPP_CLIP_CNT_COUNT i) else m

/-- The row of tiles of a launch. -/
def Acq.rowOf (a : Acq) (l : Launch) : Option TileRow := a.rows.find? fun r => r.restart == l.restart && r.trow == l.trow

/-- The columns of a row (R260). -/
def PipeSet.columns (u : PipeSet) : Nat := ceilDiv u.range 512

/-- The cells of column c (R260). -/
def PipeSet.colCells (u : PipeSet) (c : Nat) : Nat := min 512 (u.range - 512 * c)

/-- The launches of a row, in order. -/
def Acq.rowLaunches (a : Acq) (r : TileRow) : List Launch := a.launches.filter fun l => l.restart == r.restart && l.trow == r.trow

/-- The zones that cover a column, as the descriptor lists them (R261). -/
def PipeSet.segs (u : PipeSet) (c : Nat) : List (Nat × Nat × Nat) := segments u.zones c (u.colCells c)

/-- Make the tile of a completed column (Tables 11-11 and 16-5). Its end is the last tick's launch, the round trip to its farthest cell and the probe's
length (R17). -/
def makeTile (p : Port) (r : TileRow) (ls : List Launch) (o : OpenTile) : Option Tile :=
  match ls.head?, ls.getLast? with
  | some f, some e =>
    let u := f.set
    let trip := ((512 * o.tcol + u.colCells o.tcol - 1) * u.d * 2 + u.band e.k 2) * 5 / 12
    some { id := ⟨p, r.restart, r.trow, o.tcol⟩, cells := u.colCells o.tcol, ticks := r.ticks, row0 := r.trow == 0, epoch := f.epoch, part := f.part,
           m0 := f.m, beat := f.beat, tick0 := f.k, nsub := u.n, tl := u.tl, srLsb := u.srLsb, acq := f.acq, timeEnd := e.time + trip, timeLast := e.time,
           lsbs := ls.map (·.lsb), marks := ls.map (·.flags), nb := u.nb, segs := u.segs o.tcol, codec := u.codec, set := u, vals := o.vals, quals := o.quals }
  | _, _ => none

/-- Insert a tile among the completed ones in tile-end order, ties as they came (R20). -/
def insertEnd (t : Tile) : List Tile → List Tile
  | [] => [t]
  | x :: r => if t.timeEnd < x.timeEnd then t :: x :: r else x :: insertEnd t r

/-- Deliver a completed tile to the Train and to the codec (R263, R299). -/
def Mach.deliverTile (m : Mach) (p : Port) (t : Tile) : Mach :=
  let m := { m with train := { m.train with ready := m.train.ready.put p (insertEnd t (m.train.ready.at p)) } }
  m.modCodec fun c => { c with queue := c.queue.put p (c.queue.at p ++ [t]) }

/-- Complete the tiles of a port whose row is closed and whose values have all come; a row whose last tile leaves is forgotten with its launches, and counts
toward the overview interval (R280). -/
def Mach.completeTiles (m : Mach) (p : Port) : Mach :=
  let a := m.acqOf p
  let done (o : OpenTile) : Bool := a.rows.any fun r => r.restart == o.restart && r.trow == o.trow && r.closed &&
    (match (a.rowLaunches r).head? with | some l => o.got == r.ticks * l.set.colCells o.tcol | none => false)
  let (full, rest) := a.tiles.partition done
  let m := m.modAcq p fun a => { a with tiles := rest }
  let m := m.modAcq p fun a => { a with rows := a.rows.map fun r =>
    { r with done := r.done ++ (full.filter fun o => o.restart == r.restart && o.trow == r.trow).map (·.tcol) } }
  let m := full.foldl (fun m o =>
    match a.rows.find? fun r => r.restart == o.restart && r.trow == o.trow with
    | some r => (match makeTile p r (a.rowLaunches r) o with
      | some t => (if o.tcol + 1 = (match (a.rowLaunches r).head? with | some l => l.set.columns | none => 0) then m.overRow p t else m).deliverTile p t
      | none => m)
    | none => m) m
  let gone (r : TileRow) : Bool := r.closed && !(rest.any fun o => o.restart == r.restart && o.trow == r.trow) &&
    ((a.rowLaunches r).all fun l => l.set.range ≤ l.formed) && full.any fun o => o.restart == r.restart && o.trow == r.trow
  let old := a.rows.filter gone
  m.modAcq p fun a => { a with
    rows := a.rows.filter fun r => !gone r
    launches := a.launches.filter fun l => !(old.any fun r => r.restart == l.restart && r.trow == l.trow) }

/-- Put a value and its quality byte into the tile that holds the cell and tick. -/
def putValue (u : PipeSet) (l : Launch) (t cell : Nat) (v : Int) (q : Nat) (tiles : List OpenTile) : List OpenTile :=
  let col := cell / 512
  let key := 512 * t + cell % 512
  let here (o : OpenTile) : Bool := o.restart == l.restart && o.trow == l.trow && o.tcol == col
  let put (o : OpenTile) : OpenTile := { o with
    got := o.got + 1
    vals := mapPut 0x8000 o.vals key (codeOf 16 v)
    quals := mapPut 0xC0 o.quals key q }
  if tiles.any here then tiles.map fun o => if here o then put o else o
  else if cell < u.range then tiles ++ [put { restart := l.restart, trow := l.trow, tcol := col }] else tiles

/-- One tick of a cell leaves stages 8 and 9. -/
def Mach.deliverTick (m : Mach) (p : Port) (cell : Nat) (h : HeldTick) (before : Int) : Mach :=
  match (m.acqOf p).launches.find? fun l => l.acq == h.acq && l.m == h.m with
  | none => m
  | some l =>
    let (v, q) := h.words l.set before
    let t := match (m.acqOf p).rowOf l with | some r => h.m - r.m0 | none => 0
    let m := m.countTick p h.marked q
    let m := m.overTake p l.set l.restart l.trow cell v (q / 64 ≤ 1)
    m.modAcq p fun a => { a with tiles := putValue l.set l t cell v q a.tiles }

/-- The cells of a pipe state. -/
def Acq.cellsOf (a : Acq) (gen : Nat) : List (Nat × Cell) := mapGet [] a.cells gen

/-- A cell of a pipe state. -/
def Acq.cell (a : Acq) (gen j : Nat) : Cell := mapGet {} (a.cellsOf gen) j

/-- Replace a cell of a pipe state. -/
def Mach.putCell (m : Mach) (p : Port) (gen j : Nat) (c : Cell) : Mach :=
  m.modAcq p fun a => { a with cells := mapPut [] a.cells gen (mapPut {} (a.cellsOf gen) j c) }

/-- Emit the held ticks of a cell that lie `keep` or more before its latest (R209). -/
def emitHeld (p : Port) (gen j keep : Nat) : Nat → Mach → Mach
  | 0, m => m
  | n + 1, m =>
    let c := (m.acqOf p).cell gen j
    if c.held.length ≤ keep then m
    else match c.held with
      | [] => m
      | h :: rest =>
        let m := m.deliverTick p j h c.out
        emitHeld p gen j keep n (m.putCell p gen j { c with held := rest, out := h.phi })

/-- The oldest tick of `seg` apart that the cells of a pipe state hold: ticks of the commit in force, `seg`, stay unless the acquisition has ended. -/
def Acq.oldestHeld (a : Acq) (gen : Nat) : Option Nat :=
  let heads := (a.cellsOf gen).filterMap fun c => (c.2.held.head?.filter fun h => a.ended || h.seg != a.seg).map (·.m)
  match heads with | [] => none | x :: r => some (r.foldl min x)

/-- Emit tick `t` of the cells that hold it, in ascending order (R209). -/
def emitRow (p : Port) (gen t : Nat) : List Nat → Mach → Mach
  | [], m => m
  | j :: r, m =>
    let c := (m.acqOf p).cell gen j
    emitRow p gen t r (match c.held with
      | [] => m
      | h :: rest => if h.m = t then (m.deliverTick p j h c.out).putCell p gen j { c with held := rest, out := h.phi } else m)

/-- Emit the ticks that an end of open runs leaves held, in ascending tick order and within a tick in ascending cell order (R209). -/
def emitRows (p : Port) (gen : Nat) : Nat → Mach → Mach
  | 0, m => m
  | n + 1, m =>
    match (m.acqOf p).oldestHeld gen with
    | none => m
    | some t => emitRows p gen n (emitRow p gen t (((m.acqOf p).cellsOf gen).map (·.1)) m)

/-- Whether a launch from before the last commit of its acquisition is still to be formed on a pipe state. -/
def Acq.oldUnformed (a : Acq) (gen : Nat) : Bool :=
  a.launches.any fun l => l.gen == gen && (a.ended || l.seg != a.seg) && decide (l.formed < l.set.range)

/-- Forget the pipe states that have ended and that no unformed launch uses. -/
def Acq.trim (a : Acq) : Acq :=
  { a with cells := a.cells.filter fun e => (e.1 == a.gen && !a.ended) || a.launches.any fun l => l.gen == e.1 && decide (l.formed < l.set.range) }

/-- A commit has applied, or the acquisition has ended (R209, R210): once the ticks before it have all been formed, those still held leave as measured. -/
def Mach.endState (m : Mach) (p : Port) : Mach :=
  let a := m.acqOf p
  let m := a.cells.foldl (fun m e =>
    if a.oldUnformed e.1 then m else emitRows p e.1 (sumNat (e.2.map fun c => c.2.held.length)) m) m
  (m.modAcq p Acq.trim).completeTiles p

/-- CPP.STATUS.ACTIVE: the port acquires or ticks of it are still to be formed. -/
def Mach.syncPipe (m : Mach) (p : Port) : Mach :=
  let a := m.acqOf p
  let m := m.putB (F.CPP_STATUS_ACTIVE (portIx p)) (m.running p || a.launches.any fun l => decide (l.formed < l.set.range))
  m.putB (F.CPP_STATUS_RESYNCING (portIx p)) (match a.resetAt with | some b => m.running p && decide (a.beat ≤ b + 1) | none => false)

/-- Stages 1 to 7 for a cell of a launch; of a dark launch the supports say only whether the cell is blanked (R203, R214); `lo` and `hi` are the samples of the supports of the two compressed cells (R203), empty beyond either end of the
range. The flag answers whether the sample lists have the length of the supports. -/
def Mach.formCell (m : Mach) (p : Port) (l : Launch) (cell : Nat) (lo hi : List PipeSample) : Formed × Bool × Mach :=
  let u := l.set
  let g0 := (u.g + 1) / 2
  let g1 := u.g / 2
  let need := u.support l.k + 24
  let noLo := decide (cell < g0)
  let noHi := decide (u.range ≤ cell + g1)
  if lo.length ≠ (if noLo then 0 else need) ∨ hi.length ≠ (if noHi then 0 else need) then (.invalid false false, false, m)
  else
    let g := (m.acqOf p).log
    let sl := g.samples p l (cell - g0) lo
    let sh := g.samples p l (cell + g1) hi
    let a := u.marks l.k sl
    let b := u.marks l.k sh
    let blank := a.blank || b.blank
    if l.dark || noLo || noHi then (.invalid false blank, true, m)
    else if a.fault || b.fault then (.invalid true blank, true, m)
    else if a.overs || b.overs then (.invalid false blank, true, m)
    else
      let (z, m) := m.gauge p l (cell - g0) (cell + g1) sl sh
      if z = (0, 0) then (.invalid false blank, true, m)
      else
        let (k, m) := m.fresh
        let phi := codeOf 16 ((phaseOf z : Int) + clampInt (-1) 1 (Config.phaseError k))
        (.valid phi (logMag z) blank, true, m)

/-- The smallest power of two of 1,024 or more that is at least 2 × TP_cells, as its logarithm (R200). -/
def nfftLog2 (tpCells : Nat) : Nat := (List.range 24).find? (fun n => decide (10 ≤ n) && decide (2 * tpCells ≤ 2 ^ n)) |>.getD 24

/-- The last cell of the overlap-save block that a compressed cell belongs to (R200): a block yields N_FFT − TP_cells + 1 cells, and the last one of a launch closes
with cell RANGE_CELLS − 1. -/
def PipeSet.blockEnd (u : PipeSet) (k cell : Nat) : Nat :=
  let n := 2 ^ nfftLog2 (u.tpCells k) - u.tpCells k + 1
  min ((cell / n + 1) * n) u.range - 1

/-- TIS count at which the last sample that a cell of a launch needs has been taken (R195, R200, R202, R203). -/
def Launch.taken (l : Launch) (cell : Nat) : Nat :=
  let u := l.set
  let c := u.blockEnd l.k (min (cell + u.g / 2) (u.range - 1))
  ((l.posOf (((c + u.tpCells l.k - 1) * u.rdec + 15 * u.rdec + 4 : Nat) : Int) + 1) / 2).toNat

/-- PIPE_TICK_EMIT (R209): the next cell of the oldest launch that is not fully formed is formed, once its last sample has been taken, and taken into stage 8; the
tick FILL_MAX before it is emitted. An ECC error resets the cell first (R210). -/
def Mach.pipeTick (m : Mach) (p : Port) (cell : Nat) (lo hi : List PipeSample) (ecc : Bool) : Mach :=
  match (m.acqOf p).launches.find? fun l => decide (l.formed < l.set.range) with
  | none => m
  | some l =>
    if cell ≠ l.formed then m
    else
      let (f, ok, m') := (m.reach (l.taken cell)).formCell p l cell lo hi
      if !ok then m
      else
        let m := if ecc then m'.bump (F.CPP_STATE_ECC_CNT_COUNT (portIx p)) else m'
        let c := (m.acqOf p).cell l.gen cell
        let c : Cell := if ecc then { held := c.held, out := c.out } else c
        let m := m.putCell p l.gen cell (c.take l.set l f)
        let m := m.modAcq p fun a => { a with launches := a.launches.map fun x =>
          if x.acq = l.acq ∧ x.m = l.m then { x with formed := cell + 1 } else x }
        let m := emitHeld p l.gen cell l.set.fill ((m.acqOf p).cell l.gen cell).held.length m
        (if cell + 1 = l.set.range then m.endState p else (m.modAcq p Acq.trim).completeTiles p).syncPipe p

/-! ### Derived figures of a plan (R211, R215, R216) -/

/-- MANT and SH of a scale S = num / den (R211). -/
def scaleWords (num den : Nat) : Nat × Nat :=
  if den = 0 ∨ 2 ^ 24 * den ≤ num then (2 ^ 24 - 1, 0)
  else
    let sh := (List.range 64).find? (fun s => decide (2 ^ 23 * den ≤ num * 2 ^ s)) |>.getD 63
    let mant := (2 * num * 2 ^ sh + den) / (2 * den)
    if mant = 2 ^ 24 ∧ 0 < sh then (2 ^ 23, sh - 1) else (min mant (2 ^ 24 - 1), sh)

/-- The scale of a plan (R211) from λ (pm), N, D, ξ (2^-16), G, T_BEAT and SR_LSB: the group index cancels. -/
def planScale (pm n d xi g tBeat lsb : Nat) : Nat × Nat :=
  scaleWords (pm * 1200000000 ^ 2 * n) (d * xi * g * 299792458 * tBeat * lsb)

/-- STATE_BYTES (R215). -/
def stateBytes (range u fill : Nat) : Nat := range * (6 + 2 * (u - 1) + ceilDiv (u - 1) 8 + 3 * fill)

/-- LAT in ns (R216): 40 µs + N_FFT / f_cell + FILL_MAX × T_L, rounded up. -/
def latBound (nfft d fill tl : Nat) : Nat := 40000 + ceilDiv ((nfft * d + fill * tl) * 5) 6

end Sys2Proof.Machine
end

