-- ==== Sys2Proof/Machine/Esc.lean ====
section
/-!
DEFINITION. Machine/Esc.lean: the Escapement (chapter 06): beats and launches (R122 to R124, R135), the launch monitor (R133,
R134), the interlock and the energy trip (R136 to R140), and how an acquisition starts, restarts its plan and ends.
-/
namespace Sys2Proof.Machine

/-! ### Settings of a beat -/

/-- A sub-band entry of a plan: its first byte (Table 06-2). -/
def bandAt (p : Port) (k : Nat) : Nat := planBase (portIx p) + 64 + 32 * k

/-- The sub-band fields that the pipe uses: CENTRE, BW, TP, AMP, TAPER, DIR. -/
def bandOf (b : List (Nat × Nat)) (p : Port) (k : Nat) : List Nat :=
  let a := bandAt p k
  [bankLe b a 4, bankLe b (a + 4) 4, bankLe b (a + 8) 4, bankLe b (a + 12) 2, bankLe b (a + 14) 1, bankLe b (a + 15) 1]

/-- D of a D_CODE (Table 06-1). -/
def dOf (code : Nat) : Nat := 2 ^ code

/-- The settings of a beat from the active settings of a port. -/
def Mach.planSet (m : Mach) (p : Port) : PipeSet :=
  let i := portIx p
  let b := m.regs.act
  let n := m.plan p 2 1
  let steps := List.range (m.plan p 5 1)
  let d := dOf (m.plan p 3 1)
  let lsb := m.get (F.CPP_SR_LSB_LSB i)
  let sc := planScale (m.get (F.CPP_LAMBDA_PM i)) n d (m.get (F.CPP_XI_PE_XI i)) (m.get (F.CPP_GAUGE_G i)) (m.plan p 8 4) lsb
  { n := n, d := d, wide := m.wideband p
    flips := steps.map fun s => m.plan p (320 + 16 * s) 1
    phases := steps.map fun s => m.plan p (324 + 16 * s) 4
    bands := (List.range n).map fun k => bandOf b p k
    range := m.plan p 12 4, tl := m.plan p 8 4 / max n 1, g := m.get (F.CPP_GAUGE_G i), dly := m.get (F.CPP_CELL0_DLY_DLY i)
    fill := m.get (F.CPP_CTRL_FILL_MAX i), alpha := m.get (F.CPP_CTRL_ALPHA i), meanSh := m.get (F.CPP_CTRL_MEAN_SH i)
    fadeThr := m.get (F.CPP_CTRL_FADE_THR i), blankMax := m.get (F.CPP_CTRL_BLANK_MAX i), settleBl := m.on (F.CPP_CTRL_SETTLE_BLANK i)
    mant := sc.1, sh := sc.2, srLsb := lsb
    codec := m.get (F.CODEC_CTRL_EN i) + 2 * m.get (F.CODEC_CTRL_QUAL i) + 4 * m.get (F.CODEC_CTRL_POLICY i) + 16 * m.get (F.CODEC_CTRL_EFFORT i)
    nb := m.get (F.ZONE_ZCTRL_NB i), zones := zoneList b i, zEn := m.on (F.ZONE_ZCTRL_Z_EN i), zRows := m.get (F.ZONE_ZCTRL_ZROWS i)
    ovEn := m.on (F.ZONE_ZCTRL_OV_EN i), ovBin := m.get (F.ZONE_OVCTRL_OV_BIN i), ovRows := m.get (F.ZONE_OVCTRL_OV_ROWS i) }

/-- The derived figures of the active plan (SCALE, INFO, STATE_BYTES, LAT_BOUND of Table 09-10, and ZSTATUS.NZ). -/
def Mach.syncFigures (m : Mach) (p : Port) : Mach :=
  let i := portIx p
  let u := m.planSet p
  let tpc := (List.range u.n).foldl (fun x k => max x (u.tpCells k)) 0
  let nfft := nfftLog2 tpc
  let np := u.pairs.length
  let m := (m.put (F.CPP_SCALE_SH i) u.sh).put (F.CPP_SCALE_MANT i) u.mant
  let m := ((m.put (F.CPP_INFO_U_M1 i) (np - 1)).put (F.CPP_INFO_NFFT_LOG2 i) nfft).put (F.CPP_INFO_TPC_MAX i) tpc
  let m := m.put (F.CPP_STATE_BYTES_BYTES i) (stateBytes u.range np u.fill)
  (m.put (F.CPP_LAT_BOUND_NS i) (latBound (2 ^ nfft) u.d u.fill u.tl)).put (F.ZONE_ZSTATUS_NZ i) (zoneCount m.regs.act i)

/-- The plan fields whose change restarts the plan (R124): offset and size of N, D_CODE, MODE, T_BEAT, RANGE_CELLS, and CENTRE, BW, TP, TAPER and DIR of the
sub-bands in use. -/
def restartFields (n : Nat) : List (Nat × Nat) :=
  [(2, 1), (3, 1), (4, 1), (8, 4), (12, 4)] ++
  (List.range n).flatMap fun k => [(64 + 32 * k, 4), (68 + 32 * k, 4), (72 + 32 * k, 4), (78 + 32 * k, 1), (79 + 32 * k, 1)]

/-- Whether the staged plan of a port restarts it (R124). -/
def Mach.planRestarts (m : Mach) (p : Port) : Bool :=
  let base := planBase (portIx p)
  (restartFields (m.plan p 2 1)).any fun f => bankLe m.regs.staged (base + f.1) f.2 != bankLe m.regs.act (base + f.1) f.2

/-! ### Permission to launch -/

/-- Whether INTLK_N, PFAIL_N and the trip state of a port permit launching (R137). -/
def Mach.permits (m : Mach) (p : Port) : Bool := m.pwr.intlkN && !m.on F.SYS_POWER_PFAIL && !m.tripped p

/-- Note since when INTLK_N and PFAIL_N have both been high (R47), and since when everything permits launching on each port (R137). -/
def Mach.syncPermit (m : Mach) : Mach :=
  let now := m.now
  let both := m.pwr.intlkN && !m.on F.SYS_POWER_PFAIL
  let m := { m with pwr := { m.pwr with lightAt := if both then some (m.pwr.lightAt.getD now) else none } }
  [Port.A, Port.B].foldl (fun m p =>
    let ok := m.permits p
    m.modAcq p fun a => { a with clearAt := if ok then some (a.clearAt.getD now) else none }) m

/-- Device time of a port's first t_B (R47): when it is due; when INTLK_N or PFAIL_N has held it back past that, 10 µs after the later of them rose. None while
no first beat is due or one of them is low. -/
def Mach.firstAt (m : Mach) (p : Port) : Option Nat :=
  match (m.acqOf p).startAt, m.pwr.lightAt with
  | some t, some l => some (if t < l then l + 10000 else t)
  | _, _ => none

/-- Whether the probe of the latest launch is still in progress. -/
def Mach.probing (m : Mach) (p : Port) : Bool :=
  match (m.acqOf p).drive, (m.acqOf p).launches.getLast? with
  | some d, some l => decide (m.count < l.edge + ceilDiv d.probe.tp 2)
  | _, _ => false

/-- Whether INTLK_OVR lets the PSY of a port run its plan (R138): INTLK_N is low, and neither the power-fail warning nor a trip cuts drive. -/
def Mach.overridden (m : Mach) (p : Port) : Bool :=
  !m.pwr.intlkN && m.on (F.ESC_INTLK_OVR_OVR (portIx p)) && !m.tripped p && !m.on F.SYS_POWER_PFAIL

/-! ### What a launch drives -/

/-- What a launch drives (R129, R130) under the plan of a bank: PRE_W = 0 drives no pre-charge. -/
def Mach.driveIn (m : Mach) (b : List (Nat × Nat)) (p : Port) (k : Nat) (probe : Probe) (gate : Bool) : Drive :=
  let a := bandAt p k
  let dly := signedOf 16 (bankLe b (a + 16) 2)
  let pre := bankLe b (a + 21) 1
  { probe := probe, fsMv := m.get (F.ESC_PSY_FS_FS_MV (portIx p)), hold := signedOf 8 (m.get (F.ESC_GATE_HOLD_HOLD (portIx p))), gate := gate, preAt := dly - pre, preW := pre, preAmp := if pre = 0 then 0 else bankLe b (a + 22) 1,
    gateAt := dly, gateW := bankLe b (a + 18) 2, gateAmp := bankLe b (a + 20) 1 }

/-- The same under the plan in force. -/
def Mach.driveOf (m : Mach) (p : Port) (k : Nat) (probe : Probe) (gate : Bool) : Drive := m.driveIn m.regs.act p k probe gate

/-- The gate code that a launch drives at a step of 416.67 ps relative to t_k (R130). -/
def Drive.gateCode (d : Drive) (step : Int) : Int :=
  if d.gate && decide (d.gateAt ≤ step) && decide (step < d.gateAt + d.gateW) then d.gateAmp
  else if d.gate && decide (d.preAt ≤ step) && decide (step < d.preAt + d.preW) then d.preAmp
  else d.hold

/-- The gate output in µV differential: 11.76 mV a code (R130). -/
def gateUv (code : Int) : Int := code * 11760

/-- The I and Q outputs of a launch at sample `n` in mV differential: code ±2,047 drives ±FS_MV / 2 (R129). -/
def Drive.outMv (d : Drive) (n : Nat) : Rat × Rat :=
  let mv (c : Int) : Rat := (c * d.fsMv : Rat) / (2 * 2047 : Nat)
  (mv (d.probe.sample n).1, mv (d.probe.sample n).2)

/-- The code that a port's gate holds between launches (R130). -/
def Mach.gateHold (m : Mach) (p : Port) : Int :=
  match (m.acqOf p).drive with | some d => d.hold | none => signedOf 8 (m.get (F.ESC_GATE_HOLD_HOLD (portIx p)))

/-- What a launch adds to the gate's integral from step `a` to step `b` relative to t_k, steps × code² (R139, R140). -/
def Drive.energyIn (d : Drive) (a b : Int) : Nat :=
  let part (from_ : Int) (w : Nat) : Nat := (min (from_ + w) b - max from_ a).toNat
  if d.gate then part d.gateAt d.gateW * d.gateAmp ^ 2 + part d.preAt d.preW * d.preAmp ^ 2 else 0

/-- The launch in progress: its sub-band and t_k on the TIS count. -/
def Acq.latest (a : Acq) : Nat × Nat := (a.k - 1, a.edge0 + (a.k - 1) * a.set.tl)

/-- The next launch of a port: its sub-band, t_k on the TIS count, and the settings it will run with (R122, R124, R135). A commit that waits for the port applies at
the next t_B (R4). -/
def Mach.nextLaunch (m : Mach) (p : Port) : Option (Nat × Nat × List (Nat × Nat)) :=
  let a := m.acqOf p
  let next := if m.pendingIn (portIx p) then m.regs.staged else m.regs.act
  match a.restarting with
  | some e => some (0, e, next)
  | none =>
    if !m.running p then (m.firstAt p).map fun t => (0, m.count + m.cyclesUntil t, next)
    else if a.k < a.set.n then some (a.k, a.edge0 + a.k * a.set.tl, m.regs.act)
    else some (0, a.edge0 + a.set.n * a.set.tl, next)

/-- Whether light may be launched at an instant to come, as things stand (R137): drive is not cut, or it resumes at a t_B there, 10 µs or more after everything
permits launching. -/
def Mach.litAt (m : Mach) (p : Port) (k edge : Nat) : Bool :=
  let a := m.acqOf p
  if !m.running p then m.permits p
  else !a.cut || (k == 0 && (match a.clearAt with | some t => decide (t + 10000 ≤ m.timeOf edge) | none => false))

/-- Steps of 416.67 ps from an instant on the TIS count to now. -/
def Mach.stepsFrom (m : Mach) (edge : Nat) : Int := 2 * ((m.count : Int) - (edge : Nat))

/-- What the pre-charge of the next launch has added before its t_k (R130, R140). -/
def Mach.preEnergy (m : Mach) (p : Port) : Nat :=
  match m.nextLaunch p with
  | some (k, edge, b) => if m.litAt p k edge then (m.driveIn b p k ⟨0, 0, 0, 0, 0, 0⟩ true).energyIn (-65536) (min 0 (m.stepsFrom edge)) else 0
  | none => 0

/-- What the launches of the beat have added to the gate's integral, that in progress up to now; sub-band 0 counts from t_B (R140). -/
def Mach.gateEnergy (m : Mach) (p : Port) : Nat :=
  let a := m.acqOf p
  let (k, edge) := a.latest
  a.energy + (match a.drive with | some d => d.energyIn (if k = 0 then 0 else -65536) (m.stepsFrom edge) | none => 0)

/-- The integral of a port's gate code since t_B (R140): its launches, and the pre-charge of the next. -/
def Mach.beatEnergy (m : Mach) (p : Port) : Nat := m.gateEnergy p + m.preEnergy p

/-- A cut truncates the probe of the latest launch (R16, R134): its stamp is discarded and it is no miss. LMON_DELAY, the runs and its instants are what they were
before; an LMON_FAULT or LMON_OK that it has issued stays issued (log entry 83). -/
def Mach.unmonitor (m : Mach) (p : Port) : Mach :=
  let i := portIx p
  let a := m.acqOf p
  match a.was with
  | none => m
  | some w =>
    let m := m.put (F.ESC_LMON_DELAY_DELAY i) w.delay
    let m := if w.missed then m.put (F.ESC_LMON_MISS_CNT_COUNT i) (m.get (F.ESC_LMON_MISS_CNT_COUNT i) - 1) else m
    m.modAcq p fun a => { a with
      was := none, lmonLsb := w.lmonLsb, missRun := w.missRun, hitRun := w.hitRun
      launches := a.launches.map fun l => if l.acq = a.acqNo ∧ l.m = w.m then { l with time := w.time, lsb := w.lsb } else l }

/-- Cut probe drive on a port (R136, R137): both PSY outputs go to code 0, but for a PSY under override (R138), the gate goes to its hold level and RTRIG goes
low. A probe in progress is truncated: its tick is treated as suppressed and is no miss (R16), its LMON window closes, and what its stamp or miss did is undone. -/
def Mach.cutDrive (m : Mach) (p : Port) : Mach :=
  let trunc := m.probing p
  let overs := m.overridden p
  let sofar := m.beatEnergy p
  let m := m.modRaman p fun r => { r with trigEnd := none }
  let m := if trunc then m.unmonitor p else m
  let m := m.modAcq p fun a =>
    let last := a.launches.getLast?.map fun l => (l.acq, l.m)
    { a with
      cut := true, energy := sofar, drive := if overs then a.drive.map fun d => { d with gate := false } else none
      launches := if trunc then a.launches.map fun l => if some (l.acq, l.m) = last then { l with dark := true, missed := false } else l else a.launches
      window := if trunc then a.window.map fun w => { w with live := false } else a.window }
  let m := m.rawNote p
  if m.running p then m.put (F.ESC_STATUS_DARK (portIx p)) 1 else m

/-- INTLK_OVR no longer lets the PSY run, by a write of OVR = 0 or as INTLK_N rises (R138): while drive is cut the PSY stops. -/
def Mach.ovrWritten (m : Mach) (p : Port) : Mach :=
  if (m.acqOf p).cut && !m.overridden p then m.modAcq p fun a => { a with drive := none } else m

/-- Drive resumes at a t_B at least 10 µs after everything permits launching (R137). -/
def Mach.resumeDrive (m : Mach) (p : Port) : Mach :=
  let a := m.acqOf p
  let ok := match a.clearAt with | some t => decide (t + 10000 ≤ m.now) | none => false
  if a.cut && ok then (m.modAcq p fun a => { a with cut := false }).put (F.ESC_STATUS_DARK (portIx p)) 0 else m

/-- INTLK_N falls for `ns` (R136): 100 ns or longer cuts drive on both ports, less than 50 ns never; between them it is open. -/
def Mach.intlkLow (m : Mach) (ns : Nat) : Mach :=
  if !m.pwr.intlkN then m
  else
    let (k, m) := m.fresh
    let cuts := decide (100 ≤ ns) || (decide (50 ≤ ns) && Config.openValue k % 2 == 1)
    let m := { m with pwr := { m.pwr with intlkN := false, intlkCut := cuts } }
    let m := (m.put (F.ESC_STATUS_INTLK_LOW 0) 1).put (F.ESC_STATUS_INTLK_LOW 1) 1
    let m := if cuts then ((m.cutDrive .A).cutDrive .B).emit 18 0 0 0 else m
    m.syncPermit

/-- INTLK_N rises (R136, R137). -/
def Mach.intlkHigh (m : Mach) : Mach :=
  if m.pwr.intlkN then m
  else
    let cuts := m.pwr.intlkCut
    let m := { m with pwr := { m.pwr with intlkN := true, intlkCut := false } }
    let m := (m.put (F.ESC_STATUS_INTLK_LOW 0) 0).put (F.ESC_STATUS_INTLK_LOW 1) 0
    let m := if cuts then m.emit 18 1 0 0 else m
    ((m.ovrWritten .A).ovrWritten .B).syncPermit

/-- Whether the running integral of a port's gate exceeds the limit of R140, DUTY_MAX / 4,096 of a whole beat at full code, by more than 1/64. -/
def Mach.overEnergy (m : Mach) (p : Port) : Bool :=
  let limit := m.get (F.ESC_LIM_DUTY_DUTY_MAX (portIx p)) * 255 ^ 2 * 2 * ((m.acqOf p).set.tl * (m.acqOf p).set.n)
  decide (65 * limit < 64 * 4096 * m.beatEnergy p)

/-- ENERGY_TRIP (R140): a faulty gate path adds `extra` (steps × code²) to the integral of the beat; past the limit drive is cut on that port alone until the trip
is cleared. -/
def Mach.energyTrip (m : Mach) (p : Port) (extra : Nat) : Mach :=
  let m := m.modAcq p fun a => { a with energy := a.energy + extra }
  if m.running p && !m.tripped p && m.overEnergy p then
    let m := (m.put (F.ESC_STATUS_TRIPPED (portIx p)) 1).put (F.ESC_TRIP_TRIPPED (portIx p)) 1
    (((m.cutDrive p).emit (6 + portIx p) 8 (evPort p) 0).ramanTrip p).syncPermit
  else m

/-- A write of 1 to TRIP.TRIPPED (R140): launching is permitted again; the Raman path rejoins under R224. -/
def Mach.tripClear (m : Mach) (p : Port) : Mach :=
  if m.tripped p then
    let m := (m.put (F.ESC_STATUS_TRIPPED (portIx p)) 0).put (F.ESC_TRIP_TRIPPED (portIx p)) 0
    let waits := m.ramanOn p && m.mustWait p
    ((m.modRaman p fun r => { r with waits := waits }).syncPermit).syncDts
  else m

/-! ### The launch monitor -/

/-- Whether the LMON input of a port is enabled. -/
def Mach.lmonOn (m : Mach) (p : Port) : Bool := m.tisEnabled (portIx p)

/-- LMON_DELAY in ns, to the nearest. -/
def Mach.lmonNs (m : Mach) (p : Port) : Int := roundAway (signedOf 32 (m.get (F.ESC_LMON_DELAY_DELAY (portIx p)))) 1000

/-- The fine LSBs from t_k at which the window of sub-band `k` opens: (GATE_DLY − PRE_W) × 416.67 ps (R133). -/
def lmonLo (b : List (Nat × Nat)) (p : Port) (k : Nat) : Int :=
  (signedOf 16 (bankLe b (bandAt p k + 16) 2) - (bankLe b (bandAt p k + 21) 1 : Nat)) * 512

/-- Whether a stamp lies in a window (R133). -/
def LmonWin.holds (w : LmonWin) (t : Nat) : Bool :=
  decide ((w.edge * 1024 : Nat) + w.lo ≤ (t : Int)) && decide ((t : Int) ≤ ((w.edge * 1024 + 1228800 : Nat) : Int))

/-- Whether a stamp lies in the window of the next launch, which may open before t_k (R133): of the present beat, of the next, or of a start or restart to come. -/
def Mach.lmonNext (m : Mach) (p : Port) (t : Nat) : Bool :=
  match m.nextLaunch p with
  | some (k, edge, b) => m.litAt p k edge && decide (t < edge * 1024) && (⟨0, edge, lmonLo b p k, true, false⟩ : LmonWin).holds t
  | none => false

/-- Stamps kept for a launch that is not made are strays (R133). -/
def Mach.dropEarly (m : Mach) (p : Port) : Mach :=
  (m.bumpBy (F.ESC_LMON_STRAY_CNT_COUNT (portIx p)) (m.acqOf p).early.length).modAcq p fun a => { a with early := [] }

/-- What stands before the launch monitor takes launch `n` (R134). -/
def Mach.lmonWas (m : Mach) (p : Port) (n : Nat) (missed : Bool) : Option LmonWas :=
  let a := m.acqOf p
  (a.launches.find? fun l => l.acq == a.acqNo && l.m == n).map fun l =>
    ⟨n, m.get (F.ESC_LMON_DELAY_DELAY (portIx p)), a.lmonLsb, a.missRun, a.hitRun, l.time, l.lsb, missed⟩

/-- An LMON stamp, in fine LSBs (R133, R134): the first in the window of a live launch is its optical instant; one in the window of the next launch waits for it;
one outside every window is a stray. -/
def Mach.lmonStamp (m : Mach) (p : Port) (t : Nat) : Mach :=
  let i := portIx p
  let a := m.acqOf p
  match a.window.filter (LmonWin.holds · t) with
  | none => if m.lmonNext p t then m.modAcq p fun a => { a with early := a.early ++ [t] } else m.bump (F.ESC_LMON_STRAY_CNT_COUNT i)
  | some w =>
    if !w.live || w.stamp then m
    else
      let ps := roundAway (((t : Int) - (w.edge * 1024 : Nat)) * 625) 768
      let was := m.lmonWas p w.m false
      let m := m.put (F.ESC_LMON_DELAY_DELAY i) (codeOf 32 ps)
      let time := ((m.timeAt w.edge : Int) + roundAway ps 1000).toNat
      let m := m.modAcq p fun a => { a with
        was := was, window := some { w with stamp := true }, lmonLsb := (t : Int) - (w.edge * 1024 : Nat)
        launches := a.launches.map fun l => if l.acq = a.acqNo ∧ l.m = w.m then { l with time := time, lsb := t } else l
        missRun := 0, hitRun := a.hitRun + 1 }
      let m := m.rawNote p
      let a := m.acqOf p
      if a.lmonBad && a.hitRun == 16 then (m.modAcq p fun a => { a with lmonBad := false }).emit (6 + i) 7 (evPort p) 0 else m

/-- LMON_WINDOW_CLOSE (R133, R134): the window ends 1 µs after t_k; a live window without a stamp is a miss. -/
def Mach.lmonClose (m : Mach) (p : Port) : Mach :=
  let i := portIx p
  match (m.acqOf p).window with
  | none => m
  | some w =>
    let m := (m.reach (w.edge + 1200)).modAcq p fun a => { a with window := none }
    if !w.live || w.stamp then m
    else
      let was := m.lmonWas p w.m true
      let m := m.bump (F.ESC_LMON_MISS_CNT_COUNT i)
      let m := m.modAcq p fun a => { a with
        was := was, launches := a.launches.map fun l => if l.acq = a.acqNo ∧ l.m = w.m then { l with missed := true } else l
        hitRun := 0, missRun := a.missRun + 1 }
      let m := m.rawNote p
      let a := m.acqOf p
      if !a.lmonBad && a.missRun == 16 then (m.modAcq p fun a => { a with lmonBad := true, hitRun := 0 }).emit (6 + i) 6 (evPort p) 0 else m

/-- The beat marker of a port is stamped at each t_B, with fine code 0 (Table 05-5). -/
def Mach.beatMarker (m : Mach) (p : Port) (edge : Nat) : Mach := (m.tisEdge (6 + portIx p) (edge % 2 ^ 48) 0).1

/-- Whether an input stamps falling edges (TIS.CTRL.FALL, R112). -/
def Mach.tisFalls (m : Mach) (i : Nat) : Bool :=
  if i = 0 then m.on F.TIS_CTRL_FALL_A else if i = 1 then m.on F.TIS_CTRL_FALL_B else bitOf (m.get F.TIS_CTRL_FALL) (i - 2)

/-- An edge on an input of the TIS (R112, R113, Table 05-5): an edge of the other polarity than the selected one is none. LMON edges go to the Escapement, edges
of PPS_IN and REF_IN to the Regulator. -/
def Mach.tisInput (m : Mach) (i : Nat) (falling : Bool) (coarse fine : Nat) : Mach :=
  if falling != m.tisFalls i then m
  else
    let (m, ok) := m.tisEdge i coarse fine
    let t := (m.clk.wraps * 2 ^ 48 + coarse) * 1024 + fine
    if !ok then m
    else if i = 0 then m.lmonStamp .A t
    else if i = 1 then m.lmonStamp .B t
    else if i = 2 then (m.regEdge 4 t).ppsPulse t
    else if i = 5 then m.regEdge 5 t
    else m

/-! ### Acquisition -/

/-- Close the open row of tiles (R260). -/
def Acq.closeRow (a : Acq) : Acq := { a with rows := a.rows.map fun r => { r with closed := true } }

/-- Tile counting restarts (R65, R260); the zone and overview intervals of the restart before end with its last tile (R279, R280). -/
def Mach.restartTiles (m : Mach) (p : Port) : Mach :=
  let m := m.modAcq p fun a => { a.closeRow with tiles0 := a.tiles0 + 1, nextRow := 0 }
  m.completeTiles p

/-- A state reset of the whole port from the present beat (R210): a new pipe state; the runs of the old one end. -/
def Mach.resetPipe (m : Mach) (p : Port) : Mach :=
  let m := m.modAcq p fun a => { a with gen := a.gen + 1, resetAt := some a.beat }
  m.endState p

/-- The index registers of the present beat. -/
def Mach.syncBeat (m : Mach) (p : Port) : Mach :=
  let a := m.acqOf p
  let i := portIx p
  let m := m.put64 (F.ESC_BEAT_LO_BEAT i) (F.ESC_BEAT_HI_BEAT i) a.beat
  (m.put (F.ESC_STATUS_PAT_STEP i) ((a.beat - a.b0) % max a.set.flips.length 1)).syncPipe p

/-- A group that failed twice before this acquisition keeps its marks; those of the acquisition before stay for its ticks (boundary of R185). -/
def Mach.beginLog (m : Mach) (p : Port) : Mach :=
  let h := 2 * (m.acqOf p).t0
  let st := m.get F.ADC_STATUS_GROUP_FAIL
  m.modLog p fun l =>
    let lacks (g : Nat) : Bool := bitOf st g && !(l.fail.any fun x => x.key == g && x.to_.isNone)
    { l with fail := ((((List.range 4).map (4 * portIx p + ·)).filter lacks).map fun g => ⟨g, h, none⟩) ++ l.fail }

/-- The first t_B of an acquisition, at TIS count `edge` (R107, R123, R135, R149, R188, R210): beat index 0, pattern step 0. -/
def Mach.startBeat (m : Mach) (p : Port) (edge : Nat) (first wasFixed : Bool) : Mach :=
  let i := portIx p
  let tB := m.timeAt edge
  let m := m.beatMarker p edge
  let m := m.modAcq p fun a => { a with
    startAt := none, restarting := none, acqNo := a.acqNo + 1, beat := 0, m := 0, k := 0, b0 := 0, t0 := edge, edge0 := edge, tB := tB, seg := a.seg + 1,
    gaps := 0, lent := false, ended := false, suspect := none, drive := none, energy := 0 }
  let m := (m.put (F.ESC_STATUS_RUNNING i) 1).put (F.ESC_STATUS_RESTARTING i) 0
  let m := (m.restartTiles p).resetPipe p
  let u := m.planSet p
  let m := (m.modAcq p fun a => { a with set := u }).trimLog p
  let m := (m.coherentBoundary p true).beginLog p
  let m := if first then m.cfeStart p true else (m.cfeStart p false).cfeBeat p wasFixed (2 * edge)
  let m := m.clearChannels p
  let m := (m.syncFigures p).resumeDrive p
  ((m.rawBeat p 0).syncBeat p).syncDts

/-- Start an acquisition whose first t_B is due, once INTLK_N and PFAIL_N are high (R47, R135). A commit that waits for the port's next t_B applies there (R4,
R63). In SAFE no launch is issued (R48), nor in the drain of a warm reset (R425). -/
def Mach.startAcq (m : Mach) (p : Port) : Mach :=
  match m.firstAt p with
  | none => m
  | some t =>
    if m.running p || m.get F.SYS_STATE_MODE == 2 || !m.on (F.ESC_CTRL_RUN (portIx p)) || m.pwr.drain.isSome then m
    else
      let m := (m.advance (m.cyclesUntil t)).applyDomain (portIx p)
      if !m.on (F.ESC_CTRL_RUN (portIx p)) then ((m.dropEarly p).modAcq p fun a => { a with startAt := none }).syncFigures p
      else
        let m := m.modAcq p fun a => { a with cut := m.tripped p }
        m.startBeat p m.count true false

/-- Acquisition of a port ends (R135): the open tiles close, runs of fades end, the raw window and the captures end with what was taken. -/
def Mach.endAcq (m : Mach) (p : Port) : Mach :=
  let i := portIx p
  let m := (((m.lendStop p).rawCut p).lmonClose p).dropEarly p
  let m := m.modAcq p fun a => { a with ended := true, was := none, ends := (a.acqNo, a.m) :: a.ends.filter fun e => m.caps.any fun c => c.2.port == p && c.2.acq == e.1,
                                        drive := none, k := 0 }
  let m := (m.restartTiles p).endState p
  m.put (F.ESC_STATUS_DARK i) 0

/-- A port stops (R135, R48). -/
def Mach.stopAcq (m : Mach) (p : Port) : Mach :=
  let i := portIx p
  let m := m.endAcq p
  let m := m.modAcq p fun a => { a with restarting := none, cut := false }
  (((m.put (F.ESC_STATUS_RUNNING i) 0).put (F.ESC_STATUS_RESTARTING i) 0).syncPipe p).syncDts

/-- The pipe state of a port is cleared (R428, Table 18-3): its cells, the ticks still to be formed, and the tiles being filled. -/
def Mach.pipeClear (m : Mach) (p : Port) : Mach :=
  let m := m.modAcq p fun a => { a with gen := a.gen + 1, resetAt := none, launches := [], rows := [], tiles := [], cells := [], window := none, was := none, early := [] }
  (m.modZone p fun u => { u with ovBins := [] }).syncPipe p

/-- What a port reset clears once acquisition has ended (R428, Table 18-3): the pipe state, rangers, the Raman frame, trigger channels, the port's tiles in the Train
and the codec; its captures end with what the Reserve holds, and its tiles leave the Reserve's index. -/
def Mach.portClear (m : Mach) (p : Port) : Mach :=
  let i := portIx p
  let m := ((m.pipeClear p).trainClear p).endCaptures [p]
  let m := m.modCodec fun c => { c with queue := c.queue.put p [], out := c.out.filter fun b => b.tile.id.port != p }
  let m := (((m.put (gainFld p .X) 0).put (gainFld p .Y) 0).putRanger p .X {}).putRanger p .Y {}
  let waits := m.ramanOn p && m.mustWait p
  let m := ((m.abandon p).modRaman p fun r => { r with waits := waits }).clearChannels p
  let m := { m with rsv := { m.rsv with blocks := m.rsv.blocks.filter fun b => b.tile.id.port != p } }
  (m.put (F.CPP_STATUS_RESYNCING i) 0).syncOldest

/-- The plan restart interval begins at a t_B (R124): RT_cfg and TP_max of the old plan and 2 µs, rounded up to a cycle. STATUS.RUNNING reads 1 beside RESTARTING
through the interval: the spec does not say which it reads (DESIGN CHOICE, log entry 81). -/
def Mach.beginRestart (m : Mach) (p : Port) (old : PipeSet) (edge : Nat) : Mach :=
  let tp := (List.range old.n).foldl (fun x k => max x (old.band k 2)) 0
  let m := m.endAcq p
  let m := m.modAcq p fun a => { a with restarting := some (edge + old.range * old.d + ceilDiv tp 2 + 2400) }
  ((m.put (F.ESC_STATUS_RESTARTING (portIx p)) 1).syncPipe p).syncDts

/-- Whether an in-place change from one beat's settings to another's resets the pipe state (R124, R210). -/
def resetsState (a b : PipeSet) : Bool := a.g != b.g || a.dly != b.dly || a.pairs != b.pairs

/-- BEAT_BOUNDARY (R4, R48, R63, R122 to R124, R135, R137, R180): t_B of the next beat. Where the commit that applies here clears RUN and MON_EN at once, the port
stops with its common-mode fault kept, and the fault ends at a later t_B: R152 does not say that a t_B at which acquisition ends clears it
(DESIGN CHOICE, log entry 83). -/
def Mach.beatBoundary (m : Mach) (p : Port) : Mach :=
  let a := m.acqOf p
  let i := portIx p
  if !m.blocksRun p || a.k < a.set.n then m
  else
    let old := a.set
    let edge := a.edge0 + old.tl * old.n
    -- the gap has passed, whether or not its rows came; gaps count from the acquisition's start (R181)
    let m := (((m.lendStart p).lendEnd p).reach edge).modAcq p fun a => { a with lent := false, gaps := a.gaps + 1 }
    let commit := m.pendingIn i
    let runs := if commit then mapGet 0 m.regs.staged (F.ESC_CTRL_RUN i).key == 1 else m.on (F.ESC_CTRL_RUN i)
    let restarts := commit && m.planRestarts p
    let wasFixed := m.on (F.AFE_CFE_CTRL_FIXED i)
    let safe := m.get F.SYS_STATE_MODE == 2
    -- a warm reset, a port reset and SAFE end the acquisition before a commit named here applies (R48, R425, R428)
    if m.pwr.drain.isSome then m.stopAcq p
    else if a.resetWrite.isSome then (m.stopAcq p).portClear p
    else if safe then (m.stopAcq p).abandon p
    else
      let m := m.applyDomain i
      if !runs then (m.stopAcq p).syncFigures p
      else if restarts then ((m.cfeBeat p wasFixed (2 * edge)).beginRestart p old edge).syncFigures p
      else
        let tB := m.timeAt edge
        let m := m.beatMarker p edge
        let m := m.modAcq p fun a => { a with beat := a.beat + 1, k := 0, edge0 := edge, tB := tB, drive := none, energy := 0 }
        let m := (m.trimLog p).coherentBoundary p false
        let u := m.planSet p
        let m := if commit then
            let m := m.modAcq p fun a => { a with set := u, seg := a.seg + 1, b0 := a.beat }
            let m := ((m.restartTiles p).syncFigures p).endState p
            if resetsState old u then m.resetPipe p else m
          else m.modAcq p fun a => { a with set := u }
        let m := (m.cfeBeat p wasFixed (2 * edge)).resumeDrive p
        (m.rawBeat p (m.acqOf p).beat).syncBeat p

/-- PLAN_RESTART_END (R124): acquisition restarts with beat index 0; a commit that came during the interval applies at this t_B (R4, R63). -/
def Mach.restartEnd (m : Mach) (p : Port) : Mach :=
  match (m.acqOf p).restarting with
  | none => m
  | some edge =>
    if m.pwr.drain.isSome then m.stopAcq p
    else if (m.acqOf p).resetWrite.isSome then (m.stopAcq p).portClear p
    else if m.get F.SYS_STATE_MODE == 2 then (m.stopAcq p).abandon p
    else
      let wasFixed := m.on (F.AFE_CFE_CTRL_FIXED (portIx p))
      let m := (m.reach edge).applyDomain (portIx p)
      if !m.on (F.ESC_CTRL_RUN (portIx p)) then (m.stopAcq p).syncFigures p else m.startBeat p edge false wasFixed

/-- A launch joins the open row of tiles, or opens the next (R260). -/
def Acq.join (a : Acq) : Acq × TileRow :=
  match a.rows.getLast? with
  | some r =>
    if r.closed then
      let n : TileRow := { restart := a.tiles0, trow := a.nextRow, m0 := a.m, ticks := 1 }
      ({ a with rows := a.rows ++ [n], nextRow := a.nextRow + 1 }, n)
    else
      let n := { r with ticks := r.ticks + 1, closed := decide (8 ≤ r.ticks + 1) }
      ({ a with rows := a.rows.dropLast ++ [n] }, n)
  | none =>
    let n : TileRow := { restart := a.tiles0, trow := a.nextRow, m0 := a.m, ticks := 1 }
    ({ a with rows := [n], nextRow := a.nextRow + 1 }, n)

/-- The epoch marks of a port with the tick that is launched now (R64); marks of acquisitions that no capture reads any more are dropped. -/
def Acq.marked (a : Acq) (epoch : Nat) (part : Bool) (used : List Nat) : List EpochMark :=
  let l := a.epochs.filter fun e => e.acq == a.acqNo || used.contains e.acq
  match l.head? with
  | some e => if e.acq = a.acqNo ∧ e.epoch = epoch ∧ e.part = part then l else ⟨a.acqNo, a.m, epoch, part⟩ :: l
  | none => [⟨a.acqNo, a.m, epoch, part⟩]

/-- SUBBAND_LAUNCH (R122, R123, R128, R130, R133, R137, R138): the probe of sub-band k is synthesised and the gate opens around it; while drive is cut, or under
INTLK_OVR, the launch is suppressed for the pipe and the launch monitor. -/
def Mach.subbandLaunch (m : Mach) (p : Port) (k : Nat) : Mach :=
  let a := m.acqOf p
  let i := portIx p
  if !m.blocksRun p || k ≠ a.k || a.set.n ≤ k then m
  else
    let u := a.set
    let edge := a.edge0 + k * u.tl
    let m := (m.lmonClose p).reach edge
    let step := (a.beat - a.b0) % max u.flips.length 1
    let overs := m.overridden p
    let sofar := m.gateEnergy p
    let dark := a.cut || overs
    let probe := makeProbe (signedOf 32 (u.band k 0)) (u.band k 1) (u.band k 2) (u.band k 3) (u.band k 4) (u.dirAt step k) (u.phases.getD step 0)
    let drive := if dark && !overs then none else some (m.driveOf p k probe (!dark))
    let lmon := m.lmonOn p
    let time := if lmon then ((m.timeAt edge : Int) + m.lmonNs p).toNat else m.timeAt edge
    let lsb := if lmon then ((edge * 1024 : Nat) + a.lmonLsb).toNat else edge * 1024
    let ep := m.epochOf i
    let used : List Nat := (m.caps.filter fun (c : Nat × Capture) => c.2.port == p).map fun (c : Nat × Capture) => c.2.acq
    let m := m.modAcq p fun a =>
      let (a, r) := a.join
      let a := { a with epochs := a.marked ep.1 ep.2 used }
      let l : Launch := { acq := a.acqNo, m := a.m, beat := a.beat, k := k, edge := edge, time := time, lsb := lsb, step := step, dark := dark,
                          suspect := a.suspect == some a.beat, seg := a.seg, gen := a.gen, restart := r.restart, trow := r.trow, set := u,
                          epoch := ep.1, part := ep.2, t0 := a.t0 }
      { a with launches := a.launches ++ [l], m := a.m + 1, k := k + 1, drive := drive, early := [], was := none, energy := sofar
               window := if lmon && !dark then some { m := l.m, edge := edge, lo := lmonLo m.regs.act p k } else none }
    let m := if dark then m.bump (F.ESC_DARK_CNT_COUNT i) else m
    let m := a.early.foldl (fun m t => m.lmonStamp p t) (m.rawNote p)
    (m.putB (F.ESC_STATUS_DARK i) dark).syncPipe p

/-- The last tick of a capture's acquisition when that has ended (R292). -/
def Mach.captureEnd (m : Mach) (c : Capture) : Option Nat :=
  ((m.acqOf c.port).ends.find? fun e => e.1 == c.acq).map fun e => e.2 - 1

/-! ### The end of a raw window -/

/-- Whether every launch of the beats that a window took has been made: their ticks' flags stand in its records (R388). -/
def Mach.rawMade (m : Mach) (w : RawWin) : Bool :=
  let a := m.acqOf w.port
  w.ended || (w.taken.length == w.beats && w.taken.all fun b => a.acqNo != b.acq || a.beat != b.beat || decide (a.set.n ≤ a.k))

/-- Time comes to the end of the last block of a window; the fibre-end gap that it reaches into has begun, and the launch monitor has judged the launch in progress. -/
def Mach.rawTaken (m : Mach) (w : RawWin) : Mach :=
  match w.taken.getLast? with
  | none => m
  | some b =>
    let a := m.acqOf w.port
    let e := blockAt b.t0 b.wide (b.block + w.blocks)
    if w.ended || a.acqNo != b.acq || a.beat != b.beat then m
    else
      let m := m.lmonClose w.port
      let m := if 2 * a.gapEdge < e then m.lendStart w.port else m
      m.reach (ceilDiv e 2)

/-- The records of a window's beats are formed from what stands in the raw area (R189, R344, R388); a beat that holds a burst lost in both copies is replaced by a GAP
record of REASON 4 (R320). -/
def Mach.rawForm (m : Mach) (p : Port) (taken : List RawBeat) (data : List (List RawEntry)) : Mach :=
  let g := (m.acqOf p).log
  (taken.zip data).foldl (fun m x =>
    let b := x.1
    let (m, lost) := m.rawFetch b.pos b.len
    let d : Draft := { typ := 8, port := portIx p, flags := bit b.part + b.flags, epoch := b.epoch, beat := b.beat, lsb := b.lsb }
    if lost then m.draft { d with flags := bit b.part, lsb := m.lsbNow, bodies := [gapPayload 4 0 1 0 b.beat 0 b.beat (b.ticks - 1) 0 0], gap := true }
    else m.draft { d with bodies := [rawPayload g p b x.2] }) m

/-- RAW_WINDOW_DONE (R189, R344, R388): once the last block has been taken, the window's records, one per beat, leave the raw area for the journal, which holds
them when DONE is set. -/
def Mach.rawDone (m : Mach) (data : List (List RawEntry)) : Mach :=
  match m.adc.raw with
  | none => m
  | some w =>
    if !m.rawMade w || data.length != w.taken.length || !((w.taken.zip data).all fun x => rawFits w x.1 x.2) then m
    else
      let m := m.rawTaken w
      let taken := match m.adc.raw with | some w => w.taken | none => []
      let m := (m.rawForm w.port taken data).flush.modAdc fun a => { a with raw := none }
      ((m.put F.ADC_RAW_STATUS_BEATS_DONE w.taken.length).put F.ADC_RAW_STATUS_BUSY 0).put F.ADC_RAW_STATUS_DONE 1

end Sys2Proof.Machine
end

