-- ==== Sys2Proof/Machine/CalCmd.lean ====
section
/-!
DEFINITION. Machine/CalCmd.lean: on-command calibration (R413 to R418): the command and its conditions, the scopes of Table 17-3 as they end, the result
set and the abort.
-/
namespace Sys2Proof.Machine

/-- Change calibration's part. -/
def Mach.modCal (m : Mach) (f : Cal → Cal) : Mach := { m with cal := f m.cal }

/-- Bring CMD_STATUS.STATE and STATUS.DAC_BUSY in step: WAIT while the HKC completes injected conversions (R168, R418); scopes 0 to 5 hold the
calibration DAC (Table 17-3, R413). -/
def Mach.syncCal (m : Mach) : Mach :=
  let wait := m.on F.HKC_STATUS_CAL_WAIT
  let m := m.put F.CAL_CMD_STATUS_STATE (if m.calBusy then (if wait then 1 else 2) else 0)
  m.putB F.CAL_STATUS_DAC_BUSY (m.cal.todo.any fun n => decide (n ≤ 5))

/-- Scopes 0 and 6 request the HKC when their turn comes (R168, R414). -/
def Mach.calHkc (m : Mach) : Mach :=
  let t := m.cal.todo
  let due := t.contains 0 || (t.contains 6 && !(t.any fun n => decide (n ≤ 5)))
  if due && !m.on F.HKC_STATUS_CAL && !m.on F.HKC_STATUS_CAL_WAIT then m.hkcCalStart else m

/-- The scopes start (R414, R417): lending in progress ends (R413) and CAL_START is issued. -/
def Mach.calStart (m : Mach) (scope dest : Nat) : Mach :=
  let now := m.now
  let m := m.modCal fun c => { c with startAt := now, ends := [], scope := scope, todo := (List.range 9).filter fun n => bitOf scope n, dest := dest, result := [] }
  let m := (m.put F.CAL_CMD_STATUS_REASON 0).put F.CAL_CMD_STATUS_DONE 0
  let m := if m.cal.todo.any fun n => decide (n ≤ 5) then (m.lendEnd .A).lendEnd .B else m
  (m.calHkc.syncCal).emit 17 0 0 0

/-- The first condition of Table 17-4 that refuses a command; 0 when none does. -/
def Mach.calRefusal (m : Mach) (scope : Nat) : Nat :=
  if m.calBusy then 1
  else if ((bitOf scope 1 || bitOf scope 3) && m.running .A) || ((bitOf scope 2 || bitOf scope 4) && m.running .B) then 2
  else if bitOf scope 5 && (m.ramanOn .A || m.ramanOn .B) then 3
  else if bitOf scope 8 && !m.qualified 5 then 4
  else if bitOf scope 8 && m.get F.CLK_REG_STATUS_STATE != 0 then 5
  else 0

/-- A secure write to G-CAL.CMD (R414): without its KEY it does nothing, and a SCOPE of zero is ignored (Table 17-6). -/
def Mach.calCommand (m : Mach) (w : Nat) : Mach :=
  let scope := bitsOf w 8 0
  if bitsOf w 31 16 ≠ 0x5AFE ∨ scope = 0 then m
  else
    let r := m.calRefusal scope
    if r ≠ 0 then m.put F.CAL_CMD_STATUS_REASON r else m.calStart scope (bitsOf w 14 12)

/-- A port whose RUN is in force and which a scope held back has its first t_B 10 µs after (R418); in the start sequence it waits for step 12. -/
def Mach.calRelease (m : Mach) (p : Port) : Mach :=
  let held := [1 + portIx p, 3 + portIx p].any fun n => m.cal.todo.contains n
  let now := m.now
  if !held && m.pwr.phase != .starting && m.on (F.ESC_CTRL_RUN (portIx p)) && !m.running p && (m.acqOf p).resetWrite.isNone then
    m.modAcq p fun a => { a with startAt := some (a.startAt.getD (now + 10000)) }
  else m

/-- Step 12 of Table 03-1: with start-up calibration over, the first t_B of every port that the image enables is due (R135, R47). -/
def Mach.startPorts (m : Mach) : Mach :=
  if m.pwr.phase == .starting && m.get F.SYS_STATE_START_STEP == 11 && !m.calBusy then
    let now := m.now
    [Port.A, Port.B].foldl (fun m p =>
      if m.on (F.ESC_CTRL_RUN (portIx p)) && !m.running p then m.modAcq p fun a => { a with startAt := some (a.startAt.getD now) } else m) m
  else m

/-- The run ends without a result (R417, R418): nothing is written, the DAC and the HKC are released, CAL_FAIL is issued. -/
def Mach.calEnd (m : Mach) (reason : Nat) : Mach :=
  let was := m.cal.todo
  let m := m.modCal fun c => { c with scope := 0, todo := [], result := [] }
  let m := if m.on F.HKC_STATUS_CAL || m.on F.HKC_STATUS_CAL_WAIT then m.hkcCalEnd else m
  let m := (m.put F.CAL_CMD_STATUS_REASON reason).syncCal
  let m := [Port.A, Port.B].foldl (fun m p => if was.contains (1 + portIx p) || was.contains (3 + portIx p) then m.calRelease p else m) m
  (m.startPorts.syncDts).emit 17 2 0 (evArg 0 reason 0)

/-- The run in progress ends as ABORT: an ABORT write, a power-fail warning, or any reset (R418). -/
def Mach.calStop (m : Mach) : Mach := if m.calBusy then m.calEnd 8 else m

/-- A write to G-CAL.ABORT (R418). -/
def Mach.calAbort (m : Mach) (w : Nat) : Mach := if bitsOf w 31 16 = 0x5AFE ∧ bitOf w 0 then m.calStop else m

/-- Whether scope `n` has its turn (R414, R168): it is still to end, what runs before it has ended, and it has the HKC if it uses it. -/
def Mach.scopeTurn (m : Mach) (n : Nat) : Bool :=
  let t := m.cal.todo
  t.contains n &&
  match n with
  | 0 => m.on F.HKC_STATUS_CAL
  | 1 | 2 => !t.contains 0
  | 3 => !t.contains 0 && !t.contains 1
  | 4 => !t.contains 0 && !t.contains 2
  | 5 => !(t.any fun k => decide (k ≤ 4))
  | 6 => !(t.any fun k => decide (k ≤ 5)) && m.on F.HKC_STATUS_CAL
  | _ => true

/-- The scopes that run before scope `n` (R414). -/
def scopesBefore (n : Nat) : List Nat :=
  match n with
  | 1 => [0]
  | 2 => [0]
  | 3 => [0, 1]
  | 4 => [0, 2]
  | 5 => [0, 1, 2, 3, 4]
  | _ => []

/-- The time that scope `n` takes, ns (Table 17-3). -/
def Mach.scopeNs (m : Mach) (n : Nat) : Nat :=
  if n = 8 then m.get F.CAL_FREQ_GATE_MS * 1000000 else [20, 80, 80, 30, 30, 40, 10, 150].getD n 0 * 1000000

/-- Time comes to the end of scope `n`: its time after its turn (R414, R168). -/
def Mach.scopeReach (m : Mach) (n : Nat) : Mach :=
  let turn := if n = 0 ∨ n = 6 then m.hkc.calAt
    else (m.cal.ends.filter fun e => (scopesBefore n).contains e.1).foldl (fun t e => max t e.2) m.cal.startAt
  m.reachNs (turn + m.scopeNs n)

/-- Scope `n` ends with what it measured: it is reported in DONE, and whatever waited for it goes on. -/
def Mach.scopeDone (m : Mach) (n : Nat) (found : List (Nat × Nat × Int)) : Mach :=
  let now := m.now
  let m := m.modCal fun c => { c with todo := c.todo.filter (· != n), result := c.result ++ found, ends := c.ends ++ [(n, now)] }
  let m := m.putBit F.CAL_CMD_STATUS_DONE n true
  let m := if n = 0 ∨ n = 6 then m.hkcCalEnd else m
  let m := m.calHkc.syncCal
  if n = 1 ∨ n = 3 then m.calRelease .A
  else if n = 2 ∨ n = 4 then m.calRelease .B
  else if n = 5 then m.syncDts
  else m

/-- DAC_SCOPE (R415): REF_RANGE beyond 2 % of REF_UV, REF_NOISE above 2 codes, else the CALDAC entry traced to CAL_REF. -/
def Mach.dacScope (m : Mach) (x : DacMeas) : Mach :=
  if !m.scopeTurn 0 || x.dHi == x.dLo then m
  else
    let m := m.scopeReach 0
    let ref : Int := m.get F.CAL_REF_UV_UV
    let m := m.put F.CAL_TRACE_REF_UV (codeOf 32 x.refUv)
    if 2 * ref < 100 * ((x.refUv - ref).natAbs : Int) ∨ x.cR = x.c0 then m.calEnd 6
    else if 32 < x.rms16 then m.calEnd 7
    else
      let volt (c : Int) : Rat := (ref : Rat) * ((c - x.c0 : Int) : Rat) / ((x.cR - x.c0 : Int) : Rat)
      let gain := (volt x.cH - volt x.cL) / ((x.dHi - x.dLo : Int) : Rat)
      let ofs := volt x.cL - gain * (x.dLo : Rat)
      m.scopeDone 0 [(0x848, 4, clampInt 0 (2 ^ 32 - 1) (roundRat (gain * (65536 : Nat)))), (0x84C, 4, clampInt (-(2 ^ 31)) (2 ^ 31 - 1) (roundRat ofs))]

/-- What a scope found for slices from number `s` up (R410, R417): coefficients with MEASURED set; a slice that fails under R183 keeps the value in force,
with MEASURED clear. -/
def sliceResults (raman : Bool) : Nat → List (SliceMeas × Bool) → List (Nat × Nat × Int)
  | _, [] => []
  | s, (x, stuck) :: t =>
    (if measCause x.ofs x.gain (if raman then 0 else x.skew) stuck = 0 then
      [(0x40 + 8 * s, 2, x.ofs), (0x42 + 8 * s, 2, x.gain)] ++ (if raman then [] else [(0x44 + 8 * s, 2, x.skew)]) ++ [(0x46 + 8 * s, 2, 1)]
     else [(0x46 + 8 * s, 2, 0)]) ++ sliceResults raman (s + 1) t

/-- The failures among the slices that a scope measured (R183). -/
def Mach.sliceFailures (m : Mach) (raman : Bool) : Nat → List (SliceMeas × Bool) → Mach
  | _, [] => m
  | s, (x, stuck) :: t =>
    let c := measCause x.ofs x.gain (if raman then 0 else x.skew) stuck
    (if c = 0 then m else m.sliceFail s c).sliceFailures raman (s + 1) t

/-- ADC_SCOPE of a port (Table 17-3): its 68 slices. -/
def Mach.adcScope (m : Mach) (p : Port) (l : List (SliceMeas × Bool)) : Mach :=
  let n := 1 + portIx p
  if !m.scopeTurn n || l.length != 68 then m
  else ((m.scopeReach n).sliceFailures false (68 * portIx p) l).scopeDone n (sliceResults false (68 * portIx p) l)

/-- Values of one size from an offset up, `step` apart. -/
def runOf (size : Nat) (step : Nat) : Nat → List Int → List (Nat × Nat × Int)
  | _, [] => []
  | off, x :: t => (off, size, x) :: runOf size step (off + step) t

/-- CFE_SCOPE of a port (Table 17-3): RGAIN of its four inputs at each code; C_QI and C_QQ of X, of Y and of X in wideband mode. -/
def Mach.cfeScope (m : Mach) (p : Port) (rgain : List Nat) (iq : List Int) : Mach :=
  let i := portIx p
  let n := 3 + i
  if !m.scopeTurn n || rgain.length != 16 || iq.length != 6 then m
  else (m.scopeReach n).scopeDone n (runOf 4 4 (0x500 + 64 * i) (rgain.map fun (x : Nat) => (x : Int)) ++ runOf 4 4 (0x600 + 16 * i) (iq.take 4) ++
                      runOf 4 4 (0x620 + 8 * i) (iq.drop 4))

/-- RFE_SCOPE (Table 17-3): the ten Raman slices and INTGAIN of the four channels. -/
def Mach.rfeScope (m : Mach) (l : List (SliceMeas × Bool)) (intGain : List Nat) : Mach :=
  if !m.scopeTurn 5 || l.length != 10 || intGain.length != 32 then m
  else ((m.scopeReach 5).sliceFailures true 136 l).scopeDone 5 (sliceResults true 136 l ++ runOf 4 4 0x680 (intGain.map fun (x : Nat) => (x : Int)))

/-- HKC_SCOPE (Table 17-3): the converter's gain from CAL_REF and ZERO as read through the factory gain; every channel's GAIN is scaled by the ratio to
the factory converter gain. -/
def Mach.hkcScope (m : Mach) (refUv zeroUv : Int) (offsets : List Int) : Mach :=
  if !m.scopeTurn 6 || decide (refUv ≤ zeroUv) || offsets.length != 32 then m
  else
    let m := m.scopeReach 6
    let ref : Int := m.get F.CAL_REF_UV_UV
    let gains := (List.range 32).map fun ch =>
      let f := m.factoryAt (coefU32 (0x740 + 8 * ch) 16777216) m.calTemp
      clampInt 0 (2 ^ 32 - 1) (roundAway (f * ref) (refUv - zeroUv).toNat)
    m.scopeDone 6 (runOf 4 8 0x740 gains ++ runOf 4 8 0x744 offsets)

/-- TIS_SCOPE (Table 17-3): the ramp table of each of the eight inputs, 1,024 lower edges. -/
def Mach.tisScope (m : Mach) (edges : List (List Nat)) : Mach :=
  if !m.scopeTurn 7 || edges.length != 8 || !(edges.all fun l => l.length == 1024) then m
  else (m.scopeReach 7).scopeDone 7 (runOf 2 2 0x1000 (edges.flatten.map fun (x : Nat) => (x : Int)))

/-- FREQ_SCOPE (R416): XO_TRIM = round((f / 10 MHz − 1) × 2^40), f in units of 2^-32 Hz. -/
def Mach.freqScope (m : Mach) (f : Nat) : Mach :=
  if !m.scopeTurn 8 then m
  else
    let ten : Nat := 10000000 * 2 ^ 32
    (m.scopeReach 8).scopeDone 8 [(0x850, 4, clampInt (-(2 ^ 31)) (2 ^ 31 - 1) (roundAway (((f : Int) - (ten : Nat)) * 2 ^ 40) ten))]

/-- Store an `n`-byte value at a table address of a bank. -/
def bankStore (b : List (Nat × Nat)) (a n : Nat) (x : Int) : List (Nat × Nat) := (⟨0, n, true, 0, 0, 1, false, 0, 0, 1⟩ : Coef).write b a x

/-- The words of the result set (R417): the set in force with KIND 1 and the scope's header, the measured parts written over it, and its CRC. -/
def Mach.resultSet (m : Mach) : List (Nat × Nat) :=
  let b := (List.range 0x17FF).foldl (fun b i => mapPut 0 b (32 * (4 * i)) (bankWord m.regs.act (forceBase + 4 * i))) []
  let b := bankStore b 0 4 0x00010001
  let b := bankStore b 4 4 (m.cal.scope : Nat)
  let b := bankStore b 8 4 m.pwr.dieMk
  let b := bankStore b 0x0C 4 (m.get F.CAL_REF_UV_UV : Nat)
  let b := bankStore b 0x10 4 (m.get F.SYS_SERIAL_LO_SERIAL : Nat)
  let b := bankStore b 0x14 4 (m.get F.SYS_SERIAL_HI_SERIAL : Nat)
  let b := bankStore b 0x18 4 (m.get F.SYS_BOOT_EPOCH : Nat)
  let b := m.cal.result.foldl (fun b x => bankStore b x.1 x.2.1 x.2.2) b
  bankStore b 0x5FFC 4 (crc32c (bankBytes b 0 0x5FFC) : Nat)

/-- Copy the words of a set to a base of a bank. -/
def copySet (set : List (Nat × Nat)) (base : Nat) (b : List (Nat × Nat)) : List (Nat × Nat) :=
  (List.range 0x1800).foldl (fun b i => mapPut 0 b (32 * (base + 4 * i)) (bankWord set (4 * i))) b

/-- CAL_RESULT_WRITE (R417): after the last scope has ended, at a module boundary, the set goes to both banks of DEST; a selected set that is rewritten clears
its background deltas (R407). -/
def Mach.calWrite (m : Mach) : Mach :=
  if !m.calBusy || !m.cal.todo.isEmpty then m
  else
    let set := m.resultSet
    let base := userBase m.cal.dest
    let m := { m with regs := { m.regs with act := copySet set base m.regs.act, shd := copySet set base m.regs.shd } }
    let m := if m.on F.CAL_USER_SEL_EN ∧ m.get F.CAL_USER_SEL_SET = m.cal.dest then m.clearBg m.cal.scope else m
    let m := m.modCal fun c => { c with scope := 0, result := [] }
    (m.syncCal.saveRet.startPorts).emit 17 1 0 0

end Sys2Proof.Machine
end

