-- ==== Sys2Proof/Machine/Checks.lean ====
section
/-!
DEFINITION. Machine/Checks.lean: the commit checks of Table 03-7 with their addresses (R62, R444), the planning rules of Table 06-5, the
pipe rules of Table 09-7, the Raman, Train, zone, trigger, codec and calibration rules, and the start of a commit (R60 to R62). A check
reads the machine with the staging copy in place of the active settings.
-/
namespace Sys2Proof.Machine

/-- The register that holds a sub-code of a failed check. -/
inductive Err where
  | none
  | plan (port code band : Nat)
  | dts (code port fibre : Nat)
  | train (code : Nat)
  | zone (code port zone : Nat)
  | chr (reason chan : Nat)
  | codec
  | cal (set : Nat)
deriving DecidableEq, Repr

/-- A failed check: its code (Table 03-7), the address of R444 and where its sub-code goes. -/
structure Fail where
  code : Nat
  addr : Nat
  err  : Err := .none
deriving DecidableEq, Repr

/-- The first failure of a list of checks. -/
def firstFail (l : List (Unit → Option Fail)) : Option Fail := l.findSome? fun f => f ()

/-- The machine as a check sees it: the settings of a bank in place of the active ones. -/
def Mach.viewed (m : Mach) (staged : List (Nat × Nat)) : Mach :=
  m.setAct ((mapKeys staged ++ mapKeys m.regs.act).foldl
    (fun b k => if (domainOf k).isSome then mapPut 0 b k (mapGet 0 staged k) else b) m.regs.act)

/-! ### Codes 0x02 to 0x05 -/

/-- The least of a list of addresses. -/
def least (l : List Nat) : Option Nat := l.foldl (fun x a => match x with | none => some a | some b => some (min a b)) none

/-- 0x02 UNNAMED_DOMAIN: the lowest staged item that differs in a domain the mask does not name. -/
def Mach.unnamed (m : Mach) (staged : List (Nat × Nat)) (mask : Nat) : Option Fail :=
  let ks := (mapKeys staged ++ mapKeys m.regs.act).filter fun k =>
    match domainOf k with
    | some d => !bitOf mask d && mapGet 0 staged k != mapGet 0 m.regs.act k
    | none => false
  (least (ks.map (· / 32))).map fun a => { code := 2, addr := a }

/-- Whether a value is no reserved encoding (R10). -/
def okVal (o : Ok) (v : Nat) : Bool :=
  match o with
  | .any => true
  | .rng lo hi => decide (lo ≤ v) && decide (v ≤ hi)
  | .mul64 lo hi => decide (lo ≤ v) && decide (v ≤ hi) && v % 64 == 0
  | .trim => decide ((signedOf 32 v).natAbs ≤ 54975581)
  | .regSrc => [0, 1, 2, 3].all fun i => decide (v / 2 ^ (8 * i) % 8 < 6)
  | .scanList => [0, 1, 2, 3].all fun i => decide (v / 2 ^ (8 * i) % 256 < 32)
  | .groupIndex => decide (348966093 ≤ v) && decide (v ≤ 456340275)
  | .chrSrc => v != 6 && v != 7
  | .injRate => v == 0 || (decide (10 ≤ v) && decide (v ≤ 40))
  | .log4 => decide (-7 ≤ signedOf 4 v) && decide (signedOf 4 v ≤ 4)

/-- The registers that hold a reserved encoding in a field that `sel` selects. -/
def reservedIn (sel : FieldSpec → Bool) (b : List (Nat × Nat)) : List Nat :=
  (List.range 20).flatMap fun blk =>
    (blockRows blk).flatMap fun r =>
      let fs := r.fields.filter fun f => sel f && f.ok != .any
      if fs.isEmpty then []
      else
        let bases := if twoHalves blk then [blk * 0x10000, blk * 0x10000 + 0x8000] else [blk * 0x10000]
        (bases.flatMap fun base => (List.range r.count).map fun i => base + r.off + r.stride * i).filter fun a =>
          unifyMc a == a && fs.any fun f => !okVal f.ok (mapGet 0 b (a * 32 + f.lsb))

/-- The registers whose fields together hold a reserved encoding. -/
def Mach.crossReserved (v : Mach) : List Nat :=
  let two := [0, 1]
  let four := [0, 1, 2, 3]
  (two.filter fun p => decide (v.get (F.AFE_CFE_CM_CM_HI p) ≤ v.get (F.AFE_CFE_CM_CM_LO p))).map (fun p => (F.AFE_CFE_CM_CM_LO p).addr) ++
  (if (v.on F.HKC_RTD_CTRL_EXC1 && v.on F.HKC_RTD_CTRL_TYPE1) || decide (6 ≤ v.get F.HKC_RTD_CTRL_RTD0) then [F.HKC_RTD_CTRL_RTD0.addr] else []) ++
  (four.filter fun n => v.on (F.NET_PORT_CTRL_FEC n) && !v.on (F.NET_PORT_CTRL_SPEED n)).map (fun n => (F.NET_PORT_CTRL_EN n).addr) ++
  (four.filter fun n => v.on (F.NET_VLAN_TAG_EN n) && (v.get (F.NET_VLAN_VID n) == 0 || v.get (F.NET_VLAN_VID n) == 4095)).map (fun n => (F.NET_VLAN_VID n).addr) ++
  (four.filter fun d => v.on (F.PTP_OC_CTRL_BK_EN d) && v.get (F.PTP_OC_CTRL_BACKUP d) == v.get (F.PTP_OC_CTRL_PRIMARY d)).map (fun d => (F.PTP_OC_CTRL_PRIMARY d).addr) ++
  (four.filter fun d => decide (v.get (F.PTP_SERVO_STEP_NS d) < v.get (F.PTP_SERVO_LOCK_NS d))).map (fun d => (F.PTP_SERVO_LOCK_NS d).addr)

/-- The base of the power policy table (R432). -/
def policyBase : Nat := 0x0FC6000

/-- The first reserved value of a power policy table (Table 18-5): its address. -/
def policyReserved (b : List (Nat × Nat)) : Option Nat :=
  let f := fun off n => bankLe b (policyBase + off) n
  let bad := [(0, f 0 2 != 1), (2, f 2 1 == 0 || decide (4 < f 2 1)), (3, f 3 1 != 0), (4, decide (f 4 4 < 10) || decide (1000000 < f 4 4)),
    (8, decide (f 8 4 < 20) || decide (3600000 < f 8 4)), (12, f 12 2 == 0 || decide (60000 < f 12 2)), (14, (List.range 14).any fun i => f (14 + i) 1 != 0)]
  (bad.find? (·.2)).map fun x => policyBase + x.1

/-- The tables with a CRC: base and length before the CRC (R120, R158, R160, R236, R274, R286, R403, R432), ascending. -/
def crcTables : List (Nat × Nat) :=
  [(0x0C00000, 32784), (0x0C10000, 32784), (0x0C20000, 32784), (0x0C30000, 32784), (0x0C40000, 32784), (0x0C50000, 32784)] ++
  ((List.range 8).map fun u => (0x0E00000 + 0x8000 * u, 0x5FFC)) ++
  [(0x0FC0000, 576), (0x0FC1000, 576)] ++
  ((List.range 4).map fun c => (0x0FC4000 + 0x80 * c, 68)) ++
  ((List.range 4).map fun o => (0x0FC4400 + 0x40 * o, 44)) ++
  [(0x0FC5000, 1024), (0x0FC5800, 1024), (0x0FC6000, 28)]

/-- Whether staging changes a table. -/
def tableStaged (staged act : List (Nat × Nat)) (t : Nat × Nat) : Bool :=
  (mapKeys staged ++ mapKeys act).any fun k =>
    decide (t.1 * 32 ≤ k) && decide (k < (t.1 + t.2 + 4) * 32) && mapGet 0 staged k != mapGet 0 act k

/-- 0x03 RESERVED_ENCODING (R10, R432). -/
def Mach.reserved (v : Mach) (staged act : List (Nat × Nat)) : Option Fail :=
  let l := reservedIn (fun f => f.acc == .rws) v.regs.act ++ v.crossReserved ++
    (if tableStaged staged act (policyBase, 28) then (policyReserved staged).toList else [])
  (least l).map fun a => { code := 3, addr := a }

/-- 0x04 TABLE_CRC: the lowest staged table whose CRC fails. -/
def badTable (staged act : List (Nat × Nat)) : Option Fail :=
  (crcTables.find? fun t => tableStaged staged act t && crc32c (bankBytes staged t.1 t.2) != bankLe staged (t.1 + t.2) 4).map fun t =>
    { code := 4, addr := t.1 + t.2 }

/-- 0x05 ZONE_LIMIT (R274). -/
def zoneLimit (staged : List (Nat × Nat)) : Option Fail :=
  ([0, 1].find? fun p => decide (4096 < zoneCount staged p)).map fun p => { code := 5, addr := zoneBase p + 4 }

/-! ### Beat plans (R125, Table 06-5) -/

/-- A sub-band entry with what the rules read. -/
structure BandView where
  centre  : Int
  bw      : Nat
  tp      : Nat
  amp     : Nat
  taper   : Nat
  dir     : Nat
  gateDly : Int
  gateW   : Nat
  gateAmp : Nat
  preW    : Nat
  preAmp  : Nat
  res     : Nat
deriving DecidableEq, Repr

/-- A staged sub-band entry (Table 06-2). -/
def bandView (b : List (Nat × Nat)) (a : Nat) : BandView :=
  ⟨signedOf 32 (bankLe b a 4), bankLe b (a + 4) 4, bankLe b (a + 8) 4, bankLe b (a + 12) 2, bankLe b (a + 14) 1, bankLe b (a + 15) 1,
    signedOf 16 (bankLe b (a + 16) 2), bankLe b (a + 18) 2, bankLe b (a + 20) 1, bankLe b (a + 21) 1, bankLe b (a + 22) 1, bankLe b (a + 23) 9⟩

/-- The fields of a sub-band that sub-code 1 checks. -/
def BandView.ok (x : BandView) : Bool :=
  x.amp != 0 && decide (x.amp ≤ 2047) && x.gateAmp != 0 && decide (240 ≤ x.tp) && decide (x.tp ≤ 61440) && decide (x.taper ≤ 3) && decide (x.dir ≤ 1) &&
  decide (x.gateDly.natAbs ≤ 2400) && x.gateW != 0 && x.res == 0

/-- The failing sub-band of sub-code 1, or 0 for a failure of the header or of a pattern step; none when it passes. -/
def planForm (b : List (Nat × Nat)) (base : Nat) (bands : List BandView) : Option Nat :=
  let f := fun off n => bankLe b (base + off) n
  let steps := List.range (f 5 1)
  if f 0 2 != 1 || f 2 1 == 0 || decide (8 < f 2 1) || f 5 1 == 0 || decide (16 < f 5 1) || decide (4 < f 3 1) || decide (1 < f 4 1) then some 0
  else
    match bands.findIdx? fun x => !x.ok with
    | some k => some k
    | none =>
      if f 6 2 != 0 || f 23 41 != 0 || steps.any fun s => f (321 + 16 * s) 3 != 0 || f (328 + 16 * s) 8 != 0 then some 0 else none

/-- The spread of the drive levels and the loss of rule 7 exceed the margin: 2 × ATTEN × L_cfg + 20 log10(A_max / A_min) against 90 dB − SEP_MARGIN. -/
def ruleSeparation (attn rt ng sep : Nat) (bands : List BandView) : Bool :=
  let a := bands.map fun x => x.amp * x.gateAmp
  let hi := a.foldl max 0
  let lo := a.foldl min hi
  -- L_cfg = RT_cfg × c / (2 × NG) with RT_cfg in cycles and NG in 2^-28, in km
  let loss : Rat := (2 * attn * rt * 299792458 * 2 ^ 28 : Nat) / (1000 * 2 * max ng 1 * 1200000000 * 1000 : Nat)
  -- the room that the loss leaves, over 20 dB: where it is a whole number of decades the levels are compared exactly, and no other room can be met exactly
  let room : Rat := ((90 : Rat) - sep - loss) / 20
  if room.isInt && decide (0 ≤ room) then decide (lo * 10 ^ room.num.toNat < hi) else decide (room < lnOf hi lo / lnOf 10 1)

/-- The first failing rule of Table 06-5 for a port (sub-codes 1 to 16), and of Table 09-7 after it (17 to 20). For rule 6 the sub-band that is named is the lower of
the first offending pair (DESIGN CHOICE, log entry 81). -/
def Mach.planFail (v : Mach) (p : Port) : Option Fail :=
  let i := portIx p
  let b := v.regs.act
  let base := planBase i
  let f := fun off n => bankLe b (base + off) n
  let n := f 2 1
  let bands := (List.range (min n 8)).map fun k => bandView b (base + 64 + 32 * k)
  match planForm b base bands with
  | some k => some { code := 6, addr := base, err := .plan i 1 k }
  | none =>
    let d := dOf (f 3 1)
    let wide := f 4 1 == 1
    let tb := f 8 4
    let range := f 12 4
    let rt := range * d
    let tl := tb / n
    let bmin := (bands.map (·.bw)).foldl min (2 ^ 32)
    let tpMax := (bands.map (·.tp)).foldl max 0
    let bad := fun (c code off k : Nat) => some ({ code := c, addr := base + off, err := .plan i code k } : Fail)
    let badReg := fun (c code addr k : Nat) => some ({ code := c, addr := addr, err := .plan i code k } : Fail)
    let band := fun (g : BandView → Bool) => bands.findIdx? g
    let lg := F.ESC_LIM_GATE_AMP_MAX i
    let u := v.planSet p
    let tpc := (List.range n).map u.tpCells
    let nfft := 2 ^ nfftLog2 (tpc.foldl max 0)
    firstFail [
      fun _ => if f 3 1 == 0 && !wide then bad 6 2 3 0 else none,
      fun _ => if (if wide then decide (d < n) else decide (d < 2 * n)) then bad 6 3 2 0 else none,
      fun _ => match band fun x => decide (960000 < x.bw * d) || decide (x.bw < 1000) || decide (x.bw * x.tp < 2400000) with
        | some k => bad 6 4 3 k | none => none,
      fun _ => match band fun x => decide ((if wide then 1920000 else 960000) < 2 * x.centre.natAbs + x.bw) with
        | some k => bad 6 5 4 k | none => none,
      fun _ => match (List.range n).find? fun k => (List.range n).any fun j =>
            let x := bands.getD k (bandView [] 0)
            let y := bands.getD j (bandView [] 0)
            j != k && decide (2 * d * (x.centre - y.centre).natAbs < 1440000 + d * max x.bw y.bw) with
        | some k => bad 6 6 3 k | none => none,
      fun _ => if decide (2 ≤ n) && ruleSeparation (f 20 2) rt (f 16 4) (f 22 1) bands then bad 6 7 2 0 else none,
      fun _ => if decide (range < 1024) || decide (1880640 < rt) then bad 6 8 3 0 else none,
      fun _ => if tb % n != 0 || decide (1920000 < tb) then bad 6 9 2 0 else none,
      fun _ => if decide (tb < rt + ceilDiv 1200000 bmin + 2400) || decide (tb < rt + ceilDiv tpMax 2) then bad 6 10 3 0 else none,
      fun _ => match band fun x =>
            decide ((2 * tl : Int) - 120 < max (x.tp : Int) (x.gateDly + x.gateW) - min 0 (x.gateDly - x.preW)) with
        | some k => bad 6 11 2 k | none => none,
      fun _ => if !okVal .groupIndex (f 16 4) || decide (1000 < f 20 2) || decide (f 22 1 < 10) || decide (40 < f 22 1) then bad 6 12 16 0 else none,
      fun _ => match band fun x => decide (v.get lg < x.gateAmp) || decide (v.get lg < x.preAmp) with
        | some k => badReg 7 13 lg.addr k | none => none,
      fun _ => match band fun x => decide (v.get (F.ESC_LIM_GATE_W_MAX i) < x.gateW) with
        | some k => badReg 7 14 lg.addr k | none => none,
      fun _ => if decide (v.get (F.ESC_LIM_DUTY_DUTY_MAX i) * 255 ^ 2 * 2 * tb <
            4096 * sumNat (bands.map fun x => x.gateW * x.gateAmp ^ 2 + x.preW * x.preAmp ^ 2)) then
          badReg 7 15 (F.ESC_LIM_DUTY_DUTY_MAX i).addr 0 else none,
      fun _ => match band fun x => decide (v.get (F.ESC_LIM_PSY_AMP_MAX i) < x.amp) with
        | some k => badReg 7 16 (F.ESC_LIM_PSY_AMP_MAX i).addr k | none => none,
      fun _ => match tpc.findIdx? fun x => decide (8192 < x) with
        | some k => bad 6 17 3 k | none => none,
      fun _ => if decide (range < 2 * v.get (F.CPP_GAUGE_G i)) then badReg 6 18 (F.CPP_GAUGE_G i).addr 0 else none,
      fun _ => if decide (12582912 < stateBytes range u.pairs.length u.fill) then badReg 6 19 (F.CPP_CTRL_FILL_MAX i).addr 0 else none,
      fun _ => if decide (720000 < 48000 + nfft * d + u.fill * tl) then badReg 6 20 (F.CPP_CTRL_FILL_MAX i).addr 0 else none]

/-- Whether a port's staged RUN is 1. -/
def Mach.runs (v : Mach) (p : Port) : Bool := v.on (F.ESC_CTRL_RUN (portIx p))

/-- Whether a port's staged RUN and TRAIN enable are both 1 (R269). -/
def Mach.counted (v : Mach) (p : Port) : Bool := v.runs p && v.on (match p with | .A => F.TRAIN_CTRL_EN_A | .B => F.TRAIN_CTRL_EN_B)

/-! ### Raman settings (R237, Table 10-3) and APD limits (R162) -/

/-- The base of a fibre entry (R236). -/
def fibreAt (p : Port) (e : Nat) : Nat := 0x0FC5000 + 0x800 * portIx p + 64 * e

/-- The first failing rule of Table 10-3 for a port. -/
def Mach.ramanFail (v : Mach) (p : Port) : Option Fail :=
  let i := portIx p
  let b := v.regs.act
  let on := [Port.A, Port.B].filter v.ramanOn
  let nbin := fun q => v.get (F.AFE_RFE_NBIN_N_BIN (portIx q))
  let span := v.get F.AFE_RFE_BIN_BIN_DLY + (on.map nbin).foldl max 0 * v.get F.AFE_RFE_BIN_BIN_K + 32
  let spanAddr := (F.AFE_RFE_NBIN_N_BIN (portIx (on.headD p))).addr
  let mode := v.get F.DTS_SHOT_CTRL_MODE
  let lock := if mode = 2 then Port.B else Port.A
  let tb := v.plan lock 8 4
  let len := min (v.get (F.ESC_SW_CTRL_LEN i)) 16
  let codes := (List.range len).map fun s => v.switchCode p s
  let fld := fun e off n => bankLe b (fibreAt p e + off) n
  let refFirst := fun e r => fld e (20 + 8 * r) 4
  let refN := fun e r => fld e (24 + 8 * r) 2
  let reaches := fun first n => decide (nbin p < first + n)
  let bad := fun (code addr fibre : Nat) => some ({ code := 6, addr := addr, err := .dts code i fibre } : Fail)
  let form := fun e =>
    decide (4 < fld e 0 1) || fld e 3 1 != 0 || fld e 27 1 != 0 || fld e 35 1 != 0 || fld e 48 16 != 0 || [0, 1].any fun r => decide (2 < fld e (26 + 8 * r) 1)
  let dark := v.get (F.DTS_DARK_DARK_N i) != 0 && reaches (v.get (F.DTS_DARK_DARK_FIRST i)) (v.get (F.DTS_DARK_DARK_N i))
  let ranges := fun e =>
    (fld e 8 4 != 0 && reaches (fld e 4 4) (fld e 8 4)) || [0, 1].any fun r => refN e r != 0 && reaches (refFirst e r) (refN e r)
  let refs := fun e =>
    let m := fld e 0 1
    (m == 1 && fld e 2 1 == 0) || (decide (3 ≤ m) && fld e 2 1 == 0) ||
    (m == 2 && (decide (fld e 2 1 < 2) ||
      decide (((2 * refFirst e 0 + refN e 0 : Nat) - (2 * refFirst e 1 + refN e 1 : Nat) : Int).natAbs < 2000)))
  let dual := fun s =>
    let e := codes.getD s 0
    fld e 0 1 == 3 &&
    (let nx := codes.getD ((s + 1) % len) 0
     let lo : Int := fld e 16 4 - (fld e 4 4 + fld e 8 4 - 1 : Nat)
     let hi : Int := (fld e 16 4 : Int) - fld e 4 4
     nx != fld e 1 1 || fld nx 0 1 != 4 || fld nx 1 1 != e || (fld e 8 4 != 0 && (decide (lo < 0) || decide ((nbin p : Int) ≤ hi))))
  firstFail [
    fun _ => if decide (v.get F.DTS_T_SHOT_CYCLES < span) then bad 21 spanAddr 0 else none,
    fun _ => if (mode == 1 || mode == 2) && (decide (tb ≤ v.get F.DTS_LOCK_OFS_CYCLES) || decide (v.get F.DTS_SHOT_CTRL_LOCK_DIV * tb < span)) then
        bad 22 spanAddr 0 else none,
    fun _ => match codes.find? form with | some e => bad 23 (F.AFE_RFE_NBIN_N_BIN i).addr e | none => none,
    fun _ => if dark then bad 23 (F.AFE_RFE_NBIN_N_BIN i).addr 0 else none,
    fun _ => match codes.find? ranges with | some e => bad 23 (F.AFE_RFE_NBIN_N_BIN i).addr e | none => none,
    fun _ => match codes.find? refs with | some e => bad 24 (fibreAt p e) e | none => none,
    fun _ => match (List.range len).find? dual with | some s => bad 25 (F.ESC_SW_CTRL_LEN i).addr (codes.getD s 0) | none => none]

/-- R162: an output in MODE 1 with V_SET above V_MAX, or in MODE 2 with an entry of its table above V_MAX. -/
def Mach.apdFail (v : Mach) : Option Fail :=
  ([0, 1, 2, 3].find? fun o =>
    let lim := v.get (F.AFE_APD_LIM_V_MAX o)
    let mode := v.get (F.AFE_APD_CTRL_MODE o)
    (mode == 1 && decide (lim < v.get (F.AFE_APD_CTRL_V_SET o))) ||
    (mode == 2 && (List.range 17).any fun i => decide (lim < v.tab (0x0FC4400 + 0x40 * o + 8 + 2 * i) 2))).map fun o =>
    { code := 7, addr := (F.AFE_APD_CTRL_V_SET o).addr }

/-! ### Train, zones, triggers, codec, calibration -/

/-- The tile columns of a port's staged plan. -/
def Mach.viewColumns (v : Mach) (p : Port) : Nat := ceilDiv (v.plan p 12 4) 512

/-- The first zone of a port that is one too many for its first tile column that more than `n` zones cover. -/
def Mach.crowded (v : Mach) (p : Port) (n : Nat) : Option Nat :=
  let zs := zoneList v.regs.act (portIx p)
  (List.range (v.viewColumns p)).findSome? fun c => (segments zs c (min 512 (v.plan p 12 4 - 512 * c)))[n]?.map (·.1)

/-- CYC_MAX of a port. -/
def Mach.cycMax (v : Mach) (p : Port) : Nat := v.get (match p with | .A => F.TRAIN_CYC_MAX_A_CYCLES | .B => F.TRAIN_CYC_MAX_B_CYCLES)

/-- R269, Table 11-12. -/
def Mach.trainFail (v : Mach) : Option Fail :=
  let ps := [Port.A, Port.B].filter v.counted
  let pool := engineNos.filter fun e => bitOf v.pool e
  let e : Int := ((pool.filter fun e => !bitOf v.retired e).length : Nat)
  let demand : Rat := (ps.map fun p =>
    ((v.viewColumns p * v.plan p 2 1 * 1200000000 * (v.cycMax p + 300) : Nat) : Rat) / (8 * max (v.plan p 8 4) 1 : Nat)).foldl (· + ·) 0
  firstFail [
    fun _ => if decide (((9 * (e - 1) * 120000000 : Int) : Rat) < demand) then some { code := 6, addr := F.TRAIN_POOL_LO_POOL.addr, err := .train 26 } else none,
    fun _ => match pool with
      | [] => none
      | e0 :: t => if t.all fun e => (v.jewel e).program == (v.jewel e0).program then none
        else some { code := 6, addr := F.TRAIN_POOL_LO_POOL.addr, err := .train 27 },
    fun _ => (ps.find? fun p => (v.crowded p 48).isSome).map fun p => { code := 6, addr := zoneBase (portIx p) + 4, err := .train 28 }]

/-- The zone that breaks sub-code 29, or 0 for the header; none when the table passes. -/
def Mach.zoneForm (v : Mach) (p : Port) : Option Nat :=
  let b := v.regs.act
  let base := zoneBase (portIx p)
  if bankLe b base 2 != 1 || bankLe b (base + 2) 2 != 0 || bankLe b (base + 8) 8 != 0 then some 0
  else
    let zs := zoneList b (portIx p)
    let ends := 0 :: zs.map fun z => z.2.1 + z.2.2
    ((zs.zip ends).find? fun x => x.1.2.2 == 0 || decide (v.plan p 12 4 < x.1.2.1 + x.1.2.2) || decide (x.1.2.1 < x.2)).map fun x => x.1.1

/-- The reason of Table 12-7 for which a channel fails sub-code 31, with the address of R444. -/
def Mach.chanFail (v : Mach) (c : Nat) : Option (Nat × Nat) :=
  let p := ixPort (v.get (F.CHR_CH_CTRL_PORT c))
  let i := portIx p
  let ctrl := (F.CHR_CH_CTRL_ZONE c).addr
  let typ := v.get (F.CHR_CH_CTRL_TYPE c)
  let last := v.get (F.CHR_CH_CTRL_ZONE c) + (if typ = 5 then v.get (F.CHR_CAP_ZCOUNT c) - 1 else 0)
  let src := v.get (F.CHR_CH_CTRL_SRC c)
  let hi := v.get (F.CHR_THR_HI_THR c)
  let lo := v.get (F.CHR_THR_LO_THR c)
  let wMin := v.get (F.CHR_WIDTH_W_MIN c)
  let wMax := v.get (F.CHR_WIDTH_W_MAX c)
  let u := v.planSet p
  let nfft := 2 ^ nfftLog2 (((List.range u.n).map u.tpCells).foldl max 0)
  let lat := 48000 + nfft * u.d + u.fill * u.tl
  if zoneCount v.regs.act i ≤ last then some (1, ctrl)
  else if 8 ≤ src ∧ v.get (F.ZONE_ZCTRL_NB i) ≤ src - 8 then some (2, (F.ZONE_ZCTRL_NB i).addr)
  else if tagRat lo > tagRat hi ∨ 2 ^ 24 ≤ hi ∨ 2 ^ 24 ≤ lo ∨
      (typ = 5 ∧ v.tab (0x0C20000 + 0x10000 * v.get (F.CHR_CH_CTRL_MASK_SEL c)) 2 ≠ 1) then some (3, ctrl)
  else if ((typ = 1 ∨ typ = 2 ∨ typ = 4) ∧ wMax < wMin) ∨ (typ = 3 ∧ wMax = 0) then some (4, ctrl)
  else if 960000 < lat + 2 * v.cycMax p + 120000 then some (5, (F.CPP_CTRL_FILL_MAX i).addr)
  else if !v.counted p then some (6, (F.ESC_CTRL_RUN i).addr)
  else none

/-- R296, Table 12-7. -/
def Mach.zoneFail (v : Mach) : Option Fail :=
  let port := fun (p : Port) => firstFail [
    fun _ => (v.zoneForm p).map fun z => { code := 6, addr := zoneBase (portIx p), err := .zone 29 (portIx p) z },
    fun _ => (v.crowded p (512 / (4 + v.get (F.ZONE_ZCTRL_NB (portIx p))))).map fun z =>
        { code := 6, addr := (F.ZONE_ZCTRL_NB (portIx p)).addr, err := .zone 30 (portIx p) z }]
  firstFail [
    fun _ => if v.counted .A then port .A else none,
    fun _ => if v.counted .B then port .B else none,
    fun _ => (chanNos.filter fun c => v.on (F.CHR_CH_CTRL_EN c)).findSome? fun c =>
      (v.chanFail c).map fun x => { code := 6, addr := x.2, err := .chr x.1 c }]

/-- The ports whose codec is in use. -/
def Mach.codecPorts (v : Mach) : List Port := [Port.A, Port.B].filter fun p => v.runs p && v.on (F.CODEC_CTRL_EN (portIx p))

/-- The left side of sub-code 32, evaluations per second (R311, Table 13-5). -/
def Mach.codecDemand (v : Mach) : Rat :=
  (v.codecPorts.map fun p =>
    ((v.plan p 12 4 * v.plan p 2 1 * 1200000000 * (2 + 3 * v.get (F.CODEC_CTRL_EFFORT (portIx p))) : Nat) : Rat) / (max (v.plan p 8 4) 1 : Nat)).foldl (· + ·) 0

/-- R311, Table 13-5. -/
def Mach.codecFail (v : Mach) : Option Fail :=
  if decide ((9600000000 : Rat) < v.codecDemand) then
    some { code := 6, addr := (F.CODEC_CTRL_EN (portIx (v.codecPorts.headD .A))).addr, err := .codec }
  else none

/-- R419: a staged USER_SEL that names a set which is not valid, not a user set, or another module's. -/
def Mach.userFail (v : Mach) : Option Fail :=
  let u := v.get F.CAL_USER_SEL_SET
  let base := userBase u
  let b := v.regs.act
  if v.on F.CAL_USER_SEL_EN && (!setValid b base || bankLe b (base + 2) 1 != 1 ||
      bankLe b (base + 0x10) 8 != v.get F.SYS_SERIAL_LO_SERIAL + 2 ^ 32 * v.get F.SYS_SERIAL_HI_SERIAL) then
    some { code := 6, addr := base, err := .cal u }
  else none

/-! ### The commit -/

/-- The checks 0x02 to 0x08 in the order of R62 on a staging copy under a mask. -/
def Mach.checks (m : Mach) (staged : List (Nat × Nat)) (mask : Nat) : Option Fail :=
  let v := m.viewed staged
  let beat := bitOf mask 0 || bitOf mask 1 || bitOf mask 4
  let raman := bitOf mask 2 || bitOf mask 3 || bitOf mask 4
  firstFail [
    fun _ => m.unnamed staged mask,
    fun _ => v.reserved staged m.regs.act,
    fun _ => badTable staged m.regs.act,
    fun _ => zoneLimit staged,
    fun _ => if beat && v.runs .A then v.planFail .A else none,
    fun _ => if beat && v.runs .B then v.planFail .B else none,
    fun _ => if raman && v.ramanOn .A then v.ramanFail .A else none,
    fun _ => if raman && v.ramanOn .B then v.ramanFail .B else none,
    fun _ => if raman then v.apdFail else none,
    fun _ => if beat || raman then v.trainFail else none,
    fun _ => if beat then v.zoneFail else none,
    fun _ => if beat then v.codecFail else none,
    fun _ => if beat then v.userFail else none,
    fun _ => if !v.on F.CFG_CRC_CTRL_CRC_AUTO && configCrc v.regs.act != v.get F.CFG_CRC_REF then some { code := 8, addr := F.CFG_CRC_REF.addr } else none]

/-- Show the sub-code of a failed check. -/
def Mach.putErr (m : Mach) (e : Err) : Mach :=
  match e with
  | .none => m
  | .plan p c k => (m.put (F.ESC_PLAN_ERR_SUBCODE p) c).put (F.ESC_PLAN_ERR_SUBBAND p) k
  | .dts c p f => ((m.put F.DTS_CHK_ERR_SUBCODE c).put F.DTS_CHK_ERR_PORT p).put F.DTS_CHK_ERR_FIBRE f
  | .train c => m.put F.TRAIN_CHK_ERR_SUBCODE c
  | .zone c p z => ((m.put F.ZONE_CHK_ERR_SUBCODE c).put F.ZONE_CHK_ERR_PORT p).put F.ZONE_CHK_ERR_ZONE z
  | .chr r c => ((m.put F.CHR_CHK_ERR_SUBCODE 31).put F.CHR_CHK_ERR_REASON r).put F.CHR_CHK_ERR_CH c
  | .codec => m.put F.CODEC_CHK_ERR_SUBCODE 32
  | .cal u => (m.put F.CAL_CHK_ERR_SUBCODE 33).put F.CAL_CHK_ERR_SET u

/-- The CHK_ERR registers hold the sub-code of the last failed commit, 0 for none of theirs (R240, R270, R297, R298, R312). PLAN_ERR of a port keeps its content
until a commit fails on that port's plan (R127, R142). -/
def Mach.clearErr (m : Mach) : Mach :=
  let m := (((m.put F.DTS_CHK_ERR_SUBCODE 0).put F.DTS_CHK_ERR_PORT 0).put F.DTS_CHK_ERR_FIBRE 0).put F.TRAIN_CHK_ERR_SUBCODE 0
  let m := ((m.put F.ZONE_CHK_ERR_SUBCODE 0).put F.ZONE_CHK_ERR_PORT 0).put F.ZONE_CHK_ERR_ZONE 0
  let m := ((m.put F.CHR_CHK_ERR_SUBCODE 0).put F.CHR_CHK_ERR_REASON 0).put F.CHR_CHK_ERR_CH 0
  ((m.put F.CODEC_CHK_ERR_SUBCODE 0).put F.CAL_CHK_ERR_SUBCODE 0).put F.CAL_CHK_ERR_SET 0

/-- A failed commit attempt: CODE, FAIL_ADDR, the count and COMMIT_FAIL (R62, R444). -/
def Mach.commitFailed (m : Mach) (f : Fail) : Mach :=
  let m := (m.clearErr.putErr f.err).put F.CFG_COMMIT_STATUS_CODE f.code
  ((m.put F.CFG_FAIL_ADDR_ADDR f.addr).bump F.CFG_COUNTS_FAILED).emit 2 1 0 (evArg 0 f.code 0)

/-- Start a commit of the shadow copies by a master class under a mask (R61, R62): with the checks passed it is applying. -/
def Mach.commitStart (m : Mach) (cls mask : Nat) : Mach :=
  if m.get F.CFG_COMMIT_STATUS_STATE != 0 then m.commitFailed { code := 1, addr := F.CFG_COMMIT_MASK.addr }
  else
    let staged := settingsOf m.regs.shd
    match m.checks staged mask with
    | some f => m.commitFailed f
    | none =>
      let m := { m with regs := { m.regs with staged := staged } }
      let m := m.modCommit fun c => { c with mask := mask, reload := false }
      let m := (m.pendEpoch.put F.CFG_COMMIT_STATUS_STATE 2).put F.CFG_COMMIT_STATUS_OWNER cls
      (m.put F.CFG_COMMIT_STATUS_APPLIED 0).syncCompare

end Sys2Proof.Machine
end

