-- ==== Sys2Proof/Machine/Eth.lean ====
section
/-!
DEFINITION. Machine/Eth.lean: the bytes of a PTP frame that a transparent clock alters: the correction field, the UDP checksum and the FCS (R367). The places of the
fields are those of IEEE 802.3, IEEE 1588, IPv4, IPv6 and UDP, which the spec names and does not repeat (PRESUMED, log entry 84).
-/
namespace Sys2Proof.Machine

/-- Where the bytes of a frame, from its destination address on, hold the PTP header, and before it the IP and the UDP header, and whether that is IPv6. -/
def ptpPlace (b : List Byte) : Option (Nat × Option (Nat × Nat × Bool)) :=
  let at_ := if beAtOff b 12 2 = 0x8100 then 16 else 12
  let ip := at_ + 2
  let typ := beAtOff b at_ 2
  if typ = 0x88F7 then some (ip, none)
  else if typ = 0x0800 then
    let udp := ip + 4 * (beAtOff b ip 1 % 16)
    some (udp + 8, some (ip, udp, false))
  else if typ = 0x86DD then some (ip + 48, some (ip, ip + 40, true))
  else none

/-- The sum of a byte string's 16-bit words. -/
def sum16 : List Byte → Nat
  | a :: b :: t => a.toNat * 256 + b.toNat + sum16 t
  | [a] => a.toNat * 256
  | [] => 0

/-- Put bytes in place of those from an offset on. -/
def putBytes (l : List Byte) (i : Nat) (b : List Byte) : List Byte := l.take i ++ b ++ l.drop (i + b.length)

/-- The checksum of a UDP datagram: the one's complement of the one's complement sum of its pseudo-header and its words, never zero. -/
def udpSum (b : List Byte) (ip udp : Nat) (v6 : Bool) : Nat :=
  let len := beAtOff b (udp + 4) 2
  let addrs := if v6 then (b.drop (ip + 8)).take 32 else (b.drop (ip + 12)).take 8
  0xFFFF - (sum16 addrs + 17 + len + sum16 ((putBytes b (udp + 6) [0, 0]).drop udp |>.take len)) % 0xFFFF

/-- The bytes of a frame with a new correction field (signed, 2^-16 ns) and the UDP checksum to it: that of IPv4 only when it is not zero (R367). -/
def recorrect (b : List Byte) (correction : Int) : List Byte :=
  match ptpPlace b with
  | none => b
  | some (ptp, transport) =>
    let b := putBytes b (ptp + 8) (beBytes 8 (correction % 2 ^ 64).toNat)
    match transport with
    | none => b
    | some (ip, udp, v6) => if !v6 ∧ beAtOff b (udp + 6) 2 = 0 then b else putBytes b (udp + 6) (beBytes 2 (udpSum b ip udp v6))

/-- A forwarded frame whose correction field gains an amount (R367): its bytes, its UDP checksum and its FCS follow. -/
def frameGains (f : Frame) (x : Int) : Frame :=
  if x = 0 ∨ f.bytes.isEmpty then { f with correction := f.correction + x }
  else
    let b := recorrect f.bytes (f.correction + x)
    { f with correction := f.correction + x, bytes := b, fcs := BitVec.ofNat 32 (crc32 b) }

end Sys2Proof.Machine
end

