-- ==== Sys2Proof/Machine/Ptp.lean ====
section
/-!
DEFINITION. Machine/Ptp.lean: the ordinary clocks: foreign masters and the best of them (R364), the servo (R365), fallback, holdover and
return (R366), and the path delays (R364, R369).
-/
namespace Sys2Proof.Machine

/-- The ordinary clock of domain d beside its registers. -/
def Mach.oc (m : Mach) (d : Nat) : OrdClock := mapGet {} m.ptp.clocks d

/-- Change the ordinary clock of domain d. -/
def Mach.modOc (m : Mach) (d : Nat) (f : OrdClock → OrdClock) : Mach := { m with ptp := { m.ptp with clocks := mapMod {} m.ptp.clocks d f } }

/-- OC_STATUS.STATE of domain d: 0 DISABLED, 1 ACQUIRE, 2 LOCKED, 3 HOLDOVER, 4 MANUAL. -/
def Mach.ocState (m : Mach) (d : Nat) : Nat := m.get (F.PTP_OC_STATUS_STATE d)

/-- The port in use of domain d. -/
def Mach.ocPort (m : Mach) (d : Nat) : Nat := m.get (F.PTP_OC_STATUS_PORT d)

/-- Enter a state of the servo: a domain that is LOCKED is a qualified source of the Regulator, and one that leaves LOCKED is lost
(Table 05-3). Entering ACQUIRE starts its count anew. -/
def Mach.ocEnter (m : Mach) (d st : Nat) : Mach :=
  let old := m.ocState d
  let m := m.put (F.PTP_OC_STATUS_STATE d) st
  let m := if st = 1 then m.modOc d fun c => { c with first := true, inLock := 0, overs := 0 } else m
  if old = 2 ∧ st ≠ 2 then m.sourceLost d
  else if old ≠ 2 ∧ st = 2 then (m.emit 12 1 0 (evArg d 0 0)).sourceGood d
  else m

/-- PRIMARY of domain d. -/
def Mach.ocPrimary (m : Mach) (d : Nat) : Nat := m.get (F.PTP_OC_CTRL_PRIMARY d) % 4

/-- BACKUP of domain d. -/
def Mach.ocBackup (m : Mach) (d : Nat) : Nat := m.get (F.PTP_OC_CTRL_BACKUP d) % 4

/-- The nanoseconds of 2^log s. -/
def logNs (log : Int) : Nat := if 0 ≤ log then 10 ^ 9 * 2 ^ log.toNat else 10 ^ 9 / 2 ^ (-log).toNat

/-- The ports on which the clock of domain d listens (R364). -/
def Mach.ocListens (m : Mach) (d n : Nat) : Bool :=
  n == m.ocPrimary d || (m.on (F.PTP_OC_CTRL_BK_EN d) && n == m.ocBackup d)

/-- The order of the data-set comparison of IEEE 1588 as a list, the lesser the better (R364). -/
def announceOrder (a : Announce) : List Nat :=
  [a.priority1, a.clockClass, a.accuracy, a.variance, a.priority2, a.identity.toNat, a.stepsRemoved]

/-- Lexicographic order of two lists of numbers. -/
def listLess : List Nat → List Nat → Bool
  | [], [] => false
  | [], _ :: _ => true
  | _ :: _, [] => false
  | a :: s, b :: t => decide (a < b) || (a == b && listLess s t)

/-- Whether a foreign master is qualified: two Announce messages heard (log entry 30). -/
def Foreign.qualified (f : Foreign) : Bool := decide (2 ≤ f.count)

/-- The best of the qualified foreign masters of a port. -/
def bestMaster (n : Nat) : List Foreign → Option Announce
  | [] => none
  | f :: t =>
    let r := bestMaster n t
    if f.port == n && f.qualified then
      match r with
      | none => some f.ann
      | some b => if listLess (announceOrder b) (announceOrder f.ann) then some b else some f.ann
    else r

/-- Select the best master on the port in use; a change issues PTP_GM_CHANGE, and the path delay is unknown until measured (R364). -/
def Mach.ocSelect (m : Mach) (d : Nat) : Mach :=
  let c := m.oc d
  match bestMaster (m.ocPort d) c.foreign with
  | none => m
  | some b =>
    let m := m.modOc d fun c => { c with selected := some b }
    if (c.selected.map (·.identity)) = some b.identity then m
    else
      let m := m.put64 (F.PTP_GM_ID_LO_ID d) (F.PTP_GM_ID_HI_ID d) b.identity.toNat
      let m := m.modOc d fun c => { c with mpdKnown := false, dreqWait := false, last := none, syncAt := none, behind := none }
      m.emit 12 0 0 (evArg d 0 0)

/-- Move the clock of domain d to a port and enter ACQUIRE, or stay in MANUAL (R366). RATE is kept. -/
def Mach.ocMove (m : Mach) (d n : Nat) (onBackup : Bool) : Mach :=
  let m := (m.put (F.PTP_OC_STATUS_PORT d) n).putB (F.PTP_OC_STATUS_ON_BACKUP d) onBackup
  let m := if onBackup then m.bump (F.PTP_COUNTS_FALLBACKS d) else m
  let m := m.modOc d fun c => { c with mpdKnown := false, dreqWait := false, last := none, syncAt := none, behind := none }
  let m := if m.ocState d = 4 then m else m.ocEnter d 1
  m.ocSelect d

/-- Whether port n is UP and holds a qualified master of domain d. -/
def Mach.ocHolds (m : Mach) (d n : Nat) : Bool := m.laneUp n && (bestMaster n (m.oc d).foreign).isSome

/-- The domain clocks whose ordinary clock runs with a domainNumber as its PTP_DOMAIN (R364). -/
def Mach.clocksOf (m : Mach) (domain : Nat) : List Nat :=
  [0, 1, 2, 3].filter fun d => m.ocState d != 0 && m.get (F.CLK_DOM_CTRL_PTP_DOMAIN d) == domain

/-- An Announce for the clock of domain d on port n (R364, R366). -/
def Mach.announceTo (m : Mach) (d n : Nat) (a : Announce) : Mach :=
  if m.ocState d != 0 && m.laneUp n && m.ocListens d n then
    let same := fun (f : Foreign) => f.port == n && f.ann.identity == a.identity
    let k := match (m.oc d).foreign.find? same with | some f => min (f.count + 1) 2 | none => 1
    let m := m.modOc d fun c => { c with foreign := c.foreign.filter (fun f => !same f) ++ [⟨n, a, k⟩] }
    let at_ := m.now
    let m := if m.ocHolds d (m.ocPrimary d) && (m.oc d).primAt.isNone then m.modOc d fun c => { c with primAt := some at_ } else m
    if m.ocState d = 3 then
      if m.ocHolds d n then m.ocMove d n (n != m.ocPrimary d) else m
    else m.ocSelect d
  else m

/-- ANNOUNCE_RECEIVE: an Announce of a domainNumber on port n, for every clock of that domain. -/
def Mach.announce (m : Mach) (domain n : Nat) (a : Announce) : Mach := (m.clocksOf domain).foldl (fun m d => m.announceTo d n a) m

/-! ### Stamps (R362) -/

/-- A latency in ps as fine LSBs of the TIS, 625/768 ps each. -/
def psLsb (ps : Int) : Int := roundAway (ps * 768) 625

/-- The stamp at the module lands of a message that port n receives: its count less RX_LAT and the variable latencies (R362). -/
def Mach.rxStamp (m : Mach) (n : Nat) (c : PtpCount) : Nat := ((m.lsbNow : Int) - c.apart - psLsb (m.get (F.PTP_RX_LAT_PS n) + c.var)).toNat

/-- The stamp at the module lands of a message that port n sends: its count and TX_LAT and the variable latencies after it (R362). -/
def Mach.txStamp (m : Mach) (n : Nat) (c : PtpCount) : Nat := ((m.lsbNow : Int) + c.apart + psLsb (m.get (F.PTP_TX_LAT_PS n) + c.var)).toNat

/-- The time of domain clock d at a stamp, 2^-16 ns (R110, R362). -/
def Mach.domTime (m : Mach) (d lsb : Nat) : Nat := (m.clk.doms.getD d {}).at d lsb / 2 ^ 32

/-- By how much a domain time in 2^-16 ns is later than another; both wrap with the 48-bit seconds. -/
def timeDiff (a b : Nat) : Int := (((a : Int) - b + 10 ^ 9 * 2 ^ 63) % (10 ^ 9 * 2 ^ 64)) - 10 ^ 9 * 2 ^ 63

/-- The device time from one stamp to another, ns. -/
def Mach.lsbSpan (m : Mach) (a b : Nat) : Rat := (((b : Int) - a) * 5 * (2 ^ 40 - m.trim) : Int) / ((6144 * 2 ^ 40 : Int) : Rat)

/-- An amount in ps as 2^-16 ns, to the nearest. -/
def corrOf (ps : Rat) : Int := roundRat (ps * (65536 : Nat) / (1000 : Nat))

/-- An amount in 2^-16 ns as ps, to the nearest. -/
def psOf (x : Rat) : Int := roundRat (x * (1000 : Nat) / (65536 : Nat))

/-- The path delay of domain d in ps, when known: the mean path delay, or LINK_DELAY of the port in use (R364, R369). -/
def Mach.pathDelay (m : Mach) (d : Nat) : Option Int :=
  if m.on (F.PTP_OC_CTRL_DELAY d) then
    if (m.netPort (m.ocPort d)).pdLast.isEmpty then none else some (signedOf 32 (m.get (F.PTP_LINK_DELAY_PS (m.ocPort d))))
  else if (m.oc d).mpdKnown then some (signedOf 32 (m.get (F.PTP_MPD_PS d))) else none

/-- ASYM of port n, signed ps (R363). -/
def Mach.asym (m : Mach) (n : Nat) : Int := signedOf 32 (m.get (F.PTP_ASYM_PS n))

/-- The rate change of one Sync (R365): offsets in ps, T_s = 2^log s. -/
def rateChange (o prev : Int) (kp ki : Nat) (log : Int) : Int :=
  let y : Rat := ((o - prev : Int) : Rat) / (1000 * 2 ^ kp : Nat) + (o : Rat) / (1000 * 2 ^ ki : Nat)
  let ts : Rat := if 0 ≤ log then ((2 ^ log.toNat : Nat) : Rat) else 1 / (2 ^ (-log).toNat : Nat)
  roundRat (y * (2 ^ 40 : Nat) / (ts * (10 ^ 9 : Nat)))

/-- Step the clock of domain d by −o through the mechanism of DOM_STEP (R365): whole nanoseconds; the offset that is left is answered. -/
def Mach.ocStep (m : Mach) (d : Nat) (o : Int) : Mach × Int :=
  let ns := roundAway o 1000
  ((m.domAdd d (-ns)).bump (F.PTP_COUNTS_STEPS d), o - ns * 1000)

/-- By how much a Sync has come to port n later, in the time of domain d, than its corrected origin time: t2 − t1, less its correction with ASYM added (R363, R365),
2^-16 ns. -/
def Mach.syncLate (m : Mach) (d n : Nat) (x : SyncMsg) : Int :=
  timeDiff (m.domTime d (m.rxStamp n x.rx)) x.t1 - (x.correction + corrOf (m.asym n : Int))

/-- A Sync on port n for the clock of domain d, with the log of its interval (R365): it is accepted from the selected master on the port in use. Until the path delay
is known it gives no offset. -/
def Mach.syncTo (m : Mach) (d n : Nat) (x : SyncMsg) (log : Int) : Mach :=
  let st := m.ocState d
  if st == 0 || st == 3 || m.ocPort d != n || !m.laneUp n || ((m.oc d).selected.map (·.identity)) != some x.source then m
  else
    let late := m.syncLate d n x
    let at_ := m.now
    let m := m.modOc d fun c => { c with syncAt := some (at_, log), behind := some late }
    match m.pathDelay d with
    | none => m
    | some delay =>
      let o := psOf (late : Int) - delay
      let m := m.put (F.PTP_OFFSET_PS d) (codeOf 32 (clampInt (-(2 ^ 31)) (2 ^ 31 - 1) o))
      let m := m.put (F.PTP_MPD_PS d) (codeOf 32 delay)
      if st = 4 then m.modOc d fun c => { c with last := some o }
      else
        let stepPs : Int := (m.get (F.PTP_SERVO_STEP_NS d) * 1000 : Nat)
        let lockPs : Int := (m.get (F.PTP_SERVO_LOCK_NS d) * 1000 : Nat)
        let c := m.oc d
        let big := decide (stepPs < o.natAbs)
        let overs := if st = 2 ∧ big then c.overs + 1 else 0
        let back := decide (st = 2) && decide (4 ≤ overs)
        let m := if back then m.ocEnter d 1 else m
        let stepNow := back || (decide (st = 1) && c.first && big)
        let (m, o', prev) := if stepNow then (let r := m.ocStep d o; (r.1.modOc d fun c => { c with behind := none }, r.2, r.2)) else (m, o, c.last.getD o)
        let rate := m.domRate d - rateChange o' prev (m.get (F.PTP_SERVO_KP_SH d)) (m.get (F.PTP_SERVO_KI_SH d)) log
        let m := m.put (F.CLK_DOM_RATE_RATE d) (codeOf 32 rate)
        let inLock := if decide ((o.natAbs : Int) ≤ lockPs) then min (c.inLock + 1) 16 else 0
        let m := m.modOc d fun c => { c with first := false, last := some o', inLock := inLock, overs := if back then 0 else overs }
        if st = 1 ∧ inLock = 16 then m.ocEnter d 2 else m

/-- SYNC_RECEIVE: a Sync on port n, for every clock of its domain. -/
def Mach.syncIn (m : Mach) (n : Nat) (x : SyncMsg) (log : Int) : Mach := (m.clocksOf x.domain).foldl (fun m d => m.syncTo d n x log) m

/-- DELAY_REQ_SEND: a Delay_Req to the selected master, 2^LOG_DREQ s after the one before, with versionPTP 2 and the master's minorVersionPTP (R364). ASYM is
subtracted from its correction (R363), and its egress stamp t3 is kept in domain time. -/
def Mach.delayReq (m : Mach) (x : PtpSend) : Mach :=
  let d := x.unit
  if m.ocState d != 0 && !m.on (F.PTP_OC_CTRL_DELAY d) && (m.oc d).selected.isSome && m.laneSends (m.ocPort d) then
    let m := match (m.oc d).dreqAt with | some t => m.reachNs (t + logNs (signedOf 4 (m.get (F.PTP_OC_CTRL_LOG_DREQ d)))) | none => m
    let at_ := m.now
    let t3 := m.domTime d (m.txStamp (m.ocPort d) x.tx)
    let corr := - corrOf (m.asym (m.ocPort d) : Int)
    (m.modOc d fun c => { c with dreqWait := true, dreqAt := some at_, sent := c.selected.map fun a => (2, a.minorVersion), t3 := t3, reqCorr := corr }).txPtp
      (m.ocPort d) 1
  else m

/-- A Delay_Resp on port n to the Delay_Req of the clock of domain d gives the mean of the two ways (R364): half the sum of what the last Sync came late by and of
t4 − t3 less the response's correction, which carries on that of the Delay_Req. Without a Sync since a step of the clock there is nothing to take the mean with. -/
def Mach.delayTo (m : Mach) (d n : Nat) (x : DelayResp) : Mach :=
  let c := m.oc d
  if c.dreqWait && m.ocPort d == n && m.laneUp n then
    let m := m.modOc d fun c => { c with dreqWait := false }
    match c.behind with
    | none => m
    | some late =>
      let mean : Rat := ((late + (timeDiff x.t4 c.t3 - x.correction) : Int) : Rat) / (2 : Nat)
      (m.modOc d fun c => { c with mpdKnown := true }).put (F.PTP_MPD_PS d) (codeOf 32 (psOf mean))
  else m

/-- DELAY_RESP_RECEIVE: a Delay_Resp on port n, for the clocks of its domain. -/
def Mach.delayResp (m : Mach) (n : Nat) (x : DelayResp) : Mach := (m.clocksOf x.domain).foldl (fun m d => m.delayTo d n x) m

/-- The port in use of domain d fails: its lane is not UP, or no Sync of the selected master has been accepted for 3 Sync intervals (R366). -/
def Mach.ocFail (m : Mach) (d : Nat) : Mach :=
  let st := m.ocState d
  if st == 0 || st == 3 then m
  else
    let m := match m.laneUp (m.ocPort d), (m.oc d).syncAt with | true, some t => m.reachNs (t.1 + 3 * logNs t.2) | _, _ => m
    let bk := m.ocBackup d
    if m.on (F.PTP_OC_CTRL_BK_EN d) && m.ocPort d != bk && m.ocHolds d bk then
      (m.ocMove d bk true).emit 12 2 0 (evArg d 0 0)
    else
      let m := m.modOc d fun c => { c with selected := none, mpdKnown := false, dreqWait := false, last := none, syncAt := none, behind := none }
      let m := if st = 4 then m else m.ocEnter d 3
      m.emit 12 3 0 (evArg d 0 0)

/-- PRIMARY has held a qualified master for REVERT_S seconds without a break: the clock returns to it (R366). -/
def Mach.ocRevert (m : Mach) (d : Nat) : Mach :=
  let pr := m.ocPrimary d
  match (m.oc d).primAt with
  | some t =>
    if m.on (F.PTP_OC_STATUS_ON_BACKUP d) && m.ocState d != 0 && m.ocHolds d pr then
      (m.reachNs (t + m.get (F.PTP_OC_CTRL_REVERT_S d) * 10 ^ 9)).ocMove d pr false
    else m
  | none => m

/-- A host write of DOM_STEP or DOM_SET_SEC returns a LOCKED servo to ACQUIRE (R365); what the last Sync came late by was told in the time before it. -/
def Mach.ocHostStep (m : Mach) (d : Nat) : Mach :=
  let m := m.modOc d fun c => { c with behind := none }
  if m.ocState d = 2 then m.ocEnter d 1 else m

/-- Start the clock of domain d afresh on PRIMARY, in ACQUIRE or MANUAL. -/
def Mach.ocStart (m : Mach) (d : Nat) : Mach :=
  let m := m.ocEnter d (if m.on (F.PTP_OC_CTRL_MANUAL d) then 4 else 1)
  let m := (m.put (F.PTP_OC_STATUS_PORT d) (m.ocPrimary d)).put (F.PTP_OC_STATUS_ON_BACKUP d) 0
  let kept := (m.oc d).foreign.filter fun f => m.ocListens d f.port
  let at_ := m.now
  let m := m.modOc d fun c => { c with foreign := kept, selected := none, mpdKnown := false, dreqWait := false, last := none, syncAt := none, behind := none }
  let since := if m.ocHolds d (m.ocPrimary d) then some at_ else none
  (m.modOc d fun c => { c with primAt := since }).ocSelect d

/-- The module boundary has applied settings: EN, MANUAL and any other change of OC_CTRL or SERVO (R364, R372). `changed` says whether
a field of OC_CTRL other than MANUAL, or SERVO, changed. -/
def Mach.ocBoundary (m : Mach) (d : Nat) (changed : Bool) : Mach :=
  let en := m.on (F.CLK_DOM_CTRL_EN d)
  let man := m.on (F.PTP_OC_CTRL_MANUAL d)
  let st := m.ocState d
  if !en then
    if st = 0 then m
    else (((m.ocEnter d 0).modOc d fun _ => {}).put (F.PTP_OC_STATUS_PORT d) 0).put (F.PTP_OC_STATUS_ON_BACKUP d) 0
  else if st = 0 || changed then m.ocStart d
  else if man && st != 4 then m.ocEnter d 4
  else if !man && st = 4 then m.ocEnter d 1
  else m

/-- Lane Ln has left UP: the masters heard on it are gone (R366). -/
def Mach.ocLaneDown (m : Mach) (n : Nat) : Mach :=
  [0, 1, 2, 3].foldl (fun m d =>
    let own := m.ocPrimary d == n
    m.modOc d fun c => { c with foreign := c.foreign.filter (fun f => f.port != n), primAt := if own then none else c.primAt }) m

/-! ### Peer delay (R369) -/

/-- minorVersionPTP of the peer-delay messages of port Pn: that of the selected master of a clock that uses DELAY = 1 on it (R364); 1 where there is none, the version
of Table 15-4 (DESIGN CHOICE, log entry 83). -/
def Mach.pdMinor (m : Mach) (n : Nat) : Nat :=
  match [0, 1, 2, 3].filterMap fun d => if m.ocState d != 0 && m.on (F.PTP_OC_CTRL_DELAY d) && m.ocPort d == n then (m.oc d).selected else none with
  | a :: _ => a.minorVersion
  | [] => 1

/-- Whether port Pn runs the peer-delay exchange: P2 and P3 with TC_MODE = 2, or a port whose ordinary clock uses DELAY = 1. -/
def Mach.pdelayRuns (m : Mach) (n : Nat) : Bool :=
  m.laneUp n && ((decide (2 ≤ n) && m.get F.PTP_TC_CTRL_MODE == 2) ||
    [0, 1, 2, 3].any fun d => m.ocState d != 0 && m.on (F.PTP_OC_CTRL_DELAY d) && m.ocListens d n)

/-- PDELAY_REQ_SEND: 2^LOG_PDELAY s after the one before. -/
def Mach.pdelayReq (m : Mach) (x : PtpSend) : Mach :=
  let n := x.unit
  if m.pdelayRuns n && m.laneSends n then
    let m := match (m.netPort n).pdAt with | some t => m.reachNs (t + logNs (signedOf 4 (m.get (F.PTP_PD_CTRL_LOG_PDELAY n)))) | none => m
    let at_ := m.now
    let out := m.txStamp n x.tx
    let minor := m.pdMinor n
    (m.modPort n fun p => { p with pdWait := true, pdAt := some at_, pdOut := out, pdSent := some (2, minor) }).txPtp n 1
  else m

/-- PDELAY_REQ_RECEIVE: answered in one or two messages, which tell the device time from the ingress stamp of the request to the egress stamp of the answer, with the
request's correction; of the two the second is no event message. -/
def Mach.pdelayAnswer (m : Mach) (x : PdelayReq) : Mach :=
  let n := x.port
  if m.pdelayRuns n && m.laneSends n then
    let turn := x.correction + corrOf (m.lsbSpan (m.rxStamp n x.rx) (m.txStamp n x.tx) * (1000 : Nat))
    let minor := m.pdMinor n
    let m := (m.modPort n fun p => { p with pdTurn := some turn, pdSent := some (2, minor) }).txPtp n 1
    if m.on (F.PTP_PD_CTRL_PD_1STEP n) then m else m.txQueue n 1
  else m

/-- PDELAY_RESP_RECEIVE: half of the device time of the exchange, less what the peer held it, is a peer delay (log entry 83); LINK_DELAY becomes the mean of the last
eight. -/
def Mach.pdelayResp (m : Mach) (n : Nat) (x : PdelayResp) : Mach :=
  if (m.netPort n).pdWait && m.laneUp n then
    let delay := roundRat ((m.lsbSpan (m.netPort n).pdOut (m.rxStamp n x.rx) * (1000 : Nat) - (x.turn : Rat) * (1000 : Nat) / (65536 : Nat)) / (2 : Nat))
    let l := (delay :: (m.netPort n).pdLast).take 8
    (m.modPort n fun p => { p with pdWait := false, pdLast := l }).put (F.PTP_LINK_DELAY_PS n)
      (codeOf 32 (roundAway (l.foldl (· + ·) 0) l.length))
  else m

end Sys2Proof.Machine
end

