-- ==== Sys2Proof/Machine/Net.lean ====
section
/-!
DEFINITION. Machine/Net.lean: the lanes and their states (R350 to R358), frames on the ports, forwarding between P2 and P3 (R359 to R361) and
the transparent clock (R367 to R369).
-/
namespace Sys2Proof.Machine

/-! ### Forwarding queues -/

/-- The direction of forwarding toward port Pe: 0 P2 to P3, 1 P3 to P2. -/
def fwdDir (e : Nat) : Nat := if e = 3 then 0 else 1

/-- The egress port of a direction. -/
def dirEgress (k : Nat) : Nat := if k = 0 then 3 else 2

/-- The bytes held in a direction. -/
def Forward.held (f : Forward) : Nat := sumNat (f.queue.map fun h => h.frame.len)

/-- Change a direction of the forwarding pair, and show its level in KiB. -/
def Mach.modFwd (m : Mach) (k : Nat) (f : Forward → Forward) : Mach :=
  let m := { m with net := { m.net with fwd := m.net.fwd.putIx k (f (m.net.fwd.ix k)) } }
  m.put (if k = 0 then F.NET_FWD_LEVEL_P2_P3 else F.NET_FWD_LEVEL_P3_P2) (ceilDiv (m.net.fwd.ix k).held 1024)

/-! ### The transparent clock -/

/-- The residence of a message of a domainNumber from its ingress to its egress stamp, ns: in the time of the LOCKED domain clock whose PTP_DOMAIN is the message's, in
device time when there is none (R367). -/
def Mach.tcResidence (m : Mach) (domain a b : Nat) : Rat :=
  match (List.range 4).find? fun d => m.on (F.CLK_DOM_CTRL_EN d) && m.get (F.CLK_DOM_CTRL_PTP_DOMAIN d) == domain && m.ocState d == 2 with
  | none => m.lsbSpan a b
  | some d => (timeDiff (m.domTime d b) (m.domTime d a) : Rat) / (65536 : Nat)

/-- The amount in ps that a forwarded event message with these stamps gains, from port n to port e (R363, R368, R369). -/
def Mach.tcAmount (m : Mach) (n e : Nat) (kind : PtpKind) (domain a b : Nat) : Rat :=
  let res := m.tcResidence domain a b * (1000 : Nat)
  match kind with
  | .sync1 | .sync2 =>
    res + ((m.asym n + (if m.get F.PTP_TC_CTRL_MODE = 2 then signedOf 32 (m.get (F.PTP_LINK_DELAY_PS n)) else 0) : Int) : Rat)
  | .delayReq => if m.get F.PTP_TC_CTRL_MODE = 2 then 0 else res - (m.asym e : Rat)
  | _ => 0

/-- Whether a PTP kind is an event message, which is stamped (R362). -/
def isEventKind (k : PtpKind) : Bool :=
  match k with
  | .sync1 | .sync2 | .delayReq | .pdelayReq | .pdelayResp => true
  | _ => false

/-- A frame of direction k as it leaves (R368): with TC_MODE 0 unaltered (R367); else a one-step Sync and a Delay_Req gain their own amount, and a Follow_Up that of
its Sync. -/
def Mach.tcFrame (m : Mach) (k : Nat) (h : HeldFrame) : Frame :=
  let e := dirEgress k
  let f := h.frame
  if m.get F.PTP_TC_CTRL_MODE = 0 then f
  else
    match f.ptp, h.sync with
    | .sync1, _ => frameGains f (corrOf (m.tcAmount (5 - e) e .sync1 f.domain h.enters h.leaves))
    | .delayReq, _ => frameGains f (corrOf (m.tcAmount (5 - e) e .delayReq f.domain h.enters h.leaves))
    | .followUp, some (a, b) => frameGains f (corrOf (m.tcAmount (5 - e) e .sync2 f.domain a b))
    | _, _ => f

/-- RES_MAX takes the residence of an event message that leaves through a transparent clock. -/
def Mach.tcMax (m : Mach) (h : HeldFrame) : Mach :=
  if m.get F.PTP_TC_CTRL_MODE ≠ 0 ∧ isEventKind h.frame.ptp then
    m.put F.PTP_RES_MAX_NS (max (m.get F.PTP_RES_MAX_NS) (min (roundRat (m.tcResidence h.frame.domain h.enters h.leaves)).toNat (2 ^ 32 - 1)))
  else m

/-- The frames of a direction whose egress stamp has passed leave (R361, R367), counted as sent; one waiting frame of the module's own leaves after each of them, and
all of them once no forwarded frame waits (R23). A lane that starts no frame lets none go (R352). -/
def Mach.fwdDrain1 (m : Mach) (k : Nat) : Mach :=
  let x := m.net.fwd.ix k
  let out := x.queue.filter fun h => decide (h.leaves ≤ m.lsbNow)
  if out.isEmpty || !m.laneSends (dirEgress k) then m
  else
    let rest := x.queue.filter fun h => !decide (h.leaves ≤ m.lsbNow)
    let own := if rest.isEmpty then x.own else min x.own out.length
    let m := out.foldl (fun m h => m.tcMax h) m
    let last := out.getLast?.map (m.tcFrame k)
    let m := m.modFwd k fun f => { f with queue := rest, own := f.own - own, last := last }
    m.txNow (dirEgress k) (out.length + own)

/-- Both directions let go the frames whose time has come. -/
def Mach.fwdDrain (m : Mach) : Mach := (m.fwdDrain1 0).fwdDrain1 1

/-- The egress of a direction has left UP: the forwarded frames that wait are dropped and counted, and the Syncs among them leave no entry (R357); the
module's own frames that wait are lost with the lane. -/
def Mach.fwdDrop (m : Mach) (k : Nat) : Mach :=
  let m := m.fwdDrain1 k
  let n := (m.net.fwd.ix k).queue.length
  (m.modFwd k fun f => { f with queue := [], own := 0, table := f.table.filter fun e => decide (e.leaves ≤ m.lsbNow) }).bumpBy (F.NET_FWD_DROP_DOWN k) n

/-- What a direction would have sent from `t0` on, while its lane started no frame, leaves at `t` (R352). -/
def Forward.delay (x : Forward) (t0 t : Nat) : Forward :=
  let late := fun (v : Nat) => if t0 ≤ v then max v t else v
  { x with queue := x.queue.map (fun h => { h with leaves := late h.leaves, sync := h.sync.map fun s => (s.1, late s.2) }),
           table := x.table.map fun e => { e with leaves := late e.leaves } }

/-! ### Lanes (Table 15-3) -/

/-- What waited on port Pn leaves, and the sessions on it send what they may. -/
def Mach.sendPort (m : Mach) (n : Nat) : Mach :=
  slotNos.foldl (fun m s => if m.isOpen s && m.get (F.REC_SESS_STATE_PORT s) == n then m.trySend s else m) (m.txRelease n)

/-- What waited on port Pn for the port or for a neighbour is lost with its lane. -/
def Mach.dropWaiting (m : Mach) (n : Nat) : Mach :=
  let m := m.modPort n fun p => { p with waiting := 0 }
  { m with recs := { m.recs with neighbours := m.recs.neighbours.map fun e => if e.port = n then { e with waiting := 0 } else e } }

/-- The sessions on port Pn, whose lane has left UP, go to their other path, or are kept (R357, R397). -/
def Mach.leavePort (m : Mach) (n : Nat) : Mach :=
  slotNos.foldl (fun m s => if m.isOpen s && m.get (F.REC_SESS_STATE_PORT s) == n then m.pathFail s else m) m

/-- Enter a lane state: 0 OFF, 1 TRAIN, 2 ACQUIRE, 3 UP, 4 DOWN, 5 TEST. A departure from UP issues LANE_DOWN and drops what waits for
this egress; an entry to UP issues LANE_UP; an entry to DOWN counts (R356, R357). The sessions of the port move apart from this. -/
def Mach.laneGo (m : Mach) (n st : Nat) : Mach :=
  let old := m.get (F.NET_PORT_STATUS_STATE n)
  let m := (m.put (F.NET_PORT_STATUS_STATE n) st).modPort n fun p => { p with entered := m.now }
  let m := if st = 4 ∧ old ≠ 4 then m.bump (F.NET_LINK_CNT_DOWN_CNT n) else m
  if old = 3 ∧ st ≠ 3 then
    let m := m.emit 11 0 0 (evArg n 0 0)
    let m := if 2 ≤ n then m.fwdDrop (fwdDir n) else m
    (m.dropWaiting n).ocLaneDown n
  else if st = 3 ∧ old ≠ 3 then (m.emit 11 1 0 (evArg n 0 0)).sendPort n
  else m

/-- Enter a lane state; a departure from UP moves the sessions of the port, at once (R357 allows 10 ms). -/
def Mach.laneEnter (m : Mach) (n st : Nat) : Mach :=
  let was := m.laneUp n
  let m := m.laneGo n st
  if was ∧ st ≠ 3 then m.leavePort n else m

/-- The PCS of a lane is reset: no lock, no alignment, no fault (Table 15-3, DOWN). -/
def Mach.pcsReset (m : Mach) (n : Nat) : Mach :=
  let m := m.modPort n fun p => { p with fill := 16, faultAt := none }
  (((((m.put (F.NET_PORT_STATUS_BLOCK_LOCK n) 0).put (F.NET_PORT_STATUS_FEC_ALIGN n) 0).put (F.NET_PORT_STATUS_HI_BER n) 0).put
    (F.NET_PORT_STATUS_LF n) 0).put (F.NET_PORT_STATUS_RF_RX n) 0).put (F.NET_PORT_STATUS_TRAINED n) 0

/-- TX_EQ_NOW takes an equaliser setting. -/
def Mach.putEq (m : Mach) (n swing post pre : Nat) : Mach :=
  ((m.put (F.NET_TX_EQ_NOW_SWING n) swing).put (F.NET_TX_EQ_NOW_POST n) post).put (F.NET_TX_EQ_NOW_PRE n) pre

/-- Whether the generator or the checker of a lane is enabled. -/
def Mach.prbsOn (m : Mach) (n : Nat) : Bool := m.on (F.NET_PRBS_CTRL_GEN_EN n) || m.on (F.NET_PRBS_CTRL_CHK_EN n)

/-- With TRAIN_EN = 0 the transmitter uses TX_EQ as set (R355). -/
def Mach.laneEq (m : Mach) (n : Nat) : Mach :=
  if m.on (F.NET_PORT_CTRL_TRAIN_EN n) then m
  else m.putEq n (m.get (F.NET_TX_EQ_SWING n)) (m.get (F.NET_TX_EQ_POST n)) (m.get (F.NET_TX_EQ_PRE n))

/-- A lane starts from OFF or DOWN: TRAIN when TRAIN_EN is 1, else ACQUIRE with TX_EQ as set; TEST while PRBS is enabled. It needs EN and
a good REFCLK_SD (Table 15-3, R355, R358). -/
def Mach.laneStart (m : Mach) (n : Nat) : Mach :=
  if m.on (F.NET_PORT_CTRL_EN n) && m.on F.NET_REFCLK_OK then
    let m := (m.pcsReset n).laneEq n
    m.laneEnter n (if m.prbsOn n then 5 else if m.on (F.NET_PORT_CTRL_TRAIN_EN n) then 1 else 2)
  else m

/-- A lane goes to OFF, and on from there when EN is 1 (Table 15-3, Any). -/
def Mach.laneOff (m : Mach) (n : Nat) : Mach := ((m.laneEnter n 0).pcsReset n).laneStart n

/-- REFCLK_SD is lost: every lane that is not OFF goes to DOWN (R350). -/
def Mach.refclkLoss (m : Mach) : Mach :=
  if m.on F.NET_REFCLK_OK then
    let m := (m.put F.NET_REFCLK_OK 0).put F.NET_REFCLK_LOST 1
    let m := { m with net := { m.net with refLost := true, refAt := m.now } }
    let up := [0, 1, 2, 3].filter fun n => m.laneUp n
    let m := [0, 1, 2, 3].foldl (fun m n => if m.get (F.NET_PORT_STATUS_STATE n) = 0 then m else m.laneGo n 4) m
    (up.foldl (fun m n => m.leavePort n) m).emit 11 2 0 0
  else m

/-- REFCLK_SD has been good for 100 ms: the lanes start again; REFCLK_OK ends an issued loss (R350). -/
def Mach.refclkGood (m : Mach) : Mach :=
  if m.on F.NET_REFCLK_OK then m
  else
    let m := (m.reachNs (if m.net.refLost then m.net.refAt + 100000000 else 0)).put F.NET_REFCLK_OK 1
    let m := [0, 1, 2, 3].foldl (fun m n => m.laneStart n) m
    if m.net.refLost then ({ m with net := { m.net with refLost := false } }).emit 11 3 0 0 else m

/-- LANE_TRAINING_DONE: the equaliser values in force appear in TX_EQ_NOW (R355). -/
def Mach.laneTrained (m : Mach) (n eq : Nat) : Mach :=
  if m.get (F.NET_PORT_STATUS_STATE n) = 1 then
    ((m.putEq n (bitsOf eq 23 16) (bitsOf eq 13 8) (bitsOf eq 5 0)).put (F.NET_PORT_STATUS_TRAINED n) 1).laneEnter n 2
  else m

/-- Time comes to `ms` after the lane's entry to its state (Table 15-3). -/
def Mach.laneReach (m : Mach) (n ms : Nat) : Mach := m.reachNs ((m.netPort n).entered + ms * 1000000)

/-- LANE_TRAIN_TIMEOUT (R355): 500 ms after the entry to TRAIN. -/
def Mach.laneTrainTimeout (m : Mach) (n : Nat) : Mach :=
  if m.get (F.NET_PORT_STATUS_STATE n) = 1 then ((m.laneReach n 500).bump (F.NET_LINK_CNT_TRAIN_FAIL n)).laneEnter n 4 else m

/-- LANE_LOCK_HELD: what UP needs has held for 100 ms, and the lane enters UP. -/
def Mach.laneLockHeld (m : Mach) (n : Nat) : Mach :=
  if m.get (F.NET_PORT_STATUS_STATE n) = 2 then
    let m := ((m.laneReach n 100).put (F.NET_PORT_STATUS_BLOCK_LOCK n) 1).put (F.NET_PORT_STATUS_FEC_ALIGN n) (m.get (F.NET_PORT_CTRL_FEC n))
    let m := ((m.put (F.NET_PORT_STATUS_HI_BER n) 0).put (F.NET_PORT_STATUS_LF n) 0).put (F.NET_PORT_STATUS_RF_RX n) 0
    m.laneEnter n 3
  else m

/-- LANE_ACQUIRE_TIMEOUT: 500 ms after the entry to ACQUIRE. -/
def Mach.laneAcquireTimeout (m : Mach) (n : Nat) : Mach :=
  if m.get (F.NET_PORT_STATUS_STATE n) = 2 then (m.laneReach n 500).laneEnter n 4 else m

/-- A fault that the lane's receiver meets begins or ends (R352): 5 a local fault begins, 6 it ends, 7 a remote fault begins, 8 it ends. While one lasts the lane starts no
frame; what waited then leaves. -/
def Mach.laneSignal (m : Mach) (n cause : Nat) : Mach :=
  let fld := if cause < 7 then F.NET_PORT_STATUS_LF n else F.NET_PORT_STATUS_RF_RX n
  let was := m.laneSends n
  let at_ := m.now
  let m := m.putB fld (cause == 5 || cause == 7)
  let since := if m.on (F.NET_PORT_STATUS_LF n) || m.on (F.NET_PORT_STATUS_RF_RX n) then some ((m.netPort n).faultAt.getD at_) else none
  let t0 := m.lsbAt ((m.netPort n).faultAt.getD at_)
  let m := m.modPort n fun p => { p with faultAt := since }
  if !was ∧ m.laneSends n then
    let m := if 2 ≤ n then m.modFwd (fwdDir n) fun x => x.delay t0 m.lsbNow else m
    m.sendPort n
  else m

/-- LANE_FAULT, with the invalid sync headers met: a finding of R352 at a lane that receives; or what takes an UP lane DOWN: 0 loss of block lock, 1 loss of FEC
alignment, 2 hi_ber, 3 a local fault held, 4 a remote fault held, for 100 µs since it began. -/
def Mach.laneFault (m : Mach) (n cause badSync : Nat) : Mach :=
  let st := m.get (F.NET_PORT_STATUS_STATE n)
  if (st == 2 || st == 3 || st == 4) && decide (5 ≤ cause) && decide (cause < 9) then (m.bumpBy (F.NET_BER_CNT_COUNT n) badSync).laneSignal n cause
  else if m.laneUp n && (cause != 1 || m.on (F.NET_PORT_CTRL_FEC n)) && decide (cause < 5) then
    let m := match (m.netPort n).faultAt with | some t => if 3 ≤ cause then m.reachNs (t + 100000) else m | none => m
    let m := m.bumpBy (F.NET_BER_CNT_COUNT n) badSync
    let m := if cause = 0 then m.put (F.NET_PORT_STATUS_BLOCK_LOCK n) 0
      else if cause = 1 then m.put (F.NET_PORT_STATUS_FEC_ALIGN n) 0
      else if cause = 2 then m.put (F.NET_PORT_STATUS_HI_BER n) 1
      else if cause = 3 then m.put (F.NET_PORT_STATUS_LF n) 1
      else m.put (F.NET_PORT_STATUS_RF_RX n) 1
    m.laneEnter n 4
  else m

/-- LANE_RETRY: 2 s after the entry to DOWN; the receiver and the PCS are reset first (Table 15-3). -/
def Mach.laneRetry (m : Mach) (n : Nat) : Mach :=
  if m.get (F.NET_PORT_STATUS_STATE n) = 4 then (m.laneReach n 2000).laneStart n else m

/-- SYS.RESET.LANE: the lane goes to OFF with the effect of a loss of UP, and what Table 18-3 clears for a lane is cleared (R357). -/
def Mach.laneReset (m : Mach) (n : Nat) : Mach :=
  let m := m.laneEnter n 0
  let m := (((m.put (F.NET_PRBS_CTRL_INJ_RATE n) 0).put (F.NET_PRBS_CTRL_PATTERN n) 0).put (F.NET_PRBS_CTRL_CHK_EN n) 0).put
    (F.NET_PRBS_CTRL_GEN_EN n) 0
  let m := ((m.put (F.NET_PRBS_STATUS_LOCK n) 0).put (F.NET_PRBS_ERR_COUNT n) 0).putEq n 0 0 0
  m.laneOff n

/-- The length and the second tap of a PRBS pattern (R358): x^7 + x^6 + 1 and, of ITU-T O.150, x^9 + x^5 + 1, x^15 + x^14 + 1, x^23 + x^18 + 1 and x^31 + x^28 + 1
(PRESUMED, log entry 84). -/
def prbsTaps (pat : Nat) : Nat × Nat :=
  match pat with
  | 0 => (7, 6) | 1 => (9, 5) | 2 => (15, 14) | 3 => (23, 18) | _ => (31, 28)

/-- Whether a pattern is put on the line inverted, as ITU-T O.150 has PRBS15, PRBS23 and PRBS31 (PRESUMED, log entry 84). -/
def prbsInverted (pat : Nat) : Bool := decide (2 ≤ pat)

/-- The next bit of a pattern after its last bits, newest first. -/
def prbsNext (pat : Nat) (l : List Bool) : Bool := l.getD ((prbsTaps pat).1 - 1) false != l.getD ((prbsTaps pat).2 - 1) false

/-- `k` bits of the generator (R358): each is the pattern's next; one in every 2^INJ_RATE is inverted, and one for INJ. -/
def prbsSend (pat rate : Nat) : Nat → NetPort → NetPort
  | 0, p => p
  | k + 1, p =>
    let b := prbsNext pat p.gen
    let due := rate != 0 && (p.prbsSent + 1) % 2 ^ rate == 0
    prbsSend pat rate k { p with
      gen := (b :: p.gen).take (prbsTaps pat).1, prbsSent := p.prbsSent + 1, inject := false, inverted := p.inverted + bit due + bit p.inject,
      line := p.line ++ [(b != prbsInverted pat) != (due != p.inject)] }

/-- The checker's pattern starts anew. -/
def NetPort.recheck (p : NetPort) : NetPort := { p with chk := [], goodRun := 0, errs := [] }

/-- One bit from the line at the PRBS checker (R358): without LOCK it is compared with what the pattern has after the bits received before it, with LOCK with the
pattern that runs on from there (DESIGN CHOICE, log entry 83). LOCK comes with the 64th error-free bit in a row and goes with the 64th error among 1,024 bits; an error
counts while LOCK stands. -/
def Mach.prbsBit (n : Nat) (m : Mach) (x : Bool) : Mach :=
  let p := m.netPort n
  let pat := m.get (F.NET_PRBS_CTRL_PATTERN n)
  let lock := m.on (F.NET_PRBS_STATUS_LOCK n)
  let b := x != prbsInverted pat
  let want := prbsNext pat p.chk
  let ok := decide (p.chk.length = (prbsTaps pat).1) && p.chk.any id && b == want
  let m := m.modPort n fun p => { p with chk := ((if lock then want else b) :: p.chk).take (prbsTaps pat).1 }
  let m := if lock && !ok then m.bump (F.NET_PRBS_ERR_COUNT n) else m
  let run := if ok then min (p.goodRun + 1) 64 else 0
  let errs := ((!ok) :: p.errs).take 1024
  if lock && decide (64 ≤ (errs.filter id).length) then
    (m.modPort n fun p => p.recheck).put (F.NET_PRBS_STATUS_LOCK n) 0
  else if !lock && run == 64 then (m.modPort n fun p => { p with goodRun := run, errs := [] }).put (F.NET_PRBS_STATUS_LOCK n) 1
  else m.modPort n fun p => { p with goodRun := run, errs := if lock then errs else [] }

/-- The bits of a test since the command before (R358): those sent, of which one in every 2^INJ_RATE is inverted, and those received. -/
def Mach.prbsLine (m : Mach) (l : PrbsLine) : Mach :=
  let n := l.lane
  if m.get (F.NET_PORT_STATUS_STATE n) ≠ 5 then m
  else
    let m := if m.on (F.NET_PRBS_CTRL_GEN_EN n) then
        m.modPort n fun p => prbsSend (m.get (F.NET_PRBS_CTRL_PATTERN n)) (m.get (F.NET_PRBS_CTRL_INJ_RATE n)) l.sent { p with line := [] }
      else m
    if m.on (F.NET_PRBS_CTRL_CHK_EN n) then l.received.foldl (Mach.prbsBit n) m else m

/-- The generator's pattern begins, at a place that the spec leaves open: bits that are not all zero, a free value (log entry 83). -/
def Mach.prbsSeed (m : Mach) (n : Nat) : Mach :=
  let w := (prbsTaps (m.get (F.NET_PRBS_CTRL_PATTERN n))).1
  let (k, m) := m.fresh
  let v := 1 + Config.openValue k % (2 ^ w - 1)
  m.modPort n fun p => { p with gen := (List.range w).map fun i => v.testBit i, inject := false }

/-- A write of PRBS_CTRL (R358): its fields take the written values; GEN_EN or CHK_EN written 1 takes any lane but an OFF one to TEST, and
both at 0 take a lane in TEST to OFF and on; a new PATTERN restarts the checker's lock; INJ inverts the next bit of a running generator. -/
def Mach.prbsWrite (m : Mach) (n w : Nat) : Mach :=
  let newPat := bitsOf w 6 4 != m.get (F.NET_PRBS_CTRL_PATTERN n)
  let starts := bitOf w 0 && (newPat || !m.on (F.NET_PRBS_CTRL_GEN_EN n))
  let checks := bitOf w 1 && !m.on (F.NET_PRBS_CTRL_CHK_EN n)
  let m := (((m.put (F.NET_PRBS_CTRL_INJ_RATE n) (bitsOf w 29 24)).put (F.NET_PRBS_CTRL_PATTERN n) (bitsOf w 6 4)).put
    (F.NET_PRBS_CTRL_CHK_EN n) (bitsOf w 1 1)).put (F.NET_PRBS_CTRL_GEN_EN n) (bitsOf w 0 0)
  let m := if newPat || checks then (m.put (F.NET_PRBS_STATUS_LOCK n) 0).modPort n fun p => p.recheck else m
  let m := if starts then m.prbsSeed n else m
  let st := m.get (F.NET_PORT_STATUS_STATE n)
  let m := if m.prbsOn n && st != 0 && st != 5 then m.laneEnter n 5
    else if !m.prbsOn n && st == 5 then m.laneOff n else m
  if bitOf w 8 && m.on (F.NET_PRBS_CTRL_GEN_EN n) && m.get (F.NET_PORT_STATUS_STATE n) == 5 then
    m.modPort n fun p => { p with inject := true }
  else m

/-! ### Frames -/

/-- The line rate of a port, b/s (R376). -/
def Mach.lineRate (m : Mach) (n : Nat) : Nat := if m.on (F.NET_PORT_CTRL_SPEED n) then 25000000000 else 10000000000

/-- Whether a frame's tag is accepted: untagged, VID 0, or the port's VID with TAG_EN (R359). -/
def Mach.tagOk (m : Mach) (n : Nat) (f : Frame) : Bool :=
  match f.vid with
  | none => true
  | some v => v == 0 || (m.on (F.NET_VLAN_TAG_EN n) && v == m.get (F.NET_VLAN_VID n))

/-- The PTP messages that the module terminates (R361). -/
def Mach.terminated (m : Mach) (f : Frame) : Bool :=
  (f.ptp != .none && f.ptpUnicast) ||
  (m.get F.PTP_TC_CTRL_MODE == 2 && (f.ptp == .pdelayReq || f.ptp == .pdelayResp || f.ptp == .pdelayRespFollowUp))

/-- Whether a residence entry is the one of a Follow_Up. -/
def tcMatch (f : Frame) (e : TcEntry) : Bool := e.domain == f.domain && e.source == f.source && e.seqId == f.seqId

/-- The egress stamp of a frame that a direction takes at `t`: PTP event messages go before the rest, and each kind in the order of its coming (R23). -/
def Forward.stamp (x : Forward) (event : Bool) (t : Nat) : Nat :=
  (x.queue.filter fun h => !event || isEventKind h.frame.ptp).foldl (fun a h => max a h.leaves) t

/-- A frame takes its place in a direction's order of egress (R23). -/
def Forward.add (x : Forward) (h : HeldFrame) : Forward :=
  if isEventKind h.frame.ptp then
    { x with queue := (x.queue.filter fun g => isEventKind g.frame.ptp) ++ [h] ++
        ((x.queue.filter fun g => !isEventKind g.frame.ptp).map fun g => { g with leaves := max g.leaves h.leaves }) }
  else { x with queue := x.queue ++ [h] }

/-- Queue a frame whole for egress on direction k with its stamps (R361, R362): the transparent clock keeps those of a two-step Sync for its Follow_Up, which waits for
it (R368). A full direction drops it (R23), as does an egress that is not UP (R357). -/
def Mach.forward (m : Mach) (n : Nat) (f : Frame) : Mach :=
  let e := 5 - n
  let k := fwdDir e
  let m := m.fwdDrain
  if !m.laneUp e then m.bump (F.NET_FWD_DROP_DOWN k)
  else if 262144 < (m.net.fwd.ix k).held + f.len then m.bump (F.NET_FWD_DROP_FULL k)
  else
    let mode := m.get F.PTP_TC_CTRL_MODE
    let enters := m.rxStamp n f.rx
    let leaves := (m.net.fwd.ix k).stamp (isEventKind f.ptp) (m.txStamp e f.tx)
    let push := fun (m : Mach) (t : Nat) (sync : Option (Nat × Nat)) => m.modFwd k fun x => x.add ⟨enters, t, f, sync⟩
    if mode = 0 then push m leaves none
    else
      match f.ptp with
      | .sync2 =>
        if 64 ≤ (m.net.fwd.ix k).table.length then push (m.bump F.PTP_TC_CNT_TC_FULL) leaves none
        else push (m.modFwd k fun x => { x with table := x.table ++ [⟨f.domain, f.source, f.seqId, enters, leaves, m.now⟩] }) leaves none
      | .followUp =>
        match (m.net.fwd.ix k).table.find? (tcMatch f) with
        | none => push (m.bump F.PTP_TC_CNT_FU_NOMATCH) leaves none
        | some t =>
          let m := m.modFwd k fun x => { x with table := x.table.eraseP (tcMatch f) }
          push m (max leaves t.leaves) (some (t.enters, t.leaves))
      | _ => push m leaves none

/-- The elastic buffer between two frames (R353): from its fill, the idle characters, whether a block has been deleted, and the counts of blocks deleted and
inserted, through the terminate block (`first`) and each idle-only block. -/
def ebGap : Bool → Int × Int × Nat × Nat → List Int → Int × Int × Nat × Nat
  | _, x, [] => x
  | first, (fill, ipg, del, ins), d :: r =>
    let fill := clampInt 0 32 (fill + d)
    if 20 ≤ fill ∧ !first ∧ del = 0 ∧ 13 ≤ ipg then ebGap false (fill - 1, ipg - 8, 1, ins) r
    else if fill ≤ 12 then ebGap false (fill + 1, ipg + 8, del, ins + 1) r
    else ebGap false (fill, ipg, del, ins) r

/-- What a lane's receiver meets up to and with a frame (R352, R353): codewords and sync headers are counted, the elastic buffer deletes and inserts idle
blocks. The frame comes through, or, where it meets a full or an empty buffer, is lost, and the buffer recentres. -/
def Mach.rxLine (m : Mach) (n : Nat) (l : RxLine) : Mach × Bool :=
  let m := if m.on (F.NET_PORT_CTRL_FEC n) then (m.bumpBy (F.NET_FEC_CORR_COUNT n) l.corrected).bumpBy (F.NET_FEC_UNCORR_COUNT n) (l.bad + bit l.badHere) else m
  let m := m.bumpBy (F.NET_BER_CNT_COUNT n) l.badSync
  let (fill, _, del, ins) := ebGap true ((m.netPort n).fill, (l.ipg : Int), 0, 0) l.drift
  let m := (m.bumpBy (F.NET_EB_CNT_DEL n) del).bumpBy (F.NET_EB_CNT_INS n) ins
  let fill := fill + l.inFrame
  if fill ≤ 0 ∨ 32 ≤ fill then ((m.bump (F.NET_LINK_CNT_EB_ERR n)).modPort n fun p => { p with fill := 16 }, false)
  else (m.modPort n fun p => { p with fill := fill }, true)

/-- A CE mark on a packet of a session (R376): a CNP is sent, at most one in 50 µs. -/
def Mach.ceMark (m : Mach) (s : Nat) : Mach :=
  let due := match (m.slot s).cnpTx with | some t => decide (t + 50000 ≤ m.now) | none => true
  if m.isOpen s && due then
    ((m.bump F.REC_CNP_CNT_TX).modSlot s fun x => { x with cnpTx := some m.now }).txSess s 1
  else m

/-- Whether a frame is for the module: its own address, broadcast or a subscribed multicast, with the tag that the port wants (R359). -/
def Mach.forUs (m : Mach) (n : Nat) (f : Frame) : Bool :=
  (f.dest == .own || f.dest == .broadcast || f.dest == .subscribedMulticast) && m.tagOk n f

/-- Whether a port accepts a frame (R359). -/
def Mach.accepts (m : Mach) (n : Nat) (f : Frame) : Bool := decide (64 ≤ f.len) && decide (f.len ≤ 9216) && f.fcsGood && m.forUs n f

/-- A frame as RS-FEC leaves it: one in a codeword that it cannot correct fails its FCS (R353). -/
def codedFrame (f : Frame) (fec : Bool) : Frame := { f with fcsGood := f.fcsGood && !(f.line.badHere && fec) }

/-- The answer of a neighbour that is asked for, or was in vain: it is resolved, and what waited for it leaves (R373). -/
def Mach.neighbourAnswers (m : Mach) (n : Nat) (a : BitVec 128) : Mach :=
  match m.neighbour n a with
  | some e =>
    if e.st = .resolved then m
    else ((m.putNeighbour { e with st := .resolved, time := m.now, waiting := 0 }).txFrames n e.waiting).sendPort n
  | none => m

/-- A frame that has come through the elastic buffer (R359, R361); the answer of a neighbour is taken (R373). -/
def Mach.frameTake (m : Mach) (n : Nat) (f : Frame) : Mach :=
    let badLen := decide (f.len < 64) || decide (9216 < f.len)
    if badLen || !f.fcsGood then
      let m := if f.fcsGood then m else m.bump (F.NET_RX_BAD_FCS n)
      if badLen then m.bump (F.NET_RX_BAD_LEN n) else m
    else
      let accept := m.forUs n f
      let passes := decide (2 ≤ n) && f.dest != .own && !m.terminated f
      let m := if accept then m.bump (F.NET_RX_FRAMES_COUNT n) else m
      let m := match f.answer with | some a => if accept then m.neighbourAnswers n a else m | none => m
      let m := match f.ce with | some s => if accept && f.dest == .own && m.get (F.REC_SESS_STATE_PORT s) == n then m.ceMark s else m | none => m
      if passes then (if m.on F.NET_FWD_CTRL_EN then m.forward n f else m)
      else if accept then m
      else m.bump (F.NET_RX_DROP_COUNT n)

/-- FRAME_RECEIVE (R352, R353, R359, R361): a frame in a codeword that RS-FEC cannot correct fails its FCS. -/
def Mach.frameIn (m : Mach) (n : Nat) (f : Frame) : Mach :=
  if !m.laneUp n then m
  else
    let (m, through) := m.rxLine n f.line
    if through then m.frameTake n (codedFrame f (m.on (F.NET_PORT_CTRL_FEC n))) else m

/-- TC_ENTRY_EXPIRE (R368): an unused entry of the direction that enters at port n is removed after 1 s. -/
def Mach.tcExpire (m : Mach) (n domain source seqId : Nat) : Mach :=
  let k := fwdDir (5 - n)
  let key := fun (e : TcEntry) => e.domain == domain && e.source == source && e.seqId == seqId
  match (m.net.fwd.ix k).table.find? key with
  | some e => if n < 2 then m else (m.reachNs (e.made + 1000000000)).modFwd k fun x => { x with table := x.table.eraseP key }
  | none => m

/-- PAUSE_RECEIVE (R360): with PFC_EN a PFC frame for PFC_PRI, else a PAUSE frame, holds the port's own frames; quanta of 0 release them. -/
def Mach.pauseIn (m : Mach) (n : Nat) (pri : Option Nat) (quanta : Nat) : Mach :=
  let honoured := if m.on (F.NET_PORT_CTRL_PFC_EN n) then pri == some (m.get (F.NET_PORT_CTRL_PFC_PRI n)) else pri.isNone
  if m.laneUp n && honoured then
    let m := m.modPort n fun p => { p with held := quanta, heldAt := m.now }
    if quanta = 0 then m.sendPort n else m
  else m

/-- PAUSE_EXPIRE (R360): the quanta of 512 bit times have passed. -/
def Mach.pauseEnd (m : Mach) (n : Nat) : Mach :=
  let p := m.netPort n
  if p.held = 0 then m
  else ((m.reachNs (p.heldAt + ceilDiv (p.held * 512 * 10 ^ 9) (max (m.lineRate n) 1))).modPort n fun p => { p with held := 0 }).sendPort n

end Sys2Proof.Machine
end

