-- ==== Sys2Proof/Machine/Power.lean ====
section
/-!
DEFINITION. Machine/Power.lean: supply (R28, R33 to R38, R41 to R43), resets and what they keep (R422 to R429), power-fail markers (R51, R394), and
power states (R430 to R436).
-/
namespace Sys2Proof.Machine

/-! ### What a reset of the core keeps -/

/-- The registers of the always-on domain (Table 18-3, R74): they outlast every reset but power-on reset. -/
def aoReg (a : Nat) : Bool :=
  let mc := a % 0x8000
  let inMc := decide (0xF0000 ≤ a) && decide (a < 0x100000)
  [0x14, 0x28, 0x2C, 0x30, 0x34, 0x38, 0x3C, 0x20000, 0x20030, 0x30000, 0x30008, 0x30020, 0x30024, 0x30114, 0x30134, 0x30154, 0x30174,
   0x80004, 0x80030, 0x80048, 0x8004C, 0xB001C, 0xB0020].contains a ||
  (decide (0x80010 ≤ a) && decide (a < 0x80030)) ||
  (inMc && (decide (mc < 8) || mc == 0x24 || (decide (0x30 ≤ mc) && decide (mc < 0x5C)) || (decide (0x800 ≤ mc) && decide (mc < 0x1000)) || a == 0xF0404)) ||
  (decide (0x110400 ≤ a) && decide (a < 0x110800))

/-- The register bank after a reset of the core: the always-on registers as they were, every other at its reset value. -/
def keptRegs (act : List (Nat × Nat)) : List (Nat × Nat) :=
  (resetFields.filter fun e => !aoReg (e.1 / 32)).foldl (fun b e => mapPut 0 b e.1 e.2) (act.filter fun e => aoReg (e.1 / 32))

/-- Whether the core is alive: in the start sequence or past it. -/
def Mach.alive (m : Mach) : Bool := m.pwr.phase == .starting || m.pwr.phase == .running

/-- Reset the core (Table 18-3, the columns of the warm class, the watchdog class and pin): what is always on, the stores and the management port
stay; the rest is at its reset value. -/
def Mach.coreDown (m : Mach) : Mach :=
  let mc (c : MemChan) : MemChan := { dimms := c.dimms, migBytes := c.migBytes, migPart := c.migPart, errs := c.errs, poison := c.poison, written := c.written, scrubAt := c.scrubAt, trainCrc := c.trainCrc }
  let m' : Mach :=
    { regs := { act := keptRegs m.regs.act }
      pwr := { m.pwr with ppsOut := false, ppsSrc := 0, ppsLast := none, ppsEnd := 0, thermWarn := false, startDone := false, wakeHold := 0, wakeAt := none, waking := none, entering := none, drain := none, marker := none }
      evt := { m.evt with out := 0, pulsing := 0, pulseAt := [] }
      bus := m.bus
      clk := { m.clk with reg := { ageing := m.clk.reg.ageing, ageN := m.clk.reg.ageN }, qual := [], refGood := 0, ppsGood := 0, ppsLast := none }
      mgmt := m.mgmt
      mcs := ⟨mc m.mcs.a, mc m.mcs.b⟩
      recs := { slots := m.recs.slots, lastK := m.recs.lastK, jrnPos := m.recs.jrnPos, copyOf := m.recs.copyOf }
      free := m.free }
  ((m'.put (F.ESC_STATUS_INTLK_LOW 0) (bit !m.pwr.intlkN)).put (F.ESC_STATUS_INTLK_LOW 1) (bit !m.pwr.intlkN))

/-! ### Pieces of Tables 02-8 and 18-2 -/

/-- Every open slot becomes CLOSED_KEPT with reason 5 RESET; a CONNECTING slot returns to its previous state (R398, Table 18-2). -/
def Mach.keepAll (m : Mach) : Mach := slotNos.foldl (fun m s => (m.unconnect s).keepSlot s 5) m

/-- A commit in progress ends where it stands: domains that have not applied never apply (Table 18-2, Table 18-8). -/
def Mach.dropCommit (m : Mach) : Mach := (m.modCommit fun c => { c with wantReload := 0 }).commitEnded

/-- Launching stops: acquisition ends on both ports, Raman frames are abandoned, a calibration ends as ABORT. -/
def Mach.stopAll (m : Mach) : Mach :=
  let stop (m : Mach) (p : Port) : Mach :=
    (if m.running p then m.stopAcq p else m).modAcq p fun a => { a with startAt := none, restarting := none, resetWrite := none }
  ((stop (stop m .A) .B).abandonBoth).calStop

/-- The oldest unaccepted tick record of a journal, as Table 16-11 codes it. -/
def beatWord (l : List JRec) : Nat :=
  match l.find? fun r => decide (r.body.port < 2) && [1, 2, 3, 5, 8].contains r.body.typ with
  | some r => r.body.port * 2 ^ 31 + r.body.beat % 2 ^ 31
  | none => 0xFFFFFFFF

/-- The marker entry of a slot (Table 16-11). -/
def Mach.markerEntry (m : Mach) (s : Nat) : MarkerEntry :=
  let x := m.slot s
  { slot := s, start := x.start, oldestK := (match x.journal.head? with | some r => r.body.seq % 2 ^ 40 | none => x.k), nextK := x.k,
    beatWord := beatWord x.journal }

/-- The last launched beat of a port. -/
def Mach.lastBeat (m : Mach) (p : Port) : Nat := match (m.acqOf p).launches.getLast? with | some l => l.beat | none => (m.acqOf p).beat

/-- The power-fail marker (R51, R394) with a cause coded as an event code: 0x0000 POWER_FAIL, 0x0102 THERMAL_TRIP, 0x0501 XO_FAIL. -/
def Mach.marker (m : Mach) (cause : Nat) : Marker :=
  { bootEpoch := m.get F.SYS_BOOT_EPOCH, epoch := m.get F.CFG_EPOCH, time := m.now, cause := cause, beatA := m.lastBeat .A, beatB := m.lastBeat .B,
    lastStep := if m.pwr.startDone then 15 else m.get F.SYS_STATE_START_STEP,
    entries := (slotNos.filter fun s => m.producing s).map m.markerEntry }

/-- The 19 bytes of a marker entry (Table 16-11). -/
def MarkerEntry.bytes (e : MarkerEntry) : List Byte := leBytes 1 e.slot ++ leBytes 4 e.start ++ leBytes 5 e.oldestK ++ leBytes 5 e.nextK ++ leBytes 4 e.beatWord

/-- The 1,280 bytes of a marker as the log holds them (R394). -/
def Marker.bytes (k : Marker) : List Byte :=
  let head := leBytes 4 k.bootEpoch ++ leBytes 4 k.epoch ++ leBytes 8 k.time ++ leBytes 4 k.cause ++ leBytes 8 k.beatA ++ leBytes 8 k.beatB ++
    leBytes 1 k.entries.length ++ leBytes 1 k.lastStep
  (head ++ List.replicate 26 0 ++ k.entries.flatMap MarkerEntry.bytes ++ List.replicate (19 * (64 - k.entries.length)) 0)

/-- The index of the most recently written entry of the marker log. -/
def lastWritten (l : List (Option Marker)) : Option Nat :=
  match lastMarker l with
  | none => none
  | some k => l.findIdx? fun x => x == some k

/-- The next erased entry of the marker log, after the most recently written one. -/
def nextErased (l : List (Option Marker)) : Option Nat :=
  let from_ := match lastWritten l with | some i => i + 1 | none => 0
  ((List.range 6).map fun i => (from_ + i) % 6).find? fun i => (l.getD i none).isNone

/-- The marker log with a marker written into its next erased entry (R51). -/
def writeMarker (l : List (Option Marker)) (k : Marker) : List (Option Marker) :=
  match nextErased l with
  | some i => listPut l i (some k)
  | none => l

/-- At each start the older log sector is erased when fewer than two erased entries remain (R51). -/
def trimMarkers (l : List (Option Marker)) : List (Option Marker) :=
  if 2 ≤ (l.filter fun x => x.isNone).length then l
  else if (match lastWritten l with | some i => decide (i < 3) | none => false) then l.take 3 ++ [none, none, none]
  else [none, none, none] ++ l.drop 3

/-- What holds the core, with one reason more. -/
def holdMore (l : List Hold) (h : Hold) : List Hold := if l.contains h then l else l ++ [h]

/-- One reason less holds the core. -/
def Mach.release (m : Mach) (h : Hold) : Mach := m.modPwr fun x => { x with holds := x.holds.filter fun k => k != h }

/-! ### Supply -/

/-- The block without supply: nothing volatile and nothing always-on is left (Table 18-3, power-on); pins keep their levels. -/
def Mach.powerOff (m : Mach) : Mach :=
  let m' : Mach := { Mach.reset with free := m.free, bus := m.bus }
  let m' := m'.modPwr fun x => { x with intlkN := m.pwr.intlkN }
  (m'.put (F.ESC_STATUS_INTLK_LOW 0) (bit !m.pwr.intlkN)).put (F.ESC_STATUS_INTLK_LOW 1) (bit !m.pwr.intlkN)

/-- UVLO_RISING (R35, R41): a power-on reset, CAUSE 0; the supplies come up in the order of Table 02-7. -/
def Mach.uvloRising (m : Mach) : Mach :=
  if m.pwr.supply then m
  else
    let m := (m.powerOff).modPwr fun x => { x with phase := .reset, supply := true, v33 := true, vaux12 := true }
    ((m.put F.CLK_XO_STATUS_XO0_OK 1).put F.CLK_XO_STATUS_XO1_OK 1).put F.CLK_XO_STATUS_PLL_LOCK 1

/-- PGOOD_RISE (R41, R42): all rails and both outputs are in regulation. -/
def Mach.pgoodRise (m : Mach) : Mach :=
  if m.pwr.supply && m.pwr.v33 && m.pwr.vaux12 then m.modPwr fun x => { x with pgood := true } else m

/-- WARNING_CLEAR (R35): VBULK rises through 36.0 V; PFAIL_N is high and launching is permitted. -/
def Mach.warningClear (m : Mach) : Mach := if m.pwr.supply then (m.put F.SYS_POWER_PFAIL 0).syncPermit else m

/-- UVLO_FALLING (R35, Table 02-8 steps 5 to 7): outputs and core rails off, PGOOD and MCx_PWR_EN low; with the sequence not ended no marker is written. -/
def Mach.uvloFalling (m : Mach) : Mach := if m.pwr.supply then m.powerOff else m

/-- A feed's new state (R33, R34): its first debounced state after power-on issues no event. -/
def Mach.feedWindow (m : Mach) (f : Feed) (inside : Bool) : Mach :=
  let i := match f with | .VIN_A => 0 | .VIN_B => 1
  let ok := match f with | .VIN_A => F.SYS_POWER_FEED_A_OK | .VIN_B => F.SYS_POWER_FEED_B_OK
  let ovp := match f with | .VIN_A => F.SYS_POWER_FEED_A_OVP | .VIN_B => F.SYS_POWER_FEED_B_OVP
  if !m.pwr.supply then m
  else
    let inside := inside && !m.on ovp
    let seen := m.pwr.feedSeen.ix i
    let was := m.on ok
    let m := (m.putB ok inside).modPwr fun x => { x with feedSeen := x.feedSeen.putIx i true }
    if seen && was != inside then m.emit 0 1 0 (evArg 0 0 i) else m

/-- FEED_OVER_VOLTAGE (R34): the feed's input switch opens; the feed counts as outside its window, at once and as its debounced
state (DESIGN CHOICE, log entry 81). -/
def Mach.feedOver (m : Mach) (f : Feed) : Mach :=
  if !m.pwr.supply then m
  else (m.put (match f with | .VIN_A => F.SYS_POWER_FEED_A_OVP | .VIN_B => F.SYS_POWER_FEED_B_OVP) 1).feedWindow f false

/-- FEED_RECONNECT (R34): the feed has fallen below 76.0 V; its window state follows from its next debounced state. -/
def Mach.feedReconnect (m : Mach) (f : Feed) : Mach :=
  if !m.pwr.supply then m
  else m.put (match f with | .VIN_A => F.SYS_POWER_FEED_A_OVP | .VIN_B => F.SYS_POWER_FEED_B_OVP) 0

/-- OUTPUT_OVERCURRENT (R38): the output is latched off, launching stops, the core is held in reset, MCx_PWR_EN falls, no marker is written, and the
journal, the raw area and the slots are lost. -/
def Mach.overcurrent (m : Mach) (o : Output) : Mach :=
  let on := match o with | .VAUX12 => m.pwr.vaux12 | .V33_OUT => m.pwr.v33
  if !m.pwr.supply || !on then m
  else
    let m := (m.put F.SYS_POWER_OUT_FAULT 1).emit 0 2 0 (evArg (match o with | .VAUX12 => 0 | .V33_OUT => 1) 0 0)
    let m := (m.stopAll.freeAll).coreDown
    let m := m.modPwr fun x => { x with phase := .held, holds := holdMore x.holds .output, pgood := false, mcPwrEn := false, mcDrstN := false, trained := ⟨false, false⟩,
                                        vaux12 := x.vaux12 && o != .VAUX12, v33 := x.v33 && o != .V33_OUT }
    { m with mcs := ⟨{}, {}⟩, recs := {} }

/-! ### The drain of a warm reset -/

/-- Whether the Train holds a tile whose result has not been handed on. -/
def Mach.trainBusy (m : Mach) : Bool :=
  !m.train.ready.a.isEmpty || !m.train.ready.b.isEmpty || !m.train.order.a.isEmpty || !m.train.order.b.isEmpty

/-- The Train runs on until every tile has been handed on, for at most `n` cycles (Table 18-2, step 3). -/
def drainTrain : Nat → Mach → Mach
  | 0, m => m
  | n + 1, m =>
    if m.trainBusy then
      let m := (m.tileArrival .A).tileArrival .B
      let m := engineNos.foldl (fun m e => m.tileStart e) m
      drainTrain n ((m.jewelsTick.resultHandoff .A).resultHandoff .B)
    else m

/-- The codec runs on until no tile waits, for at most `n` tiles. -/
def drainCodec : Nat → Mach → Mach
  | 0, m => m
  | n + 1, m =>
    if m.codec.queue.a.isEmpty && m.codec.queue.b.isEmpty then m
    else drainCodec n (((m.codecBlock .A false).codecBlock .B false).ringWrite.ringWrite)

/-- The producer indices are written up to what has been sent (Table 18-2, step 4). -/
def Mach.writeIndices (m : Mach) : Mach :=
  slotNos.foldl (fun m s => (List.range (m.slot s).streams.length).foldl (fun m i => m.writeIndex s i) m) m

/-! ### Resets -/

/-- The core goes down and waits for the start sequence with a cause (R424); while another reason holds it, it stays held (log entry 74). -/
def Mach.restart (m : Mach) (cause : Nat) : Mach :=
  ((m.coreDown).put F.SYS_RESET_CAUSE_CAUSE cause).modPwr fun x => { x with phase := if x.holds.isEmpty then .reset else .held }

/-- Whether ticks of a port are still to be formed. -/
def Mach.forming (m : Mach) (p : Port) : Bool := (m.acqOf p).launches.any fun l => decide (l.formed < l.set.range)

/-- The drain of a warm reset once both ports have stopped (R425, Table 18-2, steps 2 to 7): the backscatter of the last beats is processed as its samples come,
for 5 ms from t_R at most (log entry 40); then what is open closes, its records enter the journal, every session is kept, and the core is reset with CAUSE 2. -/
def Mach.drainEnd (m : Mach) : Mach :=
  match m.pwr.drain with
  | none => m
  | some t =>
    if m.running .A || m.running .B then m
    else
      let m := m.stopAll
      if (m.forming .A || m.forming .B) && decide (m.now < t + 5000000) then m
      else
        let m := if m.forming .A then m.pipeClear .A else m
        let m := if m.forming .B then m.pipeClear .B else m
        let m := drainCodec 65536 (drainTrain 1048576 m)
        let m := (((m.zoneClose .A).zoneClose .B).overClose .A).overClose .B
        let m := ((m.endCaptures [.A, .B]).flush).writeIndices
        (m.keepAll.flush.srEnterAll).restart 2

/-- A warm reset (R425): it is accepted, a commit in progress ends where it stands, a port that has not begun does not begin, and each running port stops at its
next t_B; then the drain goes on. -/
def Mach.warmReset (m : Mach) : Mach :=
  if !m.alive then m
  else
    let now := m.now
    let m := m.dropCommit.modPwr fun x => { x with drain := some now }
    m.drainEnd

/-- A watchdog-class reset (R426, R424): steps 4 to 6 of Table 18-2; ticks that have not entered a record are never produced, but the events of the closed sessions
are journaled; SAFE is taken along, and a calibration in progress ends as ABORT (R418). -/
def Mach.watchReset (m : Mach) (cause : Nat) : Mach :=
  if !m.alive then m
  else
    let safe := if m.get F.SYS_STATE_MODE = 2 then m.get F.SYS_STATE_SAFE_REASON else 0
    let m := { m with recs := { m.recs with ready := m.recs.ready.filter fun d => [6, 7, 10].contains d.typ } }
    ((m.calStop.writeIndices.keepAll.flush.srEnterAll).restart cause).modPwr fun x => { x with safeKept := safe }

/-- What a pin reset clears beyond a reset of the core (Table 18-3, R427, R334, R338): DRAM contents, session slots, training results, the frozen state;
a migration restarts at address 0. -/
def Mach.pinClear (m : Mach) : Mach :=
  let m := { m.freeAll with recs := {} }
  let m := [0, 1].foldl (fun m ch =>
    let m := m.modMc ch fun _ => {}
    let mig := m.get (F.MC_STATUS_MIGRATING ch)
    let bad := m.get (F.MC_STATUS_SPARE_BAD ch)
    let avail := m.get (F.MC_STATUS_SPARE_AVAIL ch)
    let m := { m with regs := { m.regs with act := m.regs.act.filter fun e =>
      let a := e.1 / 32
      a != 0xF0000 + 0x8000 * ch && a != 0xF0004 + 0x8000 * ch && a != 0xF0404 } }
    let m := ((m.put (F.MC_STATUS_MIGRATING ch) mig).put (F.MC_STATUS_SPARE_BAD ch) bad).put (F.MC_STATUS_SPARE_AVAIL ch) avail
    m.put (F.MC_MIG_STATUS_PTR_GIB ch) 0) m
  m.modPwr fun x => { x with trained := ⟨false, false⟩, mcPwrEn := false, mcDrstN := false, safeKept := 0 }

/-- A pin reset (R427, R38, R418): RESET_N is honoured once PGOOD is high (Table 02-7, step 6), and ends a latched output fault (R38), which stays
readable. It acts at once, and a calibration ends as ABORT. A thermal or crystal hold goes on (log entry 74). RESET_N stays low until the start sequence finds
it high. -/
def Mach.pinReset (m : Mach) : Mach :=
  let fault := m.pwr.holds.contains .output
  if !m.pwr.supply || !(m.pwr.pgood || fault) then m
  else
    let m := (m.calStop.pinClear).modPwr fun x => { x with holds := x.holds.filter fun h => h == .thermal || h == .crystals }
    (m.restart 1).modPwr fun x => { x with vaux12 := true, v33 := true, resetN := false }

/-- A port reset (R428): ignored while one is in progress; a running port ends acquisition at its next t_B, a stopped one at once. -/
def Mach.portReset (m : Mach) (p : Port) : Mach :=
  if (m.acqOf p).resetWrite.isSome then m
  else
    let now := m.now
    let m := m.modAcq p fun a => { a with resetWrite := some now }
    if m.running p then m else (m.modAcq p fun a => { a with startAt := none }).portClear p

/-- A write of SYS.RESET with its KEY (R90): WARM alone, or the others in the order ENGINE, LANE, PORT_A, PORT_B. Any of them ends a calibration as ABORT
(R418). Writes during the drain of a warm reset are ignored (R425). -/
def Mach.resetWrite (m : Mach) (w : Nat) : Mach :=
  if m.pwr.drain.isSome then m
  else if bitOf w 0 then m.warmReset
  else
    let any := bitOf w 8 || bitsOf w 7 4 != 0 || bitOf w 1 || bitOf w 2
    let m := if any then m.calStop else m
    let m := if bitOf w 8 then m.engineReset (bitsOf w 15 10) else m
    let m := [0, 1, 2, 3].foldl (fun m n => if bitOf w (4 + n) then m.laneReset n else m) m
    let m := if bitOf w 1 then m.portReset .A else m
    if bitOf w 2 then m.portReset .B else m

/-! ### Trips and the power-fail sequence -/

/-- Steps 2 to 4 of Table 02-8 with an event: launching stops, in-flight records are flushed, the journal closes. The marker that step 4 writes is
answered. -/
def Mach.failSequence (m : Mach) (cls n arg cause : Nat) : Mach × Marker :=
  let m := (m.dropCommit.stopAll).modPwr fun x => { x with drain := none }
  let m := (m.emit cls n 0 arg).flush
  (m, m.marker cause)

/-- A trip (R28, R98): the sequence, then every present controller puts its DIMMs into self-refresh, and the core is held in reset. -/
def Mach.trip (m : Mach) (cls n arg cause : Nat) (hold : Hold) : Mach × Option Marker :=
  if !m.alive then (m.modPwr fun x => { x with phase := .held, holds := holdMore x.holds hold }, none)
  else
    let (m, k) := m.failSequence cls n arg cause
    let m := (m.keepAll.srEnterAll).coreDown
    let m := m.put F.SYS_STATE_MODE (if hold = .thermal then 5 else 0)
    (m.modPwr fun x => { x with phase := .held, holds := holdMore x.holds hold }, some k)

/-- DIE_TEMP_SAMPLE (R28, R165, R406, R431): in NAP and SLEEP the HKC pauses; else THERM_WARN at 100 °C, THERM_OK below 97 °C, a thermal trip at 108 °C. -/
def Mach.dieSample (m : Mach) (c0 c1 c2 : HkcConv) : Mach × Option Marker :=
  if !m.alive then ({ m with pwr := { m.pwr with dieMk := m.dieOf c0 c1 c2 } }, none)
  else if 3 ≤ m.get F.SYS_PWR_STATE_PSTATE then (m, none)
  else
    let m := m.hkcDie c0 c1 c2
    let t := m.pwr.dieMk
    let m := m.calTempAt t
    let m := if 373150 ≤ t ∧ !m.pwr.thermWarn then (m.modPwr fun x => { x with thermWarn := true }).emit 1 0 0 0
             else if t < 370150 ∧ m.pwr.thermWarn then (m.modPwr fun x => { x with thermWarn := false }).emit 1 1 0 0
             else m
    if 381150 ≤ t then m.trip 1 2 0 0x0102 .thermal else (m, none)

/-- THERMAL_RESTART (R28): the die is below 95 °C; a warm-class reset with CAUSE 5. -/
def Mach.thermalRestart (m : Mach) : Mach :=
  if m.pwr.holds.contains .thermal && decide (m.pwr.dieMk < 368150) then (m.release .thermal).restart 5 else m

/-- CRYSTAL_FAIL (R98): the active crystal fails and the standby one takes over. With no good standby the row is BOTH_CRYSTALS_FAIL's. When a failed crystal is
OK again is open: here from the next power-on or XO_FAIL_RESTART on (DESIGN CHOICE, log entry 82). -/
def Mach.crystalFail (m : Mach) : Mach :=
  let a := m.on F.CLK_XO_STATUS_ACTIVE
  let (own, other) := if a then (F.CLK_XO_STATUS_XO1_OK, F.CLK_XO_STATUS_XO0_OK) else (F.CLK_XO_STATUS_XO0_OK, F.CLK_XO_STATUS_XO1_OK)
  if !m.pwr.supply || !m.on own || !m.on other then m
  else (m.put own 0).switchCrystal

/-- STANDBY_CRYSTAL_FAIL (R98 boundary). -/
def Mach.standbyFail (m : Mach) : Mach :=
  let a := m.on F.CLK_XO_STATUS_ACTIVE
  let other := if a then F.CLK_XO_STATUS_XO0_OK else F.CLK_XO_STATUS_XO1_OK
  if !m.pwr.supply || !m.on other then m else (m.put other 0).emit 5 1 0 (evArg (bit !a) 0 0)

/-- BOTH_CRYSTALS_FAIL (R98 boundary): the PLL holds while the module carries out steps 2 to 4 with XO_FAIL, then holds the core in reset. -/
def Mach.bothFail (m : Mach) : Mach × Option Marker :=
  if !m.pwr.supply || m.pwr.holds.contains .crystals then (m, none)
  else
    let m := ((m.put F.CLK_XO_STATUS_XO0_OK 0).put F.CLK_XO_STATUS_XO1_OK 0).put F.CLK_XO_STATUS_PLL_HOLD 1
    m.trip 5 1 0 0x0501 .crystals

/-- XO_FAIL_RESTART (R98 boundary): a crystal has been good for 100 ms; a warm-class reset with CAUSE 6 on a good crystal, XO0 when both are good. -/
def Mach.xoRestart (m : Mach) (good0 good1 : Bool) : Mach :=
  if !m.pwr.holds.contains .crystals || (!good0 && !good1) then m
  else
    let m := (((m.release .crystals).putB F.CLK_XO_STATUS_XO0_OK good0).putB F.CLK_XO_STATUS_XO1_OK good1).put F.CLK_XO_STATUS_PLL_HOLD 0
    let keep := if m.on F.CLK_XO_STATUS_ACTIVE then good1 else good0
    (if keep then m else m.switchCrystal).restart 6

/-! ### Selecting a power state -/

/-- The next whole multiple of a period after now, ns. -/
def Mach.nextMultiple (m : Mach) (period : Nat) : Nat := (m.now / period + 1) * period

/-- The device time of the next shot instant. -/
def Mach.nextShot (m : Mach) : Option Nat := m.shotNext.map fun e => m.now + devStep m.trim (e - m.count) / 2 ^ 32

/-- The scheduled events of R434, device times; the first launch after a port reset among them (R428). -/
def Mach.scheduled (m : Mach) : List Nat :=
  let ports := [Port.A, Port.B]
  let first := ports.filterMap fun p => m.firstAt p
  let reset := ports.filterMap fun p => match (m.acqOf p).resetWrite, m.pwr.lightAt with
    | some t, some _ => if m.on (F.ESC_CTRL_RUN (portIx p)) then some (ceilDiv (t + 2000000) 1000000 * 1000000 + 10000) else none
    | _, _ => none
  let settle := ports.filterMap fun p => if m.on (F.ESC_SW_STATUS_SETTLING (portIx p)) then some (m.ramanOf p).settleEnd else none
  let idle := ports.filterMap fun p => if (m.ramanOf p).idle then some (m.ramanOf p).idleEnd else none
  let bias := ports.filterMap fun p => if m.biasSettling p then some (m.ramanOf p).biasEnd else none
  let shot := if ports.any m.inFrame then m.nextShot.toList else []
  let hk := slotNos.flatMap fun s => if m.producing s then
      ((m.slot s).streams.filter fun t => t.typ == 7 && t.opts != 0).map fun t => m.nextMultiple (t.opts * 1000000) else []
  let att := [m.pwr.tS + ((m.now - m.pwr.tS) / 3600000000000 + 1) * 3600000000000]
  let pps := if m.ppsRuns then [m.now + devStep m.trim m.ppsWait / 2 ^ 32] else []
  first ++ reset ++ settle ++ idle ++ bias ++ shot ++ hk ++ att ++ pps

/-- The conditions of Table 18-6 for DOZE, NAP and SLEEP. -/
def Mach.mayDoze (m : Mach) : Bool :=
  !m.running .A && !m.running .B && !m.on F.ADC_RAW_STATUS_BUSY && !m.calBusy && m.caps.isEmpty

/-- NAP (Table 18-6): no record waits for an OPEN slot, and no RDREG is in flight. -/
def Mach.mayNap (m : Mach) : Bool :=
  m.mayDoze && (slotNos.all fun s => !m.isOpen s || ((m.slot s).journal.isEmpty && m.recs.ready.all fun d => (m.slot s).streams.all fun t => !m.wants s t d)) &&
  (m.train.jewels.all fun e => e.2.rdreg.isNone) && m.get F.CFG_COMMIT_STATUS_STATE == 0 &&
  !m.on (F.MC_STATUS_MIGRATING 0) && !m.on (F.MC_STATUS_MIGRATING 1) && !m.on F.MC_RSV_STATUS_RESYNC &&
  m.get F.NET_FWD_CTRL_EN == 0 && m.get F.PTP_TC_CTRL_MODE == 0 &&
  ([0, 1, 2, 3].all fun n => m.get (F.NET_PORT_STATUS_STATE n) != 1 && m.get (F.NET_PORT_STATUS_STATE n) != 5)

/-- SLEEP (Table 18-6). -/
def Mach.maySleep (m : Mach) : Bool :=
  m.mayNap && (slotNos.all fun s => !m.isOpen s) && settingsOf m.regs.act == m.regs.shd

/-- The wake latency of a state, ns (Table 18-4). -/
def wakeNs (st : Nat) : Nat := match st with | 2 => 5000 | 3 => 30000 | _ => 8000000

/-- POWER_STATE_SELECT (R434, R435): the deepest state that its conditions and the time to the next event permit; 0 for RUN. -/
def Mach.selectState (m : Mach) (next : Nat) : Nat :=
  let deepest := m.tab (policyBase + 2) 1
  let margin := m.tab (policyBase + 4) 4 * 1000
  let sleepMin := m.tab (policyBase + 8) 4 * 1000000
  let tNext := next - m.now
  let fits (st : Nat) : Bool := decide (st ≤ deepest) && decide (wakeNs st + margin ≤ tNext)
  let held := decide (m.now < m.pwr.wakeHold)
  if fits 4 && m.maySleep && decide (sleepMin ≤ tNext) && !held then 4
  else if fits 3 && m.mayNap && !held then 3
  else if fits 2 && m.mayDoze then 2
  else 0

/-- A lane in SLEEP (Table 18-3): OFF, with its equaliser, PRBS and statistics registers at their reset values. -/
def Mach.laneSleep (m : Mach) (n : Nat) : Mach :=
  let m := (m.laneEnter n 0).pcsReset n
  let lo := (F.NET_TX_EQ_NOW_SWING n).addr
  let hi := (F.NET_PRBS_ERR_COUNT n).addr
  { m with regs := { m.regs with act := mapKeep (fun k => !(decide (32 * lo ≤ k) && decide (k < 32 * (hi + 4)))) m.regs.act } }

/-- Enter NAP or SLEEP (R336, R435, Table 18-3): DIMMs in self-refresh, interval units marked SLEPT, a LOCKED Regulator in HOLDOVER; SLEEP also takes the core
and the lanes down, and the power-fail marker is formed beforehand (R436). -/
def Mach.enterLow (m : Mach) (st : Nat) : Mach :=
  let k := m.marker 0
  let m := (m.srEnterAll.iuSlept).modPwr fun x => { x with marker := if st = 4 then some k else none }
  let m := if m.get F.CLK_REG_STATUS_STATE = 2 then m.enterHoldover
           else m.modReg fun r => { r with off := none, edge0 := none, edges := 0, edge := none }
  if st = 3 then m
  else
    let m := [0, 1, 2, 3].foldl (fun m n => m.laneSleep n) m
    let m := ((m.put (F.NET_FWD_DROP_FULL 0) 0).put (F.NET_FWD_DROP_DOWN 0) 0).put (F.NET_FWD_DROP_FULL 1) 0 |>.put (F.NET_FWD_DROP_DOWN 1) 0
    let m := (((m.clearChannels .A).clearChannels .B).pipeClear .A).pipeClear .B
    let m := (m.modFrame .A fun _ => {}).modFrame .B fun _ => {}
    let m := (List.range 32).foldl (fun m c => ((((m.put (F.HKC_VAL c) 0).put (F.HKC_RAW_VALID c) 0).put (F.HKC_RAW_BREAK c) 0).put (F.HKC_RAW_INJ c) 0).put
      (F.HKC_RAW_OVR c) 0 |>.put (F.HKC_RAW_CODE c) 0) m
    let m := { m with
      hkc := {}, cfe := ⟨{}, {}⟩, codec := {}
      train := { m.train with ready := ⟨[], []⟩, jewels := [], arrival := [], order := ⟨[], []⟩, results := [] } }
    (m.syncTrain.syncPool).syncDts

/-- The entry into NAP or SLEEP that has begun completes: the entry commands are issued (R336). Where the conditions of Table 18-6 hold no more it is given up. -/
def Mach.lowEntry (m : Mach) : Mach :=
  match m.pwr.entering with
  | none => m
  | some s =>
    let m := m.modPwr fun x => { x with entering := none }
    if (if s = 4 then m.maySleep else m.mayNap) then (m.put F.SYS_PWR_STATE_PSTATE s).enterLow s
    else ((m.srGiveUp 0).srGiveUp 1).modPwr fun x => { x with wakeAt := none }

/-- The selection at a module boundary (R434). In NAP and SLEEP nothing selects until the module wakes; the entry into them begins here, and a request to the
DRAM may yet meet it (R337). -/
def Mach.powerSelect (m : Mach) : Mach :=
  let st := m.get F.SYS_PWR_STATE_PSTATE
  if m.pwr.phase != .running || decide (3 ≤ st) then m
  else
    let next := match m.scheduled with | [] => m.now | t :: r => r.foldl min t
    let s := m.selectState next
    if s = 0 then (if st = 2 then (m.put F.SYS_PWR_STATE_PSTATE 0).modPwr fun x => { x with wakeAt := none } else m)
    else
      let wakeAt := next - wakeNs s - m.tab (policyBase + 4) 4 * 1000
      let m := m.modPwr fun x => { x with wakeAt := some wakeAt }
      if s = 2 then m.put F.SYS_PWR_STATE_PSTATE 2
      else ((m.srBegin 0).srBegin 1).modPwr fun x => { x with entering := some s }

/-! ### Waking -/

/-- What a wake from SLEEP restores (R430, Table 18-3): the configuration from the RET copy, pool engines from the master copy, lanes. -/
def Mach.restoreRet (m : Mach) : Mach :=
  let b := (settingsOf m.regs.ret).foldl (fun b e => mapPut 0 b e.1 e.2) (m.regs.act.filter fun e => (domainOf e.1).isNone)
  let m := { m with regs := { m.regs with act := b } }
  let mm := m
  let js := (engineNos.filter fun e => bitOf mm.pool e).map fun e => (e, ({ imem := mm.train.mImem, x := mm.train.mCx, y := mm.train.mCy } : Jewel))
  let m := { m with train := { m.train with jewels := js } }
  [0, 1, 2, 3].foldl (fun m n => m.laneStart n) m

/-- A wake from NAP or SLEEP (R109, R336, R435): device time and the coarse count are realigned, DIMMs leave self-refresh, a Regulator in HOLDOVER takes its
source again; the HKC's first slots convert die temperature, and its cadence restarts from them. From SLEEP the core is restored, or the module takes a warm-class reset with CAUSE 8 when the copy's CRC fails (R430). -/
def Mach.wake (m : Mach) (retOk : Bool) : Mach :=
  let st := m.get F.SYS_PWR_STATE_PSTATE
  let m := (m.put F.SYS_PWR_STATE_PSTATE 0).modPwr fun x => { x with wakeAt := none, waking := none }
  if st ≤ 2 then m
  else
    let m := ((m.realign).modPwr fun x => { x with marker := none }).modHkc fun h => { h with scanAt := none, dieAt := none, first := true }
    if st = 4 && !retOk then (m.keepAll).restart 8
    else
      let m := m.srExitAll
      let m := if st = 4 then m.restoreRet else m
      if m.get F.CLK_REG_STATUS_STATE = 3 then
        match m.regSources.find? m.qualified with
        | some s => m.takeSource s
        | none => m
      else m

/-- SCHEDULED_WAKE (R434): the wake starts at its time and takes the state's wake latency (Table 18-4). -/
def Mach.scheduledWake (m : Mach) (retOk : Bool) : Mach :=
  let m := m.lowEntry
  match m.pwr.wakeAt with
  | none => m
  | some t => if m.get F.SYS_PWR_STATE_PSTATE < 2 then m else (m.reachNs (t + wakeNs (m.get F.SYS_PWR_STATE_PSTATE))).wake retOk

/-- HOLD_MS of the power policy table (Table 18-5), ns. -/
def Mach.holdNs (m : Mach) : Nat := m.tab (policyBase + 12) 2 * 1000000

/-- UNSCHEDULED_WAKE (R435): once the wake latency has passed since the frame that began it. -/
def Mach.unscheduledWake (m : Mach) (retOk : Bool) : Mach :=
  let m := m.lowEntry
  if m.get F.SYS_PWR_STATE_PSTATE < 3 then m
  else
    let m := (m.reachNs (m.pwr.waking.getD m.now + wakeNs (m.get F.SYS_PWR_STATE_PSTATE))).wake retOk
    let stop := m.now + m.holdNs
    if m.alive then m.modPwr fun x => { x with wakeHold := stop } else m

/-- FRAME_RECEIVE (R359, R435): in NAP a frame that an UP lane accepts wakes the module, and is taken once it has woken. -/
def Mach.frameReceive (m : Mach) (n : Nat) (f : Frame) : Mach :=
  let st := m.lowEntry.get F.SYS_PWR_STATE_PSTATE
  if st < 3 then m.frameIn n f
  else if st == 3 && m.laneUp n && m.accepts n (codedFrame f (m.on (F.NET_PORT_CTRL_FEC n))) then (m.unscheduledWake true).frameIn n f
  else m.lowEntry

/-- POWER_FAIL_WARNING (R35, R43, R436): PFAIL_N falls; a module in NAP wakes; steps 2 to 4 of Table 02-8. In SLEEP the always-on domain writes the marker
of the entry alone. A core that is held or waits for its start has no sequence to run. -/
def Mach.powerFail (m : Mach) : Mach × Option Marker :=
  if !m.pwr.supply then (m, none)
  else
    let m := (m.put F.SYS_POWER_PFAIL 1).syncPermit
    if !m.alive then (m, none)
    else
      let m := ((m.srGiveUp 0).srGiveUp 1).modPwr fun x => { x with entering := none }
      let st := m.get F.SYS_PWR_STATE_PSTATE
      let hold (m : Mach) : Mach := (m.put F.SYS_STATE_MODE 4).modPwr fun x => { x with phase := .held, holds := holdMore x.holds .powerFail }
      if st = 4 then (hold m, m.pwr.marker)
      else
        let m := if st = 3 then m.wake true else m
        let (m, k) := ((m.cutDrive .A).cutDrive .B).failSequence 0 0 0 0
        (hold m, some k)

/-- PF_RECOVER_RESTART (R35 boundary): VBULK has stayed at or above 36.0 V for 100 ms after the sequence; a warm-class reset with CAUSE 7. -/
def Mach.pfRecover (m : Mach) : Mach :=
  if m.pwr.holds.contains .powerFail && !m.on F.SYS_POWER_PFAIL then ((m.release .powerFail).keepAll.srEnterAll).restart 7 else m

end Sys2Proof.Machine
end

