-- ==== Sys2Proof/Machine/Bus.lean ====
section
/-!
DEFINITION. Machine/Bus.lean: the register bus (chapter 04): masters and privilege (R69 to R72), what answers (R75, R76), access codes (R77, R78),
address decoding (R80), bit aliases (R81, R82), latching registers (R91, R92), and the management SPI (R83 to R88).
-/
namespace Sys2Proof.Machine

/-- Who makes an access: its class of Table 04-1, whether it is secure, VIEW, and the engine for class 3. -/
structure BusAccess where
  cls    : Nat
  secure : Bool
  view   : Bool
  engine : Nat := 0
deriving DecidableEq, Repr

/-- The access of a master (R69, R70). -/
def Mach.accessOf (m : Mach) (who : Master) (view : Bool) : BusAccess :=
  match who with
  | .supervisor => ⟨0, true, view, 0⟩
  | .spi => ⟨1, true, view, 0⟩
  | .session s => ⟨2, decide (s < 64) && m.isOpen s && m.on (F.REC_SESS_STATE_SECURE s), view, 0⟩
  | .jewel e => ⟨3, false, view, e⟩

/-! ### Decoding -/

/-- What an address reaches (Table 04-3, Table 04-4). A register is named by its lowest appearance. -/
inductive Target where
  | reg (a : Nat)
  | jewelData (e : Nat) (y : Bool) (off : Nat)
  | jewelCode (e off : Nat)
  | table (a : Nat)
  | alias_ (b n : Nat)
  | unmapped
deriving DecidableEq, Repr

/-- The target of a byte address (R80, R81). -/
def targetOf (addr : Nat) : Target :=
  let a := addr / 4 * 4
  if a < 0x400000 then (if lowest a / 0x10000 ≤ 20 then .reg (lowest a) else .unmapped)
  else if a < 0x800000 then .jewelData (a / 0x10000 - 0x40) (decide (0x8000 ≤ a % 0x10000)) (a % 0x8000)
  else if a < 0x900000 then .jewelCode ((a - 0x800000) / 0x4000) (a % 0x4000)
  else if a < 0xC00000 then .unmapped
  else if a < 0x1000000 then .table a
  else if a < 0x2000000 then .alias_ ((a % 0x800000) / 128 * 4) (a / 4 % 32)
  else .unmapped

/-! ### Words of registers -/

/-- A field of the map as a named field. -/
def fieldAt (a : Nat) (f : FieldSpec) : Fld := ⟨a, f.msb, f.lsb⟩

/-- The bits of a field within a register. -/
def FieldSpec.mask (f : FieldSpec) : Nat := (2 ^ (f.msb - f.lsb + 1) - 1) * 2 ^ f.lsb

/-- The index of an address in an array of registers. -/
def indexIn (a base stride count : Nat) : Option Nat :=
  if base ≤ a ∧ (a - base) % stride = 0 ∧ (a - base) / stride < count then some ((a - base) / stride) else none

/-- The latch of a low register that a class holds (R91, R92). -/
def Mach.latchOf (m : Mach) (x : BusAccess) (low : Nat) : Nat :=
  match x.cls with
  | 0 => mapGet 0 m.latch.sup low
  | 1 => mapGet 0 m.latch.spi low
  | 2 => mapGet 0 m.latch.net low
  | _ => (m.jewel x.engine).devLatch

/-- Load the latch of a low register for a class. -/
def Mach.putLatch (m : Mach) (x : BusAccess) (low v : Nat) : Mach :=
  match x.cls with
  | 0 => { m with latch := { m.latch with sup := mapPut 0 m.latch.sup low v } }
  | 1 => { m with latch := { m.latch with spi := mapPut 0 m.latch.spi low v } }
  | 2 => { m with latch := { m.latch with net := mapPut 0 m.latch.net low v } }
  | _ => m.modJewel x.engine fun j => { j with devLatch := v }

/-- The time of a domain clock: seconds, nanoseconds and the 16-bit fraction. -/
def Mach.domNow (m : Mach) (d : Nat) : Nat × Nat × Nat := domParts (m.clk.doms.getD d {}).t

/-- The oldest stamp of a TIS input. -/
def Mach.oldestStamp (m : Mach) (i : Nat) : Stamp := (mapGet {} m.tis.inputs i).fifo.headD ⟨0, 0, false⟩

/-- The register bits that a read of a latching register latches (R92). -/
def Mach.latched (m : Mach) (a : Nat) : Option Nat :=
  if a = F.SYS_DEVTIME_LO_DEVTIME.addr then some (m.now / 2 ^ 32)
  else if a = F.TIS_COARSE_LO_COARSE.addr then some (m.clk.coarse / 2 ^ 32)
  else match indexIn a (F.CLK_DOM_NS_NS 0).addr 0x20 4 with
  | some d => some ((m.domNow d).1 * 2 ^ 16 + (m.domNow d).2.2)
  | none => match indexIn a (F.TIS_IU_RES_LO_RES 0).addr 0x20 4 with
  | some u => some (m.get (F.TIS_IU_RES_HI_RES u))
  | none => match indexIn a (F.TIS_FU_FREQ_LO_FREQ 0).addr 0x20 2 with
  | some f => some (m.get (F.TIS_FU_FREQ_HI_FREQ f))
  | none => match indexIn a (F.ESC_BEAT_LO_BEAT 0).addr 0x8000 2 with
  | some p => some (m.get (F.ESC_BEAT_HI_BEAT p))
  | none => match indexIn a (F.CHR_MISS_T_LO_TIME 0).addr 8 32 with
  | some c => some ((mapGet {} m.chans c).missT / 2 ^ 32)
  | none => match indexIn a (F.CODEC_IN_BYTES_BYTES 0).addr 0x40 2 with
  | some p => some (m.codec.outBytes.ix p)
  | none => none

/-- The low register and the bits of a register that is read from a latch (R92). -/
def latchedBy (a : Nat) : Option (Nat × Nat × Nat) :=
  if a = F.SYS_DEVTIME_HI_DEVTIME.addr ∨ a = F.TIS_COARSE_HI_COARSE.addr then some (a - 4, 0, 2 ^ 32)
  else match indexIn a (F.CLK_DOM_SEC_LO_SEC 0).addr 0x20 4 with
  | some _ => some (a - 4, 16, 2 ^ 32)
  | none => match indexIn a (F.CLK_DOM_SEC_HI_SEC 0).addr 0x20 4 with
  | some _ => some (a - 8, 48, 2 ^ 16)
  | none => match indexIn a (F.CLK_DOM_FRAC_FRAC 0).addr 0x20 4 with
  | some _ => some (a - 12, 0, 2 ^ 16)
  | none => match indexIn a (F.TIS_IU_RES_HI_RES 0).addr 0x20 4 with
  | some _ => some (a - 4, 0, 2 ^ 32)
  | none => match indexIn a (F.TIS_FU_FREQ_HI_FREQ 0).addr 0x20 2 with
  | some _ => some (a - 4, 0, 2 ^ 32)
  | none => match indexIn a (F.ESC_BEAT_HI_BEAT 0).addr 0x8000 2 with
  | some _ => some (a - 4, 0, 2 ^ 32)
  | none => match indexIn a (F.CHR_MISS_T_HI_TIME 0).addr 8 32 with
  | some _ => some (a - 4, 0, 2 ^ 32)
  | none => match indexIn a (F.CODEC_OUT_BYTES_BYTES 0).addr 0x40 2 with
  | some _ => some (a - 4, 0, 2 ^ 32)
  | none => none

/-- A field that the state holds elsewhere than in the register bank: time, stamps, the event log, the figure of the codec. -/
def Mach.elsewhere (m : Mach) (a lsb : Nat) : Option Nat :=
  if a = F.SYS_DEVTIME_LO_DEVTIME.addr then some m.now
  else if a = F.TIS_COARSE_LO_COARSE.addr then some m.clk.coarse
  else if a = F.EVT_LOG_COUNT_COUNT.addr then (if lsb = 0 then some m.evt.log.length else none)
  else if 0x20040 ≤ a ∧ a < 0x20050 then
    match m.evt.log.head? with
    | none => some 0
    | some e => some (
      if a = F.EVT_LOG_CODE_CODE.addr then (if lsb = 0 then e.code else if lsb = 16 then e.cls else e.port)
      else if a = F.EVT_LOG_TIME_LO_TIME.addr then e.time
      else if a = F.EVT_LOG_TIME_HI_TIME.addr then e.time / 2 ^ 32
      else e.arg)
  else if a = F.CAL_STATUS_USER_ACTIVE.addr ∧ lsb = 8 then some (m.get F.CAL_USER_SEL_EN)
  else if a = F.CODEC_LOAD_MEVAL.addr then some (m.codecDemand / (1000000 : Rat)).floor.toNat
  else match indexIn a (F.CLK_DOM_NS_NS 0).addr 0x20 4 with
  | some d => some (m.domNow d).2.1
  | none => match indexIn a (F.TIS_STAMP_LO_COARSE 0).addr 0x10 8 with
  | some i => some (m.oldestStamp i).coarse
  | none => match indexIn a (F.TIS_STAMP_HI_COARSE 0).addr 0x10 8 with
  | some i => some (
      if lsb = 31 then bit (m.oldestStamp i).ovf
      else if lsb = 26 then (mapGet {} m.tis.inputs i).fifo.length
      else if lsb = 16 then (m.oldestStamp i).fine
      else (m.oldestStamp i).coarse / 2 ^ 32)
  | none => match indexIn a (F.CHR_MISS_T_LO_TIME 0).addr 8 32 with
  | some c => some (mapGet {} m.chans c).missT
  | none => none

/-- The value that a read returns for a field (Table 00-4, R77). -/
def Mach.fieldValue (m : Mach) (x : BusAccess) (a : Nat) (f : FieldSpec) : Nat :=
  match f.acc with
  | .wo => 0
  | .rws => if x.view then m.get (fieldAt a f) else m.shadow (fieldAt a f)
  | _ =>
    match latchedBy a with
    | some (low, sh, n) => m.latchOf x low / 2 ^ sh % n
    | none => (m.elsewhere a f.lsb).getD (m.get (fieldAt a f)) % 2 ^ (f.msb - f.lsb + 1)

/-- The word that a read of a register returns. -/
def Mach.regWord (m : Mach) (x : BusAccess) (r : RegRow) (a : Nat) : Nat := sumNat (r.fields.map fun f => m.fieldValue x a f * 2 ^ f.lsb)

/-- The word of a register as the supervisor reads its active copy. -/
def Mach.word (m : Mach) (a : Nat) : Nat :=
  match findRow a with
  | some r => m.regWord ⟨0, true, true, 0⟩ r a
  | none => 0

/-- Before a read of PWR_STATE, PSTATE follows the gating of slices, which begins and ends between commands (R187, R431). -/
def Mach.readSync (m : Mach) (a : Nat) : Mach := if a == F.SYS_PWR_STATE_PSTATE.addr then m.syncIdle else m

/-- A read of the bits `mask` of a register (R78): RC bits that are returned are cleared, a latching register loads its latch, and IN_BYTES clears
OUT_BYTES with itself (Table 13-6). -/
def Mach.regRead (m : Mach) (x : BusAccess) (r : RegRow) (a mask : Nat) : Mach × Nat :=
  let m := m.readSync a
  let w := m.regWord x r a &&& mask
  let m' := match m.latched a with | some v => m.putLatch x a v | none => m
  let m' := match indexIn a (F.CODEC_IN_BYTES_BYTES 0).addr 0x40 2 with
    | some p => { m' with codec := { m'.codec with outBytes := m'.codec.outBytes.putIx p 0 } }
    | none => m'
  let clear (m : Mach) (f : FieldSpec) : Mach :=
    if f.acc = .rc then
      let v := m.get (fieldAt a f) % 2 ^ (f.msb - f.lsb + 1)
      m.put (fieldAt a f) (v - (v &&& (mask / 2 ^ f.lsb)))
    else m
  (r.fields.foldl clear m', w)

/-! ### Writing -/

/-- What a freeze finds when the write that asks for it brings no log: free values (log entry 2). -/
def Mach.openLog (m : Mach) : FreezeLog × Mach :=
  let k := m.free
  let v (i : Nat) : Word := BitVec.ofNat 32 (Config.openValue (k + i))
  (⟨(List.range 32).map v, v 32, [v 33, v 34, v 35, v 36], v 37⟩, { m with free := k + 38 })

/-- Whether a write of the bits `mask` acts on a register (R81, Table 04-5): always for a whole word; through a bit alias, on a bit that takes the written value,
and with a 1 on a bit that a 1 sets, clears or triggers; never on a read-only or reserved bit. -/
def RegRow.acts (r : RegRow) (mask w : Nat) : Bool :=
  mask == 2 ^ 32 - 1 || r.fields.any fun f => f.mask &&& mask != 0 &&
    (match f.acc with
     | .ro | .rc => false
     | .wo | .w1s | .w1c => w &&& mask != 0
     | .rw | .rwi | .rws => true)

/-- Count an access error (R75, R76, R90): ACC_ERR is issued when the counter was clear. -/
def Mach.accErr (m : Mach) (x : BusAccess) (addr : Nat) (write : Bool) : Mach :=
  let first := m.get F.SYS_ACC_ERR_CNT_COUNT == 0
  let m := (((m.bump F.SYS_ACC_ERR_CNT_COUNT).put F.SYS_ACC_ERR_LAST_WRITE (bit write)).put F.SYS_ACC_ERR_LAST_CLASS x.cls).put F.SYS_ACC_ERR_LAST_ADDR addr
  if first then m.emit 4 1 0 0 else m

/-- Count a violation (R71): VIOLATION is issued when the counter was clear. -/
def Mach.violation (m : Mach) (x : BusAccess) (addr : Nat) (write : Bool) : Mach :=
  let first := m.get F.SYS_VIOL_CNT_COUNT == 0
  let m := (((m.bump F.SYS_VIOL_CNT_COUNT).put F.SYS_VIOL_LAST_WRITE (bit write)).put F.SYS_VIOL_LAST_CLASS x.cls).put F.SYS_VIOL_LAST_ADDR addr
  if first then m.emit 4 0 0 0 else m

/-- Registers whose fields change through their own operation alone. -/
def ownsFields (a : Nat) : Bool :=
  (indexIn a (F.ESC_TRIP_TRIPPED 0).addr 0x8000 2).isSome || (indexIn a (F.AFE_APD_STATUS_LIMIT 0).addr 0x10 4).isSome ||
  (indexIn a (F.NET_PRBS_CTRL_GEN_EN 0).addr 0x400 4).isSome

/-- Whether a write of a register's field has no effect at present: DOM_RATE takes host writes only with its domain's servo in MANUAL (Table 05-7). -/
def Mach.locked (m : Mach) (a : Nat) : Bool :=
  match indexIn a (F.CLK_DOM_RATE_RATE 0).addr 0x20 4 with
  | some d => m.ocState d != 4
  | none => false

/-- A written field (Table 00-4, R9, R10): a reserved encoding in an RWI field is ignored. -/
def Mach.writeField (m : Mach) (a mask w : Nat) (f : FieldSpec) : Mach :=
  let g := fieldAt a f
  let fm := mask / 2 ^ f.lsb % 2 ^ g.width
  let v := w / 2 ^ f.lsb % 2 ^ g.width
  let mix (old : Nat) : Nat := old % 2 ^ g.width - (old % 2 ^ g.width &&& fm) + (v &&& fm)
  if fm = 0 || m.locked a then m
  else match f.acc with
  | .rw => m.put g (mix (m.get g))
  | .rwi => if okVal f.ok (mix (m.get g)) then m.put g (mix (m.get g)) else m
  | .rws => { m with regs := { m.regs with shd := mapPut 0 m.regs.shd g.key (mix (m.shadow g)) } }
  | .w1c => m.put g (m.get g - (m.get g &&& (v &&& fm)))
  | _ => m

/-- What a write does beside its fields: the side effects of WO, W1S and of the registers that own theirs. `w` holds the written bits, zero elsewhere; `full`
the word with the bits that the write leaves. -/
def Mach.writeActs (m : Mach) (x : BusAccess) (a w full : Nat) (log : FreezeLog) : Mach :=
  if a = F.SYS_RESET_KEY.addr then m.resetWrite w
  else if a = F.CFG_COMMIT_MASK.addr then (if w % 32 = 0 then m else m.commitStart x.cls (w % 32))
  else if a = F.CFG_ABORT.addr then m.abortWrite w
  else if a = F.EVT_PEND.addr then m.driveLevels
  else if a = F.EVT_LOG_POP_POP.addr then (if bitOf w 0 then { m with evt := { m.evt with log := m.evt.log.drop 1 } } else m)
  else if a = F.CLK_XO_CTRL_RETURN.addr then (if bitOf w 0 then m.xoReturn else m)
  else if a = F.CLK_AGE_CLEAR_CLEAR.addr then (if bitOf w 0 then m.ageClear else m)
  else if a = F.HKC_INJ_REQ_CH.addr then m.injRequest (w % 32)
  else if a = F.ADC_SPARE_CTRL_KEY.addr then m.sliceRetireWrite w
  else if a = F.ADC_RAW_CTRL_GO.addr then (if bitOf w 0 then m.rawGo else m)
  else if a = F.TRAIN_RETIRE_KEY.addr then (if bitsOf w 31 16 = 0x5AFE ∧ bitOf w 6 then m.retire (w % 64) 0 else m)
  else if a = (F.CHR_ARM).addr then (List.range 32).foldl (fun m c => if bitOf w c then m.chanArm c else m) m
  else if a = F.CAL_CMD_KEY.addr then m.calCommand w
  else if a = F.CAL_ABORT_KEY.addr then m.calAbort w
  else match indexIn a (F.CLK_DOM_STEP_STEP 0).addr 0x20 4 with
  | some d => (m.domAdd d (signedOf 32 w)).ocHostStep d
  | none => match indexIn a (F.CLK_DOM_SET_SEC_SEC 0).addr 0x20 4 with
  | some d => (m.domSet d w).ocHostStep d
  | none => match indexIn a (F.TIS_POP 0).addr 0x10 8 with
  | some i => if bitOf w 0 then m.tisPop i else m
  | none => match indexIn a (F.TIS_IU_CTRL_ARM 0).addr 0x20 4 with
  | some u => if bitOf w 11 then m.iuArm u else m
  | none => match indexIn a (F.TIS_FU_CTRL_START 0).addr 0x20 2 with
  | some f => if bitOf w 21 then m.fuStart f else m
  | none => match indexIn a (F.ESC_INTLK_OVR_OVR 0).addr 0x8000 2 with
  | some p => (m.ovrWritten (ixPort p)).syncPermit
  | none => match indexIn a (F.ESC_TRIP_TRIPPED 0).addr 0x8000 2 with
  | some p => if bitOf w 0 then m.tripClear (ixPort p) else m
  | none => match indexIn a (F.AFE_APD_STATUS_LIMIT 0).addr 0x10 4 with
  | some o => if bitOf w 17 then m.apdLimitClear o else m
  | none => match indexIn a (F.MC_MIGRATE_KEY 0).addr 0x8000 2 with
  | some ch => m.migrateWrite ch w
  | none => match indexIn a (F.MC_FREEZE_KEY 0).addr 0x8000 2 with
  | some ch => m.freezeWrite ch w log
  | none => match indexIn a (F.NET_PRBS_CTRL_GEN_EN 0).addr 0x400 4 with
  | some n => m.prbsWrite n full
  | none => m

/-- A write of the bits `mask` of a register (R78, R81). -/
def Mach.regWrite (m : Mach) (x : BusAccess) (r : RegRow) (a mask w : Nat) (log : Option FreezeLog) : Mach :=
  let w := w &&& mask
  let old := m.regWord x r a
  let bad := r.fields.any fun f => f.acc == .rwi && !okVal f.ok ((w &&& f.mask) / 2 ^ f.lsb)
  let full := old - (old &&& mask) + w
  let m := if ownsFields a then m else r.fields.foldl (fun m f => m.writeField a mask w f) m
  if (indexIn a (F.MC_FREEZE_KEY 0).addr 0x8000 2).isSome then
    match log with
    | some l => m.writeActs x a w full l
    | none => (m.openLog.2).writeActs x a w full m.openLog.1
  else if (indexIn a (F.NET_PRBS_CTRL_GEN_EN 0).addr 0x400 4).isSome && bad then
    -- fields with a reserved encoding keep their value; the others are written
    let keep := r.fields.foldl (fun k f => if f.acc == .rwi && !okVal f.ok ((w &&& f.mask) / 2 ^ f.lsb) then k + (old &&& f.mask) else k + (full &&& f.mask)) 0
    m.writeActs x a w keep ⟨[], 0, [], 0⟩
  else m.writeActs x a w full ⟨[], 0, [], 0⟩

/-! ### What answers -/

/-- The registers of SYS, EVT and the always-on domain (R75, Table 18-3). -/
def alwaysOn (a : Nat) : Bool :=
  let blk := a / 0x10000
  blk == 0 || blk == 2 || blk == 3 || (aoReg a && a != 0xF0404) || a == F.CFG_EPOCH.addr || a == 0x40008 || a == 0x4000C

/-- Whether the part of the module that holds a register answers (R75): with the core in reset, in NAP and in SLEEP only SYS, EVT and the always-on registers
(the configuration epoch and the coarse count among them, Table 18-3; the Reserve's kept RSV_STATUS is in no row of it); an MC half only while its channel is in training or present, neither marked absent nor
frozen. -/
def Mach.answers (m : Mach) (a : Nat) : Bool :=
  let low := !m.alive || decide (3 ≤ m.get F.SYS_PWR_STATE_PSTATE)
  let mc := m.mcState (a % 0x10000 / 0x8000) == 1 || m.mcState (a % 0x10000 / 0x8000) == 2
  (!low || alwaysOn a) && (a / 0x10000 != 15 || mc)

/-- Whether the fabric's memories (tables, Jewel windows) answer. -/
def Mach.fabricUp (m : Mach) : Bool := m.alive && decide (m.get F.SYS_PWR_STATE_PSTATE < 3)

/-- Whether a register is guarded (R71): its row holds guarded fields, or it lies in SEC. -/
def guardedAt (a : Nat) : Bool :=
  a / 0x10000 == 20 || (match findRow (unifyMc a) with | some r => r.fields.any fun f => f.guarded | none => false)

/-- Whether an address is within a Jewel's reach (Table 04-1). -/
def jewelReach (addr : Nat) : Bool := decide (addr < 0x11000) || isTable addr

/-- A finished access: its data and error flag are the result of the bus. -/
def Mach.answer (m : Mach) (data : Nat) (err : Bool) : Mach := { m with bus := ⟨BitVec.ofNat 32 data, err⟩ }

/-- Read the bits `mask` of a register, after its guard, its presence and its map (R71, R75, R76). -/
def Mach.readAt (m : Mach) (x : BusAccess) (addr a mask shift : Nat) : Mach :=
  if guardedAt a && !x.secure then (m.violation x addr false).answer 0 false
  else
    match findRow (unifyMc a) with
    | none => (m.accErr x addr false).answer 0 true
    | some r =>
      if m.answers a then
        let (m, w) := m.regRead x r (unifyMc a) mask
        m.answer (w / 2 ^ shift) false
      else (m.accErr x addr false).answer 0 true

/-- Write the bits `mask` of a register; a write of SYS.RESET with a wrong KEY is an access error (R90). -/
def Mach.writeAt (m : Mach) (x : BusAccess) (addr a mask w : Nat) (log : Option FreezeLog) : Mach :=
  if guardedAt a && !x.secure then (m.violation x addr true).answer 0 false
  else
    match findRow (unifyMc a) with
    | none => (m.accErr x addr true).answer 0 true
    | some r =>
      if m.answers a then
        if !r.acts mask w then m.answer 0 false
        else if a == F.SYS_RESET_KEY.addr && bitsOf (w &&& mask) 31 16 != 0x5AFE then (m.accErr x addr true).answer 0 true
        else (m.regWrite x r (unifyMc a) mask w log).answer 0 false
      else (m.accErr x addr true).answer 0 true

/-- One read on the register bus (R69 to R82). The result is left in the bus's part of the state. -/
def Mach.busRead (m : Mach) (x : BusAccess) (addr : Nat) : Mach :=
  if !m.pwr.supply then m
  else if x.cls = 3 ∧ !jewelReach addr then (m.violation x addr false).answer 0 true
  else
    match targetOf addr with
    | .reg a => m.readAt x addr a (2 ^ 32 - 1) 0
    | .alias_ b n =>
      match targetOf b with
      | .reg a => m.readAt x addr a (2 ^ n) n
      | _ => (m.accErr x addr false).answer 0 true
    | .table a =>
      if m.fabricUp then
        m.answer (tableWord (if x.view || x.cls == 3 || !tableWritable a then m.regs.act else m.regs.shd) a) false
      else (m.accErr x addr false).answer 0 true
    | .jewelData e y off =>
      if m.fabricUp then m.answer ((m.jewel e).leAt y off 4) false else (m.accErr x addr false).answer 0 true
    | .jewelCode e off =>
      if m.fabricUp then m.answer (memLe 0 (m.jewel e).imem off 4) false else (m.accErr x addr false).answer 0 true
    | .unmapped => (m.accErr x addr false).answer 0 true

/-- Whether the bus may write an engine's program memories (R272): it is in no pool, that of a queued tile which may
still come to it among them, and holds no tile. -/
def Mach.loadable (m : Mach) (e : Nat) : Bool :=
  let j := m.jewel e
  !m.inPool e && j.run.isNone && j.next.isNone && j.wait.isEmpty &&
    !((m.train.arrival ++ m.train.jewels.flatMap fun x => x.2.wait).any fun t => bitOf t.pool e && !bitOf m.retired e)

/-- One write on the register bus. `log` is what a freeze finds, where the command brings it. -/
def Mach.busWriteLog (m : Mach) (x : BusAccess) (addr w : Nat) (log : Option FreezeLog) : Mach :=
  if !m.pwr.supply then m
  else if x.cls = 3 then (m.violation x addr true).answer 0 false
  else
    match targetOf addr with
    | .reg a => m.writeAt x addr a (2 ^ 32 - 1) w log
    | .alias_ b n =>
      match targetOf b with
      | .reg a => m.writeAt x addr a (2 ^ n) (w % 2 * 2 ^ n) log
      | _ => (m.accErr x addr true).answer 0 true
    | .table a =>
      if 0x0E00000 ≤ a ∧ a < 0x0E40000 ∧ !x.secure then (m.violation x addr true).answer 0 false
      else if m.fabricUp && tableWritable a then
        ({ m with regs := { m.regs with shd := mapPut 0 m.regs.shd (a * 32) (w % 2 ^ 32) } } : Mach).answer 0 false
      else (m.accErr x addr true).answer 0 true
    | .jewelData e y off =>
      if m.fabricUp && m.loadable e && decide (0x4000 ≤ off) && decide (off < 0x6000) then
        (m.modJewel e fun j => if y then { j with y := memStore 0 j.y off (leBytes 4 w) } else { j with x := memStore 0 j.x off (leBytes 4 w) }).answer 0 false
      else (m.accErr x addr true).answer 0 true
    | .jewelCode e off =>
      if m.fabricUp && m.loadable e then (m.modJewel e fun j => { j with imem := memStore 0 j.imem off (leBytes 4 w) }).answer 0 false
      else (m.accErr x addr true).answer 0 true
    | .unmapped => (m.accErr x addr true).answer 0 true

/-- One write on the register bus. -/
def Mach.busWrite (m : Mach) (x : BusAccess) (addr w : Nat) : Mach := m.busWriteLog x addr w none

/-- Whether a master's access is performed (R70): what a session has queued is discarded once the session has closed. -/
def Mach.heard (m : Mach) (who : Master) : Bool :=
  match who with
  | .session s => decide (s < 64) && m.isOpen s
  | _ => true

/-- A read by a master. -/
def Mach.readBy (m : Mach) (who : Master) (view : Bool) (addr : Nat) : Mach := if m.heard who then m.busRead (m.accessOf who view) addr else m

/-- A write by a master of a word, with what a freeze finds where the command brings it. -/
def Mach.writeLogBy (m : Mach) (who : Master) (view : Bool) (addr w : Nat) (log : Option FreezeLog) : Mach :=
  if m.heard who then m.busWriteLog (m.accessOf who view) addr w log else m

/-- A write by a master of a word. -/
def Mach.writeBy (m : Mach) (who : Master) (addr w : Nat) : Mach := m.writeLogBy who false addr w none

/-- RDREG_COMPLETE (R257): the Train bridge serves the waiting engines in ascending round-robin order; the destination takes the data, zero with BERR when
R72, R75 or R76 apply. -/
def Mach.rdregComplete (m : Mach) (e : Nat) : Mach :=
  let order := (List.range 64).map fun i => (m.train.bridge + 1 + i) % 64
  if (order.find? fun i => (m.jewel i).rdreg.isSome) != some e then m
  else
    match (m.jewel e).rdreg with
    | none => m
    | some (d, a) =>
      let m := (m.busRead ⟨3, false, false, e⟩ a).modJewel e fun j => { j with rdreg := none }
      let r := m.bus
      let m := { m with train := { m.train with bridge := e } }
      m.modJewel e fun j => ({ j with d := mapPut 0 j.d d r.data, berr := r.err }).advancePc

/-! ### The management SPI -/

/-- The fields of a command byte (Table 04-6). -/
def opOf (cmd : Byte) : Nat := bitsOf cmd.toNat 7 6

/-- Whether a frame is a protocol error (Table 04-7, R84, R85). -/
def protError (cmd : Byte) (addr : Word) : Bool :=
  let c := cmd.toNat
  let len := c % 16
  opOf cmd == 3 || (opOf cmd == 1 && bitOf c 5) || (opOf cmd == 2 && (bitOf c 5 || bitOf c 4 || len != 0)) ||
  (decide (opOf cmd < 2) && (addr.toNat / 2 ^ 25 != 0 || addr.toNat % 4 != 0 || (bitOf c 4 && decide (0x1FFFFFC < addr.toNat + 4 * len))))

/-- The address of word `i` of a frame. -/
def frameAddr (cmd : Byte) (addr : Word) (i : Nat) : Nat := addr.toNat + (if bitOf cmd.toNat 4 then 4 * i else 0)

/-- Change the management port. -/
def Mach.modMgmt (m : Mach) (f : Mgmt → Mgmt) : Mach := { m with mgmt := f m.mgmt }

/-- READY with the result flags (Table 04-7). -/
def resultByte (err crcErr prot : Bool) : Byte := BitVec.ofNat 8 (128 + 64 * bit err + 32 * bit crcErr + 16 * bit prot)

/-- The words of a READ frame: their results, in order. -/
def spiReads (cmd : Byte) (addr : Word) : Nat → Nat → Mach → Mach × List BusResult
  | 0, _, m => (m, [])
  | n + 1, i, m =>
    let m := m.busRead ⟨1, true, bitOf cmd.toNat 5, 0⟩ (frameAddr cmd addr i)
    let r := m.bus
    let (m, l) := spiReads cmd addr n (i + 1) m
    (m, r :: l)

/-- What a READ frame drives for its words (R85): before each word the poll byte with that word's flags, then the word, most significant byte first. -/
def driven (l : List BusResult) : List Byte := l.flatMap fun r => resultByte r.err false false :: beBytes 4 r.data.toNat

/-- The words of a WRITE frame, in order; the first that ends with ERR ends it (R87). -/
def spiWrites (cmd : Byte) (addr : Word) : Nat → List Word → Mach → Mach × Bool
  | _, [], m => (m, false)
  | i, w :: t, m =>
    let m := m.busWrite ⟨1, true, false, 0⟩ (frameAddr cmd addr i) w.toNat
    if m.bus.err then (m, true) else spiWrites cmd addr (i + 1) t m

/-- What MGMT_SDO carries in the frame that ended last. -/
def Mach.drives (m : Mach) (l : List Byte) : Mach := m.modMgmt fun g => { g with sdo := l }

/-- Whether a frame's word addresses a register outside SYS, EVT and the always-on registers (R435). -/
def addressesCore (addr : Nat) : Bool :=
  match targetOf addr with
  | .reg a => !alwaysOn a
  | .alias_ b _ => (match targetOf b with | .reg a => !alwaysOn a | _ => false)
  | .unmapped => false
  | _ => true

/-- A management frame in NAP or SLEEP that addresses such a register begins a wake (R435). -/
def Mach.spiWakes (m : Mach) (cmd : Byte) (addr : Word) : Mach :=
  if 3 ≤ m.get F.SYS_PWR_STATE_PSTATE ∧ m.pwr.waking.isNone ∧ ((List.range (cmd.toNat % 16 + 1)).any fun i => addressesCore (frameAddr cmd addr i)) then
    let now := m.now
    m.modPwr fun x => { x with waking := some now }
  else m

/-- A frame that is a protocol error drives a poll byte with PROT, and no data (R85). -/
def Mach.protFrame (m : Mach) (result : Bool) : Mach :=
  m.modMgmt fun g => { g with result := if result then resultByte false false true else g.result, sdo := [resultByte false false true] }

/-- MGMT_READ (R84 to R86): a READ frame that the master sees to its end. -/
def Mach.mgmtRead (m : Mach) (cmd : Byte) (addr : Word) : Mach :=
  if opOf cmd == 1 || opOf cmd == 2 then m
  else if !m.mgmt.serving then m.drives []
  else if opOf cmd == 3 then m.protFrame false
  else if protError cmd addr then m.protFrame true
  else
    let crcEn := m.on F.SYS_MGMT_CTRL_CRC_EN
    let (m, l) := spiReads cmd addr (cmd.toNat % 16 + 1) 0 (m.spiWakes cmd addr)
    let data := l.flatMap fun r => beBytes 4 r.data.toNat
    m.modMgmt fun g => { g with result := resultByte (l.any (·.err)) false false, sdo := driven l ++ (if crcEn then [BitVec.ofNat 8 (crc8 data)] else []) }

/-- MGMT_WRITE (R84 to R87): the words are performed once the whole frame, and its CRC when enabled, has been received. -/
def Mach.mgmtWrite (m : Mach) (cmd : Byte) (addr : Word) (data : List Word) (crc : Option Byte) : Mach :=
  let n := cmd.toNat % 16 + 1
  if opOf cmd != 1 then m
  else if !m.mgmt.serving then m.drives []
  else if protError cmd addr then m.protFrame true
  else
    let crcEn := m.on F.SYS_MGMT_CTRL_CRC_EN
    let want : Byte := BitVec.ofNat 8 (crc8 (cmd :: beBytes 4 addr.toNat ++ (data.take n).flatMap fun w => beBytes 4 w.toNat))
    if data.length < n || (crcEn && crc.isNone) then m.drives []
    else if crcEn && crc != some want then
      m.modMgmt fun g => { g with result := resultByte false true false, sdo := [resultByte false true false] }
    else
      let (m, err) := spiWrites cmd addr 0 (data.take n) (m.spiWakes cmd addr)
      m.modMgmt fun g => { g with result := resultByte err false false, sdo := [resultByte err false false] }

/-- The level of the MGMT_IRQ_N request (R88): true when asserted. -/
def Mach.irq (m : Mach) : Bool := m.get F.EVT_PEND &&& m.get F.EVT_IRQ_EN != 0

/-- What a STATUS frame drives (R87): its poll byte and its word. -/
def Mach.statusBytes (m : Mach) : List Byte := resultByte false false false :: beBytes 4 (m.mgmt.result.toNat + 256 * bit m.irq)

/-- MGMT_STATUS (R87): the result of the last READ or WRITE frame and the level of the interrupt request. -/
def Mach.mgmtStatus (m : Mach) (cmd : Byte) : Mach :=
  if opOf cmd != 2 then m
  else if !m.mgmt.serving then m.drives []
  else if protError cmd 0 then m.protFrame false
  else m.drives m.statusBytes

/-- MGMT_FRAME_CUT (R85, R87): a READ frame ends at once, with the accesses already performed and the bytes already driven; of a WRITE frame cut before its end
nothing is written, and it has driven nothing; a frame with a protocol error has shown its poll byte as long as the master let it. -/
def Mach.mgmtCut (m : Mach) (cmd : Byte) (addr : Word) (cut : FrameCut) : Mach :=
  if !m.mgmt.serving then m.drives []
  else if protError cmd addr then
    if cut.bytes == 0 then m.drives [] else (m.protFrame (decide (opOf cmd < 2))).drives (List.replicate cut.bytes (resultByte false false true))
  else if opOf cmd == 2 then m.drives (m.statusBytes.take cut.bytes)
  else if opOf cmd == 1 then m.drives []
  else
    let (m, l) := spiReads cmd addr (min cut.accessed (cmd.toNat % 16 + 1)) 0 (m.spiWakes cmd addr)
    m.drives ((driven l).take cut.bytes)

end Sys2Proof.Machine
end

