-- ==== Sys2Proof/Machine/Boundary.lean ====
section
/-!
DEFINITION. Machine/Boundary.lean: the module boundary (R4): what applies there (R63), and what each block does when its settings change or at each boundary.
-/
namespace Sys2Proof.Machine

/-- Whether a setting differs between two machines. -/
def Mach.differs (m b : Mach) (f : Fld) : Bool := m.get f != b.get f

/-- Whether the settings of a bank differ between two machines in a range of addresses. -/
def Mach.differsIn (m b : Mach) (lo hi : Nat) : Bool :=
  let part (x : Mach) := mapKeep (fun k => decide (32 * lo ≤ k) && decide (k < 32 * hi)) x.regs.act
  part m != part b

/-! ### Ports that do not run -/

/-- The first t_B of a port whose RUN has applied as 1 falls 10 µs after the boundary, or after the scope that holds the port (R135, R418); a port reset
in progress holds it back to the boundary that ends it (R428). -/
def Mach.planFirst (m : Mach) (p : Port) : Mach :=
  let i := portIx p
  let now := m.now
  if m.cal.todo.contains (1 + i) || m.cal.todo.contains (3 + i) || (m.acqOf p).resetWrite.isSome then m
  else m.modAcq p fun a => { a with startAt := some (now + 10000) }

/-- A port whose acquisition is stopped applies its beat domain at the module boundary (R63); its failed slices are replaced there (R184). -/
def Mach.beatStopped (m : Mach) (p : Port) : Mach :=
  let i := portIx p
  if m.running p then m
  else
    let was := m.on (F.ESC_CTRL_RUN i)
    let m := ((m.applyDomain i).syncFigures p).coherentBoundary p true
    let is := m.on (F.ESC_CTRL_RUN i)
    if !was && is then m.planFirst p
    else if was && !is then m.modAcq p fun a => { a with startAt := none }
    else m

/-- A port whose Raman path is disabled applies its Raman domain, a new correction set and its bias at the module boundary (R63, R163, R409). -/
def Mach.ramanStopped (m : Mach) (p : Port) : Mach :=
  if m.ramanOn p then m
  else
    let m := (m.applyDomain (2 + portIx p)).retireRaman p
    let m := (m.ramanSet p).1.apdIdle p
    if m.ramanOn p then m.ramanStart p else m

/-- A port reset ends at the first module boundary at least 2 ms after its write; with RUN = 1 acquisition restarts (R428). -/
def Mach.resetDone (m : Mach) (p : Port) : Mach :=
  match (m.acqOf p).resetWrite with
  | none => m
  | some t =>
    if m.running p || decide (m.now < t + 2000000) then m
    else
      let m := m.modAcq p fun a => { a with resetWrite := none }
      if m.on (F.ESC_CTRL_RUN (portIx p)) then m.planFirst p else m

/-! ### What a change of settings does -/

/-- The Raman grid and frames after a change of SHOT_CTRL, T_SHOT, LOCK_OFS, FRAME or RFE_BIN (R154, R220, R228). -/
def Mach.ramanChanged (m b : Mach) : Mach :=
  let grid := m.differs b F.DTS_SHOT_CTRL_MODE || m.differs b F.DTS_T_SHOT_CYCLES
  let shot := grid || m.differs b F.DTS_SHOT_CTRL_LOCK_DIV || m.differs b F.DTS_LOCK_OFS_CYCLES || m.differs b F.DTS_FRAME_SHOTS
  let bin := m.differs b F.AFE_RFE_BIN_BIN_K || m.differs b F.AFE_RFE_BIN_BIN_DLY
  let m := if shot || bin then m.abandonBoth else m
  (if grid then { m with grid := m.count } else m).syncDts

/-- A trigger channel of which a field has changed enters REARM, or OFF when EN is 0 (R285); rows before that were none of the new settings' zone. -/
def Mach.chanChanged (m b : Mach) (c : Nat) : Mach :=
  let a := (F.CHR_CH_CTRL_EN 0).addr + 0x20 * c
  if m.differsIn b a (a + 0x1C) then (m.modChan c fun x => { x.clear with q := [] }).chanState c (if m.on (F.CHR_CH_CTRL_EN c) then 3 else 0) else m

/-- A change of a port's address closes every session on it (R402); a slot that is CONNECTING there returns to its previous state. -/
def Mach.addressChanged (m b : Mach) (n : Nat) : Mach :=
  let ip4 := (F.REC_IP4_ADDR_ADDR n).addr
  let ip6 := (F.REC_IP6_ADDR_ADDR n 0).addr
  if m.differsIn b ip4 (ip4 + 4) || m.differsIn b ip6 (ip6 + 16) || m.differs b (F.REC_IP_CTRL_IP4_EN n) || m.differs b (F.REC_IP_CTRL_IP6_EN n) then
    slotNos.foldl (fun m s => if m.get (F.REC_SESS_STATE_PORT s) = n then (m.unconnect s).keepSlot s 4 else m) m
  else m

/-- A change of EN, SPEED, FEC or TRAIN_EN takes the lane to OFF (R371); one of TX_EQ reaches the transmitter of a lane that is not OFF (R355). -/
def Mach.laneChanged (m b : Mach) (n : Nat) : Mach :=
  if m.differs b (F.NET_PORT_CTRL_EN n) || m.differs b (F.NET_PORT_CTRL_SPEED n) || m.differs b (F.NET_PORT_CTRL_FEC n) ||
    m.differs b (F.NET_PORT_CTRL_TRAIN_EN n) then m.laneOff n
  else if m.get (F.NET_PORT_STATUS_STATE n) ≠ 0 ∧ (m.differs b (F.NET_TX_EQ_SWING n) || m.differs b (F.NET_TX_EQ_POST n) || m.differs b (F.NET_TX_EQ_PRE n)) then
    m.laneEq n
  else m

/-- A change of a domain's OC_CTRL, MANUAL apart, or SERVO (R372). -/
def Mach.ptpChanged (m b : Mach) (d : Nat) : Mach :=
  let oc := (F.PTP_OC_CTRL_MANUAL 0).addr + 0x40 * d
  let part (x : Mach) := mapKeep (fun k => decide (32 * oc ≤ k) && decide (k < 32 * (oc + 8)) && k != (F.PTP_OC_CTRL_MANUAL d).key) x.regs.act
  m.ocBoundary d (part m != part b)

/-- When a user set becomes selected, or a selected set is rewritten, the background deltas inside its SCOPE are zero (R407). -/
def Mach.userChanged (m b : Mach) : Mach :=
  let base := userBase (m.get F.CAL_USER_SEL_SET)
  if m.on F.CAL_USER_SEL_EN && (m.differs b F.CAL_USER_SEL_EN || m.differs b F.CAL_USER_SEL_SET || m.differsIn b base (base + 0x8000)) then
    (m.clearBg (bankLe m.regs.act (base + 4) 2)).saveRet
  else m

/-- What follows from a change of module-boundary settings from those of `b`. -/
def Mach.moduleChanged (m b : Mach) : Mach :=
  let m := m.ramanChanged b
  let m := chanNos.foldl (fun m c => m.chanChanged b c) m
  let m := [0, 1, 2, 3].foldl (fun m n => (m.addressChanged b n).laneChanged b n) m
  let m := [0, 1, 2, 3].foldl (fun m o => if m.differs b (F.AFE_APD_LIM_V_MAX o) then m.apdCap o else m) m
  let m := [0, 1, 2, 3].foldl (fun m d => m.ptpChanged b d) m.syncDoms
  let m := (m.userChanged b).xoTrimAt.regMode (m.differs b F.CLK_TRIM_MAN)
  let src := m.get F.CLK_PPS_OUT_CTRL_SRC
  let m := m.modPwr fun x => { x with ppsSrc := src, ppsLast := if src = x.ppsSrc then x.ppsLast else none }
  m.syncPermit.driveLevels

/-! ### The boundary -/

/-- The start sequence ends when every port that RUN enables has begun (step 12 of Table 03-1): MODE becomes RUN. -/
def Mach.startEnds (m : Mach) : Mach :=
  let waits (p : Port) : Bool := m.on (F.ESC_CTRL_RUN (portIx p)) && !m.running p
  if m.pwr.phase == .starting && m.get F.SYS_STATE_START_STEP == 11 && !waits .A && !waits .B then
    let m := m.put F.SYS_STATE_START_STEP 12
    let m := if m.get F.SYS_STATE_MODE = 0 then m.put F.SYS_STATE_MODE 1 else m
    m.modPwr fun x => { x with phase := .running, startDone := true }
  else m

/-- What each block does at every module boundary while the core runs, before calibration writes its result. -/
def Mach.everyBoundary (m : Mach) : Mach :=
  let m := ((m.moduleSet).retireSpares).hkcBoundary
  let m := (m.trainBoundary).codecBoundary
  ((m.migAdvance 0).migAdvance 1).ringSecond

/-- At a module boundary the domains of stopped ports and the module domain apply, and what follows from them and from the boundary takes place. -/
def Mach.boundaryApply (m : Mach) : Mach :=
  let m := (m.beatStopped .A).beatStopped .B
  let m := (m.ramanStopped .A).ramanStopped .B
  ((m.applyDomain 4).moduleChanged m).everyBoundary

/-- MODULE_BOUNDARY (R4): time reaches the next whole millisecond; the domains of stopped ports and the module domain apply, and what follows from them
takes place; the power state is selected (R434). With the core down, and in NAP and SLEEP, time passes alone. -/
def Mach.moduleBoundary (m : Mach) : Mach :=
  if !m.pwr.supply then m
  else
    let m := m.lowEntry
    let m := m.advance (m.cyclesTo 1000000)
    if !m.alive || decide (3 ≤ m.get F.SYS_PWR_STATE_PSTATE) then m
    else
      let m := m.boundaryApply.calWrite.fwdDrain
      let m := ((m.resetDone .A).resetDone .B).drainEnd
      m.startEnds.powerSelect

end Sys2Proof.Machine
end

