-- ==== Sys2Proof/Machine/Image.lean ====
section
/-!
DEFINITION. Machine/Image.lean: the configuration image (R52 to R54, R271, R377): reading a slot, what makes an image valid, and the settings it gives.
-/
namespace Sys2Proof.Machine

/-- The NOR reads erased bytes as 0xFF (R49). -/
def norByte : Byte := 0xFF

/-- The base of an image slot, 0 A and 1 B (Table 03-2). -/
def slotBase (k : Nat) : Nat := if k = 0 then 0x0010000 else 0x1000000

/-- The size of an image slot in bytes (Table 03-2). -/
def slotBytes : Nat := 16711680

/-- The section of a section entry (R52, Table 03-5). -/
def sectionOf (nor : Mem) (base : Nat) (e : List Byte) : Section :=
  { typ := leAtOff e 0 2, optional := bitOf (leAtOff e 2 2) 0, target := leAtOff e 12 4,
    content := memBytes norByte nor (base + leAtOff e 4 4) (leAtOff e 8 4) }

/-- Whether the lengths that an image names lie within it and its slot. -/
def lengthsFit (total count offs : Nat) (entries : List (List Byte)) : Bool :=
  decide (total ≤ slotBytes) && decide (256 + 136 ≤ total) && decide (1 ≤ count) && decide (count ≤ 1024) && decide (offs + 16 * count + 136 ≤ total) &&
  entries.all fun e => decide (leAtOff e 4 4 + leAtOff e 8 4 + 136 ≤ total)

/-- The image that a slot holds, when its first four bytes are MAGIC (Table 03-4, R53). -/
def readImage (nor : Mem) (k : Nat) : Option Image :=
  let base := slotBase k
  if memLe norByte nor base 4 ≠ 0x494E4C4D then none
  else
    let h := memBytes norByte nor base 256
    let total := leAtOff h 12 4
    let count := min (leAtOff h 30 2) 1024
    let offs := leAtOff h 32 4
    let entries := (List.range count).map fun i => memBytes norByte nor (base + offs + 16 * i) 16
    let ok := lengthsFit total (leAtOff h 30 2) offs entries
    let sig := if ok then memBytes norByte nor (base + total - 136) 136 else []
    some
      { fmtMajor := leAtOff h 4 2, hdrLen := leAtOff h 8 4, imgSeq := leAtOff h 16 8, secVer := leAtOff h 24 2
        raiseSv := bitOf (leAtOff h 26 2) 0, startCal := bitOf (leAtOff h 26 2) 1, part := leAtOff h 28 2, minFw := leAtOff h 40 4
        lengthsOk := ok
        sections := if ok then entries.map (sectionOf nor base) else []
        keySlot := leAtOff sig 0 1
        keyHash := Config.sha256 ((sig.drop 4).take 64)
        pubX := BitVec.ofNat 256 (beAtOff sig 4 32), pubY := BitVec.ofNat 256 (beAtOff sig 36 32)
        sigR := BitVec.ofNat 256 (beAtOff sig 68 32), sigS := BitVec.ofNat 256 (beAtOff sig 100 32)
        digest := Config.sha256 ((if ok then memBytes norByte nor base (total - 136) else []) ++ sig.take 68) }

/-! ### Sections -/

/-- Entries of `n` bytes of a byte string; `k` bounds them. -/
def chunks (n : Nat) : Nat → List Byte → List (List Byte)
  | 0, _ => []
  | _, [] => []
  | k + 1, l => l.take n :: chunks n k (l.drop n)

/-- The entries of a REGS section: address, mask, value. -/
def regEntries (l : List Byte) : List (Nat × Nat × Nat) := (chunks 12 l.length l).map fun e => (leAtOff e 0 4, leAtOff e 4 4, leAtOff e 8 4)

/-- Whether a REGS address is valid (R52): the lowest appearance of a register of its block's map, or a writable word of the table region. -/
def regAddrOk (a : Nat) : Bool :=
  a % 4 == 0 &&
  if isTable a then tableWritable a
  else decide (a < 0x200000) && lowest a == a && unifyMc a == a && (findRow a).isSome

/-- The parts of Table 03-5 with a target: whether a section's target and length are in order (R52, R271, R404). -/
def sectionOk (s : Section) : Bool :=
  match s.typ with
  | 1 => s.content.length % 12 == 0 && (regEntries s.content).all fun e => regAddrOk e.1
  | 2 => s.target % 4 == 0 && s.content.length % 4 == 0 && isTable s.target && decide (s.target + s.content.length ≤ 0x1000000) &&
      (List.range (s.content.length / 4)).all fun i => tableWritable (s.target + 4 * i)
  | 3 => decide (s.content.length ≤ 16384) && (decide (s.target < 64) || s.target == 0xFFFFFFFF)
  | 4 => decide (s.content.length ≤ 8192) && (decide (s.target % 2 ^ 31 < 64) || s.target % 2 ^ 31 == 0x7FFFFFFF)
  | 5 => decide (s.target < 8) && decide (s.content.length ≤ 0x8000)
  | _ => true

/-- The MAX_REC column of Table 16-6. -/
def maxRec (typ : Nat) : Nat :=
  match typ with
  | 1 => 12416 | 2 => 262144 | 3 => 8388608 | 4 => 4194304 | 5 => 50331648 | 6 => 128 | 7 => 384 | 8 => 8650816 | 9 => 128 | _ => 256

/-- Whether a stream entry of a policy holds no reserved value (Tables 16-2 and 16-6). -/
def streamOk (t : Nat × Nat × Nat) : Bool :=
  decide (t.2.1 ≤ 2) &&
  match t.1 with
  | 1 => decide (t.2.2 ≤ 1)
  | 2 | 3 | 4 | 8 | 10 => t.2.2 == 0
  | 5 => decide (t.2.2 ≤ 3)
  | 7 => t.2.2 != 0
  | _ => false

/-- A policy entry (Table 16-2), none where it holds a reserved value. -/
def policyOfBytes (l : List Byte) : Option Policy :=
  let fl := leAtOff l 0 1
  let prim := leAtOff l 1 1
  let alt := leAtOff l 2 1
  let dom := leAtOff l 3 1
  let win := leAtOff l 4 4
  let jrn := leAtOff l 8 4
  let port := leAtOff l 32 2
  let n := leAtOff l 34 2
  let streams := (List.range n).map fun i => (leAtOff l (40 + 4 * i) 1, leAtOff l (41 + 4 * i) 1, leAtOff l (42 + 4 * i) 2)
  if fl < 8 ∧ prim < 4 ∧ (alt = 0xFF ∨ (alt < 4 ∧ alt ≠ prim)) ∧ dom < 4 ∧ 64 ≤ win ∧ win ≤ 65536 ∧ 1024 ≤ jrn ∧ (bitOf fl 2 ∨ port = 0) ∧ n ≤ 6 ∧
    leAtOff l 36 4 = 0 ∧ streams.all streamOk then
    some { autostart := bitOf fl 0, authReq := bitOf fl 1, udp := bitOf fl 2, primary := prim, alt := if alt = 0xFF then none else some alt,
           domain := dom, windowKib := win, jrnKib := jrn, evtMask := leAtOff l 12 4, host := BitVec.ofNat 128 (beAtOff l 16 16), udpPort := port,
           streams := streams }
  else none

/-- A key entry of the SESSION section (R377). -/
def keyOfBytes (l : List Byte) : Option MgmtKey :=
  if leAtOff l 64 1 < 2 ∧ leAtOff l 65 7 = 0 then
    some { x := BitVec.ofNat 256 (beAtOff l 0 32), y := BitVec.ofNat 256 (beAtOff l 32 32), secure := leAtOff l 64 1 == 1 }
  else none

/-- The SESSION section (R377): keys and policies; none where its length or a value is not in order, or where more than eight policies have UDP set (R400). -/
def sessionOf (l : List Byte) : Option (List MgmtKey × List Policy) :=
  let nkey := leAtOff l 2 1
  let npol := leAtOff l 3 1
  if leAtOff l 0 2 = 1 ∧ nkey ≤ 16 ∧ 1 ≤ npol ∧ npol ≤ 64 ∧ leAtOff l 4 12 = 0 ∧ l.length = 16 + 72 * nkey + 64 * npol then
    let ks := (chunks 72 nkey (l.drop 16)).map keyOfBytes
    let ps := (chunks 64 npol (l.drop (16 + 72 * nkey))).map policyOfBytes
    if ks.all (·.isSome) && ps.all (·.isSome) && decide ((ps.filterMap id).countP (·.udp) ≤ 8) then some (ks.filterMap id, ps.filterMap id) else none
  else none

/-- The section types that the supervisor knows (Table 03-5). -/
def knownType (t : Nat) : Bool := decide (1 ≤ t) && decide (t ≤ 7)

/-- The sections of an image that are used: those of a known type. -/
def Image.used (i : Image) : List Section := i.sections.filter fun s => knownType s.typ

/-- The session part of an image: keys and policies. -/
def Image.session (i : Image) : Option (List MgmtKey × List Policy) :=
  match i.used.find? fun s => s.typ == 6 with
  | none => some ([], [])
  | some s => sessionOf s.content

/-! ### Settings -/

/-- The words of a byte string stored in a bank of settings from a table address. -/
def bankStoreBytes (b : List (Nat × Nat)) (a : Nat) (l : List Byte) : List (Nat × Nat) :=
  ((chunks 4 l.length l).foldl (fun (x : List (Nat × Nat) × Nat) w => (mapPut 0 x.1 (32 * x.2) (leNat w), x.2 + 4)) (b, a)).1

/-- A field that an image sets: a setting, or an RO field loaded from the image (R52). -/
def imageField (f : FieldSpec) : Bool := f.acc == .rws || (f.acc == .ro && f.src == .image)

/-- One REGS entry on a bank: the fields that an image sets take the masked bits. -/
def applyEntry (b : List (Nat × Nat)) (e : Nat × Nat × Nat) : List (Nat × Nat) :=
  let (a, mask, v) := e
  let mix (old m x : Nat) : Nat := old - (old &&& m) + (x &&& m)
  if isTable a then mapPut 0 b (a * 32) (mix (bankWord b a) mask v)
  else
    match findRow a with
    | none => b
    | some r => (r.fields.filter imageField).foldl (fun b f =>
        let n := 2 ^ (f.msb - f.lsb + 1)
        mapPut 0 b (a * 32 + f.lsb) (mix (mapGet 0 b (a * 32 + f.lsb)) (mask / 2 ^ f.lsb % n) (v / 2 ^ f.lsb % n))) b

/-- The values that an image gives to every field it sets and to the table region, its sections in order (Table 03-5). -/
def Image.bank (i : Image) : List (Nat × Nat) :=
  i.used.foldl (fun b s =>
    match s.typ with
    | 1 => (regEntries s.content).foldl applyEntry b
    | 2 => bankStoreBytes b s.target s.content
    | 5 => bankStoreBytes b (userBase s.target) s.content
    | _ => b) []

/-- A machine that holds an image's values in place of its own settings. -/
def Mach.withImage (m : Mach) (b : List (Nat × Nat)) : Mach :=
  m.setAct (b.foldl (fun x e => mapPut 0 x e.1 e.2) (m.regs.act.filter fun e => (domainOf e.1).isNone))

/-! ### Validity -/

/-- The first condition of R52 to R54 that an image fails, numbered 2 to 10; none when it is valid. The numbers are the model's (log entry 42). -/
def Image.invalid (i : Image) (nv : NonVol) (fw : Nat) : Option Nat :=
  let key := nv.otp.keys[i.keySlot]?
  let conds : List (Nat × Bool) := [
    (2, i.hdrLen != 256),
    (3, i.part != 0x7160),
    (4, !Config.fmtSupported i.fmtMajor),
    (5, decide (i.secVer < nv.otp.secVer)),
    (6, decide (fw < i.minFw)),
    (7, !i.lengthsOk),
    (8, i.sections.any fun s => !knownType s.typ && !s.optional),
    (9, !(match key with
          | some k => k.hash == some i.keyHash && !k.revoked && Config.ecdsaVerify i.pubX i.pubY i.digest i.sigR i.sigS
          | none => false)),
    (10, i.used.any (fun s => !sectionOk s) || i.session.isNone || !(reservedIn (fun f => f.acc == .ro && f.src == .image) i.bank).isEmpty)]
  (conds.find? (·.2)).map (·.1)

/-- Write into the memories of engine `e`, or of every engine. -/
def Mach.loadEngines (m : Mach) (all : Bool) (e : Nat) (f : Jewel → Jewel) : Mach :=
  if all then engineNos.foldl (fun m i => m.modJewel i f) m else m.modJewel e f

/-- A section's effect beside the settings it gives (Table 03-5, R271): Jewel programs and constants. -/
def Mach.loadSection (m : Mach) (s : Section) : Mach :=
  match s.typ with
  | 3 => m.loadEngines (s.target == 0xFFFFFFFF) s.target fun j => { j with imem := memStore 0 j.imem 0 s.content }
  | 4 => m.loadEngines (s.target % 2 ^ 31 == 0x7FFFFFFF) (s.target % 2 ^ 31) fun j =>
      if bitOf s.target 31 then { j with y := memStore 0 j.y 0x4000 s.content } else { j with x := memStore 0 j.x 0x4000 s.content }
  | _ => m

/-- A machine whose engines hold nothing but an image's programs and constants (step 8 of Table 03-1). -/
def Mach.withPrograms (m : Mach) (i : Image) : Mach := i.used.foldl Mach.loadSection { m with train := { m.train with jewels := [] } }

/-- apply_checks of R54: the commit checks over the whole image as one commit naming every domain, over no earlier setting, with the image's own Jewel
programs (R269). -/
def Mach.imageChecks (m : Mach) (i : Image) : Option Fail :=
  let b := i.bank
  ((m.withImage (b.filter fun e => (domainOf e.1).isNone)).withPrograms i).checks (settingsOf b) 31

/-- The result of valid() and apply_checks() on an image: none when both pass; 16 and the commit code when a check fails. -/
def Mach.imageFault (m : Mach) (nv : NonVol) (i : Image) : Option Nat :=
  match i.invalid nv (m.get F.SYS_FW_VER) with
  | some n => some n
  | none => (m.imageChecks i).map fun f => 16 + f.code

/-- Slot selection (R54): the slots whose MAGIC reads, by IMG_SEQ, higher first, slot A first on a tie. -/
def slotOrder (nor : Mem) : List (Nat × Image) :=
  match readImage nor 0, readImage nor 1 with
  | some a, some b => if a.imgSeq < b.imgSeq then [(1, b), (0, a)] else [(0, a), (1, b)]
  | some a, none => [(0, a)]
  | none, some b => [(1, b)]
  | none, none => []

end Sys2Proof.Machine
end

