-- ==== Sys2Proof/Machine/Boot.lean ====
section
/-!
DEFINITION. Machine/Boot.lean: the start sequence (R46 to R51, Table 03-1), boot records (R49, R50, R60), and the identity and image commands of the SEC block
(R55 to R58).
-/
namespace Sys2Proof.Machine

/-! ### Boot records -/

/-- The counter of a boot record copy, when it is valid. -/
def BootCopy.counter? : BootCopy → Option Nat
  | .valid c _ _ _ => some c
  | _ => none

/-- The valid boot record with the higher counter (R50): its counter and the running boot epoch it holds. -/
def NonVol.record (nv : NonVol) : Option (Nat × Nat) :=
  match nv.boot0, nv.boot1 with
  | .valid c r _ _, .valid c' r' _ _ => if c < c' then some (c', r') else some (c, r)
  | .valid c r _ _, _ => some (c, r)
  | _, .valid c r _ _ => some (c, r)
  | _, _ => none

/-- Write a boot record into the copy that does not hold the valid record with the higher counter; the older copy is erased once the new one has been
checked (R50). With neither copy valid the spec names none, and copy 0 is taken (DESIGN CHOICE, log entry 81). -/
def NonVol.writeRecord (nv : NonVol) (counter running slot imgSeq : Nat) : NonVol :=
  let new : BootCopy := .valid counter running slot imgSeq
  let higher1 := match nv.boot0.counter?, nv.boot1.counter? with
    | some a, some b => decide (a < b)
    | none, some _ => true
    | _, _ => false
  if higher1 then { nv with boot0 := new, boot1 := .erased }
  else if nv.boot0.counter?.isSome then { nv with boot0 := .erased, boot1 := new }
  else { nv with boot0 := new, boot1 := .erased }

/-- A commit that formed an epoch past 0xFFFF has taken the next counter: its record, with the running start's boot epoch, is in the NVM (R60). -/
def State.saveCounter (s : State) : State :=
  match s.nv.record with
  | some (c, _) =>
    if c < s.m.boot.counter then
      { s with nv := s.nv.writeRecord s.m.boot.counter (s.m.get F.SYS_BOOT_EPOCH) s.m.boot.slot (match s.m.boot.image with | some i => i.imgSeq | none => 0) }
    else s
  | none => s

/-- An effect's state `t` after `s`: the boot record holds the counter that a commit has taken in it (R60). -/
def State.saved (s t : State) : State := if s.m.boot.counter < t.m.boot.counter then t.saveCounter else t

/-! ### Steps 1 to 5 -/

/-- Steps 1 to 3 (Table 03-1): the firmware version, the fields that the calibration store gives, each port's address MAC_BASE + n (R359), the store's sets and the die
temperature. -/
def Mach.startStore (m : Mach) (nv : NonVol) (dieMk : Int) : Mach :=
  let m := m.put F.SYS_FW_VER nv.fwVer
  let act := nv.calRegs.foldl (fun b e => mapPut 0 b e.1 e.2) m.regs.act
  let act := (nv.calStore.filter fun e => decide (e.1 < 0x28000)).foldl (fun b e =>
    let k := 32 * (0x0E40000 + e.1 / 4 * 4)
    mapPut 0 b k (mapGet 0 b k + e.2.toNat * 2 ^ (8 * (e.1 % 4)))) act
  let m := m.setAct act
  let m := m.put64 F.SYS_SERIAL_LO_SERIAL F.SYS_SERIAL_HI_SERIAL nv.serial.toNat
  let m := [0, 1, 2, 3].foldl (fun m n => m.put64 (F.NET_MAC_LO_MAC n) (F.NET_MAC_HI_MAC n) ((nv.macBase + n) % 2 ^ 48)) m
  let m := m.modPwr fun x => { x with dieMk := dieMk }
  let m := (m.put F.CAL_TEMP_MK (codeOf 32 dieMk)).checkStore
  (m.formForce).modReg fun r => { r with t0 := dieMk }

/-- Step 4 (R51): whether this start follows an open record with no marker of its run. -/
def Mach.holdupShort (m : Mach) (nv : NonVol) : Bool :=
  decide (m.get F.SYS_RESET_CAUSE_CAUSE ≤ 1) &&
  match nv.record with
  | none => false
  | some (_, running) => !(nv.markers.any fun k => match k with | some x => x.bootEpoch == running | none => false)

/-- Step 5 for a channel (R317, R334, R338): a frozen channel stays so after a watchdog-class reset; a trained one leaves self-refresh while its pattern
reads well; any other starts training. -/
def Mach.startChannel (m : Mach) (ch : Nat) (patternOk : Bool) : Mach :=
  let cause := m.get F.SYS_RESET_CAUSE_CAUSE
  let st := m.mcState ch
  if st = 3 ∧ (cause = 3 ∨ cause = 4) then m
  else if st = 2 ∧ m.pwr.trained.ix ch ∧ patternOk then m.srExit ch
  else
    let m := ((m.put (F.MC_STATUS_STATE ch) 1).put (F.MC_STATUS_SR ch) 0).modMc ch fun c => { c with migBytes := 0, migPart := 0 }
    m.modPwr fun x => { x with trained := x.trained.putIx ch false }

/-- Step 5 of Table 03-1. With no channel left that kept its contents, the journal is lost and the slots are free (R398). -/
def Mach.startMemory (m : Mach) (ok0 ok1 : Bool) : Mach :=
  let m := m.modPwr fun x => { x with mcPwrEn := true, mcDrstN := true }
  let m := ((m.startChannel 0 ok0).startChannel 1 ok1).syncMem
  if m.mcState 0 ≠ 2 ∧ m.mcState 1 ≠ 2 then m.freeAll else m

/-! ### Step 8 -/

/-- A REGS entry on a register field that no image sets: the supervisor's masked write (Table 03-5). -/
def Mach.regsWrite (m : Mach) (e : Nat × Nat × Nat) : Mach :=
  let (a, mask, v) := e
  if isTable a then m
  else
    match findRow a with
    | none => m
    | some r => if r.fields.all imageField then m else
      let r' : RegRow := { r with fields := r.fields.filter fun f => !imageField f }
      m.regWrite ⟨0, true, false, 0⟩ r' a mask v none

/-- Every domain takes the image's values at once (step 8 of Table 03-1); the first epoch is boot × 0x1_0000, the checker's reference and the RET copy follow. -/
def Mach.applyImage (m : Mach) (i : Image) : Mach :=
  let b := m
  let bank := i.bank
  let m := m.withImage bank
  let m := { m with regs := { m.regs with shd := settingsOf bank, staged := [] } }
  let m := i.used.foldl Mach.loadSection m
  let ses := i.session.getD ([], [])
  let m := { m with boot := { m.boot with image := some i, applied := settingsOf bank, mgmtKeys := ses.1, policies := ses.2 } }
  let m := m.put F.CFG_EPOCH (m.boot.counter % 65536 * 65536)
  let m := (m.modCommit fun c => { c with skipPass := true, ref := if m.on F.CFG_CRC_CTRL_CRC_AUTO then configCrc m.regs.act else 0 }).syncCompare
  let m := (m.formForce).takeMaster.saveRet
  -- what follows from the settings, as at a boundary of every domain
  let m := [Port.A, Port.B].foldl (fun m p =>
    let m := (m.syncFigures p).coherentBoundary p true
    let m := (m.ramanSet p).1.apdIdle p
    if m.ramanOn p then m.ramanStart p else m) m
  let m := ((m.moduleChanged b).checkSpare 0).checkSpare 1
  let m := [0, 1, 2, 3].foldl (fun m n => m.laneStart n) m
  let m := i.used.foldl (fun m s => if s.typ = 1 then (regEntries s.content).foldl Mach.regsWrite m else m) m
  -- a slot whose policy the image no longer holds is freed (R398)
  slotNos.foldl (fun m s => if m.sessState s ≠ 0 ∧ (m.policyOf s).isNone then m.freeSlot s 0 else m) m

/-- A newer supervisor firmware in the image is stored, to run from the next start (R56). -/
def NonVol.storeFw (nv : NonVol) (i : Image) : NonVol :=
  i.used.foldl (fun nv s =>
    if s.typ = 7 then
      match Config.supfw s.content with
      | some v => if nv.fwVer < v then { nv with fwVer := v } else nv
      | none => nv
    else nv) nv

/-- The OTP security version burned up to an image's SEC_VER when RAISE_SV asks for it (R55); it never decreases and saturates at 63. -/
def NonVol.burn (nv : NonVol) (i : Option Image) : NonVol :=
  match i with
  | some x => if x.raiseSv ∧ nv.otp.secVer < x.secVer then { nv with otp := { nv.otp with secVer := max nv.otp.secVer (min x.secVer 63) } } else nv
  | none => nv

/-! ### Steps 9 to 12 -/

/-- Open the slot of an AUTOSTART policy at step 10 (R378) with the GAP records of Table 16-10, and its ATTEST record (R59). -/
def Mach.autostart (m : Mach) (nv : NonVol) (i : Nat) (p : Policy) : Mach :=
  if !p.autostart || m.sessState i != 0 then m
  else
    let m := m.openFresh i i p
    let streams := (m.slot i).streams
    let m :=
      if m.on F.SYS_STATE_HOLDUP_SHORT then gapReason2 i (seqBase (m.slot i).start) m 0 streams
      else
        match m.boot.endedRun.bind fun r => lastMarker (nv.markers.filter fun k => match k with | some x => x.bootEpoch == r | none => false) with
        | none => m
        | some found =>
          match found.entryFor i with
          | some e => gapReason1 i found e m 0 streams
          | none => m
    let m := (m.put (F.REC_SESS_STATE_STATE i) 3).syncSlot i
    m.attest i 0 nv.otp.secVer nv.serial.toNat

/-- The AUTOSTART policies from number `i` up. -/
def autostarts (nv : NonVol) : Nat → List Policy → Mach → Mach
  | _, [], m => m
  | i, p :: t, m => autostarts nv (i + 1) t (m.autostart nv i p)

/-- Steps 9 to 12 once no channel is in training: the layout, the journal, the AUTOSTART slots, start-up calibration, and the ports that wait for
their first beat. -/
def State.finishStart (s : State) : State :=
  let m := s.m
  if m.pwr.phase ≠ .starting ∨ m.get F.SYS_STATE_START_STEP ≠ 8 ∨ m.mcState 0 = 1 ∨ m.mcState 1 = 1 then s
  else
    let m := m.put F.SYS_STATE_START_STEP 9
    let m := if m.mcState 0 ≠ 2 ∧ m.mcState 1 ≠ 2 then m.enterSafe 2 else m
    let m := autostarts s.nv 0 m.boot.policies (m.layout.syncSingle)
    let m := m.put F.SYS_STATE_START_STEP 10
    let scope := m.get F.CAL_START_SCOPE_SCOPE
    let cal := (match m.boot.image with | some i => i.startCal | none => false) && scope != 0
    let m := if cal then m.calStart scope (m.get F.CAL_START_SCOPE_DEST) else m
    let m := m.put F.SYS_STATE_START_STEP 11
    let m := m.startPorts
    let none_ := !m.on (F.ESC_CTRL_RUN 0) && !m.on (F.ESC_CTRL_RUN 1)
    let nv := if none_ then s.nv.burn m.boot.image else s.nv
    let m := { m with boot := { m.boot with burned := none_ } }
    if m.get F.SYS_STATE_MODE = 2 then { s with m := m.modPwr fun x => { x with phase := .running, startDone := true }, nv := nv }
    else if none_ then { s with m := m.startEnds, nv := nv }
    else { s with m := m }

/-- Steps 1 to 4 of Table 03-1 (R46, R51): the supervisor serves the SPI, the calibration store is read, and the marker log shows how the last run ended. -/
def State.startReads (s : State) (dieMk : Int) : State :=
  let m := s.m
  let now := m.now
  let m := m.modPwr fun x => { x with phase := .starting, tS := now, startDone := false, safeKept := 0 }
  let m := { m with mgmt := { m.mgmt with serving := true }, latch := {} }
  let m := m.startStore s.nv dieMk
  let short := m.holdupShort s.nv
  let ended := s.nv.record.map (·.2)
  let nv := { s.nv with markers := trimMarkers s.nv.markers }
  let m := { m with boot := { m.boot with endedRun := ended } }
  let m := m.put F.SYS_STATE_START_STEP 4
  { s with nv := nv, m := if short then (m.put F.SYS_STATE_HOLDUP_SHORT 1).emit 3 1 0 0 else m }

/-- START_SEQUENCE (R42, R46): with RESET_N and PGOOD high, steps 1 to 8, and on from there when no channel is in training; while RESET_N is low the start
sequence waits. -/
def State.startSequence (s : State) (resetN : Bool) (dieMk : Int) (ok0 ok1 : Bool) : State :=
  let s := s.upd fun m => m.modPwr fun x => { x with resetN := resetN }
  let m := s.m
  if !resetN ∨ m.pwr.phase ≠ .reset ∨ !m.pwr.supply ∨ !m.pwr.pgood then s
  else
    let safe := m.pwr.safeKept
    let s := s.startReads dieMk
    let nv := s.nv
    let m := s.m
    if nv.otp.keys.all fun k => k.hash.isNone then
      { s with nv := nv, m := (m.put F.SYS_STATE_MODE 3).modPwr fun x => { x with phase := .running } }
    else
      let m := (m.startMemory ok0 ok1).put F.SYS_STATE_START_STEP 5
      let order := slotOrder nv.nor
      match order.find? fun x => (m.imageFault nv x.2).isNone with
      | none => { s with nv := nv, m := (m.enterSafe 1).modPwr fun x => { x with phase := .running, startDone := true } }
      | some (k, img) =>
        let fallback := (order.head?.map (·.1)) != some k
        let m := m.put F.SYS_STATE_SLOT k
        let m := if fallback then (m.put F.SYS_STATE_IMAGE_FALLBACK 1).emit 3 0 0 0 else m
        -- step 7
        let counter := (match nv.record with | some (c, _) => c | none => 0) + 1
        let nv := nv.writeRecord counter counter k img.imgSeq
        let m := (m.put F.SYS_BOOT_EPOCH counter).put F.SYS_STATE_START_STEP 7
        let m := { m with boot := { m.boot with counter := counter, slot := k } }
        -- step 8
        let m := (m.applyImage img).put F.SYS_STATE_START_STEP 8
        let m := if safe ≠ 0 then m.enterSafe safe else m
        ({ s with nv := nv.storeFw img, m := m } : State).finishStart

/-- TRAINING_COMPLETE (R317): a channel ends training; when none is left in it, the sequence goes on. -/
def State.trainingComplete (s : State) (ch : Nat) (d0 d1 : Dimm) (timeout : Bool) (crc : Word) : State :=
  if ch < 2 ∧ s.m.alive then ({ s with m := s.m.trained ch d0 d1 timeout crc } : State).finishStart else s

/-- After the first beat of the start the security version is burned (R55), whatever row brings that beat. -/
def State.firstBurn (s : State) : State :=
  if (s.m.running .A || s.m.running .B) && !s.m.boot.burned then
    { s with nv := s.nv.burn s.m.boot.image, m := { s.m with boot := { s.m.boot with burned := true } } }
  else s

/-- FIRST_BEAT (R47): a port's first beat, once start-up calibration has ended and INTLK_N and PFAIL_N are high. -/
def State.firstBeat (s : State) (p : Port) : State :=
  let m := s.m
  if m.pwr.phase ≠ .starting ∨ m.get F.SYS_STATE_START_STEP ≠ 11 ∨ m.calBusy ∨ m.running p ∨ !m.on (F.ESC_CTRL_RUN (portIx p)) then s
  else
    s.saved ({ s with m := (m.startAcq p).startEnds } : State).firstBurn

/-- ACQUISITION_START (R135). -/
def State.acqStart (s : State) (p : Port) : State :=
  if s.m.fabricUp && s.m.pwr.phase == .running then s.saved ({ s with m := s.m.startAcq p } : State).firstBurn else s

/-! ### Commands of the SEC block -/

/-- Where an access to SEC lands: its registers are guarded (R71) and their offsets are not in the spec, so that an address recorded for one is a free value
within the block (log entry 43). -/
def Mach.secAddr (m : Mach) : Nat × Mach :=
  let (k, m) := m.fresh
  (0x0140000 + Config.openValue k % 0x4000 * 4, m)

/-- Whether a master's command on SEC is performed; a non-secure one is a violation, one that meets a core that is down an access error. -/
def Mach.secAccess (m : Mach) (who : Master) (write : Bool) : Bool × Mach :=
  let x := m.accessOf who false
  if !m.pwr.supply || !m.heard who then (false, m)
  else if !x.secure then
    let (a, m) := m.secAddr
    (false, (m.violation x a write).answer 0 false)
  else if !m.fabricUp then
    let (a, m) := m.secAddr
    (false, (m.accErr x a write).answer 0 true)
  else (true, m.answer 0 false)

/-- IMAGE_VERIFY (R54 and the procedure of chapter 03): the slot that is not running is read back and checked; 1 PASS, else the first failure. A slot without
MAGIC fails first. -/
def State.imageVerify (s : State) (who : Master) : State :=
  let (ok, m) := s.m.secAccess who true
  if !ok then { s with m := m }
  else
    let r := match readImage s.nv.nor (1 - m.boot.slot) with
      | none => 11
      | some i => (m.imageFault s.nv i).getD 1
    { s with m := { m with boot := { m.boot with verify := r } } }

/-- KEY_PROGRAM (R58): in PROVISION the management SPI programs a slot that is not programmed. -/
def State.keyProgram (s : State) (who : Master) (slot : Nat) (hash : BitVec 256) : State :=
  let (ok, m) := s.m.secAccess who true
  let free := match s.nv.otp.keys[slot]? with | some k => k.hash.isNone | none => false
  if ok && who == .spi && m.get F.SYS_STATE_MODE == 3 && free then
    { s with m := m, nv := { s.nv with otp := { s.nv.otp with keys := listMod s.nv.otp.keys slot fun k => { k with hash := some hash } } } }
  else { s with m := m }

/-- Whether a key slot is programmed and not revoked. -/
def KeySlot.live (k : KeySlot) : Bool := k.hash.isSome && !k.revoked

/-- KEY_REVOKE (R58): a secure master revokes a slot, programmed or not; the last slot that is programmed and not revoked is refused with KEY_LAST. -/
def State.keyRevoke (s : State) (who : Master) (slot : Nat) : State :=
  let (ok, m) := s.m.secAccess who true
  let keys := s.nv.otp.keys
  match keys[slot]? with
  | none => { s with m := m }
  | some k =>
    if !ok then { s with m := m }
    else if k.live && (keys.filter KeySlot.live).length == 1 then { s with m := { m with boot := { m.boot with keyLast := true } } }
    else
      { s with m := { m with boot := { m.boot with keyLast := false } }
               nv := { s.nv with otp := { s.nv.otp with keys := listPut keys slot { k with revoked := true } } } }

/-- NVM_WINDOW_WRITE (procedure of chapter 03, Table 03-2): a word into the slot that is not running; writes to the running slot and below the slots are
refused and counted; the integrator's own range is never written. -/
def State.nvmWrite (s : State) (who : Master) (addr : Nat) (w : Word) : State :=
  let (ok, m) := s.m.secAccess who true
  if !ok || decide (0x1FF0000 ≤ addr) then { s with m := m }
  else
    let running := m.boot.image.isSome && decide (slotBase m.boot.slot ≤ addr) && decide (addr < slotBase m.boot.slot + slotBytes)
    if addr < 0x10000 || running then { s with m := { m with boot := { m.boot with nvmRefused := m.boot.nvmRefused + 1 } } }
    else { s with m := m, nv := { s.nv with nor := memStore norByte s.nv.nor (addr / 4 * 4) (leBytes 4 w.toNat) } }

/-- ATTEST_PERIODIC (R59): at the next instant t_S + n × 3,600 s an ATTEST record goes to every session with an ATTEST stream. -/
def State.attestPeriodic (s : State) : State :=
  let m := s.m
  if !m.alive || decide (3 ≤ m.get F.SYS_PWR_STATE_PSTATE) then s
  else
    let due := m.pwr.tS + ((m.now - m.pwr.tS) / 3600000000000 + 1) * 3600000000000
    { s with m := (m.reachNs due).attestAll s.nv.otp.secVer s.nv.serial.toNat }

/-- A sequence that writes a power-fail marker: it goes into the next erased entry of the marker log (R51). -/
def State.marked (s : State) (r : Mach × Option Marker) : State :=
  match r.2 with
  | none => { s with m := r.1 }
  | some k => { s with m := r.1, nv := { s.nv with markers := writeMarker s.nv.markers k } }

end Sys2Proof.Machine
end

