-- ==== Sys2Proof/Machine/Session.lean ====
section
/-!
DEFINITION. Machine/Session.lean: the ports' addresses and neighbours (R373), opening a session (R378 to R382, R393, R395), management commands (R399), the
transport (R375, R376, R384, R385), housekeeping records (R390) and the UDP streams (R400).
-/
namespace Sys2Proof.Machine

/-! ### Addresses and neighbours (R373) -/

/-- Whether frames for the module reach port Pn: its lane is UP and the fabric runs. -/
def Mach.hears (m : Mach) (n : Nat) : Bool := decide (n < 4) && m.fabricUp && m.laneUp n

/-- ARP_REQUEST: a request for an address in use on the port is answered. -/
def Mach.arpRequest (m : Mach) (n : Nat) (target : BitVec 128) : Mach :=
  if m.hears n && m.ownAddr n target then
    ({ m with recs := { m.recs with answered := m.recs.answered + 1 } }).txFrames n 1
  else m

/-- NEIGHBOUR_EXPIRE: a resolved neighbour is kept for 60 s and is then asked for again; an unreachable one is asked for again as late (log entry 83). -/
def Mach.neighbourExpire (m : Mach) (n : Nat) (a : BitVec 128) : Mach :=
  match m.neighbour n a with
  | some e =>
    if m.hears n && e.st != .asking then
      let m := m.reachNs (e.time + 60000000000)
      (m.putNeighbour { e with st := .asking, time := m.now }).txFrames n 1
    else m
  | none => m

/-- NEIGHBOUR_UNREACHABLE: a neighbour that is asked for has given no answer to three tries 1 s apart, the second and the third of which are sent by then; the traffic
for it is held. -/
def Mach.neighbourUnreachable (m : Mach) (n : Nat) (a : BitVec 128) : Mach :=
  match m.neighbour n a with
  | some e =>
    if m.hears n && e.st == .asking then
      let m := m.reachNs (e.time + 3000000000)
      (m.putNeighbour { e with st := .unreachable, time := m.now }).txFrames n 2
    else m
  | none => m

/-! ### CONNECT_REQ (R378 to R380, R395) -/

/-- Whether an AUTOSTART policy holds a slot number (R378). -/
def Mach.autoHeld (m : Mach) (s : Nat) : Bool := match m.boot.policies[s]? with | some p => p.autostart | none => false

/-- The lowest slot that is neither in use nor held by an AUTOSTART policy. -/
def Mach.freeSlotNo (m : Mach) : Option Nat := slotNos.find? fun s => m.sessState s == 0 && !m.autoHeld s

/-- What a CONNECT_REQ opens: a kept slot, a fresh slot, or a fresh slot of a lost one's number (R395). -/
inductive ConnectPlan where
  | resume (slot : Nat)
  | fresh (slot : Nat)
  | lost (slot start : Nat)
deriving DecidableEq, Repr

/-- The slot of a plan. -/
def ConnectPlan.slot : ConnectPlan → Nat
  | .resume s => s
  | .fresh s => s
  | .lost s _ => s

/-- The journal quotas, KiB, of the slots in use other than `s` (R380). -/
def Mach.quotasBut (m : Mach) (s : Nat) : Nat :=
  sumNat (slotNos.map fun i => if i != s && m.sessState i != 0 then (match m.policyOf i with | some p => p.jrnKib | none => 0) else 0)

/-- The plan for a CONNECT_REQ under policy `p`, or the status that refuses it (Table 16-4, the last four rows). -/
def Mach.planConnect (m : Mach) (r : ConnectReq) (p : Policy) : ConnectPlan ⊕ Nat :=
  let s := r.resumeSlot
  if p.autostart then
    let own := r.policy
    if m.isOpen own || m.sessState own == 1 || (s != 0xFF && s != own) then .inr 3
    else if m.sessState own == 3 then .inl (.resume own)
    else .inl (.fresh own)
  else if s != 0xFF then
    if m.sessState s == 3 && m.get (F.REC_SESS_STATE_POLICY s) == r.policy && (m.slot s).start == r.resumeStart && decide (s < 64) then .inl (.resume s)
    else if decide (s < 64) && m.sessState s == 0 && !m.autoHeld s && decide (r.resumeStart < m.get F.SYS_BOOT_EPOCH) then .inl (.lost s r.resumeStart)
    else .inr 3
  else
    match m.freeSlotNo with
    | some n => .inl (.fresh n)
    | none => .inr 4

/-- The status of Table 16-4, in the order of the table, with the plan when it is OK. With no channel present there is no journal (Table 18-10). -/
def Mach.checkConnect (m : Mach) (r : ConnectReq) : ConnectPlan ⊕ Nat :=
  match m.boot.policies[r.policy]? with
  | none => .inr 1
  | some p =>
    if p.udp then .inr 1
    else if (p.host ≠ 0 ∧ p.host ≠ r.source) ∨ (r.ethPort ≠ p.primary ∧ some r.ethPort ≠ p.alt) then .inr 2
    else
      match m.planConnect r p with
      | .inr e => .inr e
      | .inl plan => if (if m.mcState 0 == 2 || m.mcState 1 == 2 then m.get F.MC_RSV_SIZES_JRN_MIB * 1024 else 0) < m.quotasBut plan.slot + p.jrnKib then .inr 5 else .inl plan

/-- Carry out a plan: the slot is CONNECTING, with the GAP records of R395 at the head of a fresh slot's streams. -/
def Mach.connectSlot (m : Mach) (markers : List (Option Marker)) (r : ConnectReq) (p : Policy) (plan : ConnectPlan) (nonce : BitVec 128) : Mach :=
  let s := plan.slot
  let prev := m.sessState s
  let m := match plan with
    | .resume _ => m
    | .fresh _ => m.openFresh s r.policy p
    | .lost _ start =>
      let m := m.openFresh s r.policy p
      let x := m.slot s
      let entry := (lastMarker markers).bind fun k => (k.entryFor s).bind fun e => if e.start = start then some (k, e) else none
      match entry with
      | some (k, e) => gapReason1 s k e m 0 x.streams
      | none => gapReason2 s (seqBase x.start) m 0 x.streams
  let m := m.modSlot s fun x => { x with
    prev := prev, hostAddr := r.source, hostAlt := r.hostAlt, hostQpn := r.hostQpn, hostPsn := r.hostPsn, pmtu := min r.pmtu 2, nonce := nonce,
    rxPsn := r.hostPsn % 2 ^ 24, nak := none, migReq := false, others := x.others.filter fun o => o.stream.isSome,
    rate := m.lineRate r.ethPort, cnpAt := none, tries := 0, authOk := false, authFail := false, connAt := m.now, rateAt := m.now }
  let m := (m.put (F.REC_SESS_STATE_PORT s) r.ethPort).putB (F.REC_SESS_STATE_ON_ALT s) (r.ethPort != p.primary)
  ((m.put (F.REC_SESS_STATE_STATE s) 1).put (F.REC_SESS_STATE_SECURE s) 0).syncSlot s

/-- HELLO_TIMEOUT: no Hello has come 1 s after an OK reply, and the slot returns to its previous state (R379). -/
def Mach.helloTimeout (m : Mach) (s : Nat) : Mach :=
  if m.sessState s == 1 then (m.reachNs ((m.slot s).connAt + 1000000000)).unconnect s else m

/-- CONNECT_REQ (R379): a repeated request within 10 s has the same reply; else the checks of Table 16-4 run, and a CONNECT_REP is returned, once the neighbour
of the host is resolved (R373). -/
def State.connectReq (s : State) (r : ConnectReq) : State :=
  let m := s.m
  if !m.hears r.ethPort || !m.familyUp r.ethPort r.source || decide (2 < r.pmtu) then s
  else
    let m := m.txTo r.ethPort r.source 1
    if m.recs.connects.any fun e => e.source == r.source && e.qpn == r.hostQpn && decide (m.now ≤ e.time + 10000000000) then { s with m := m }
    else
      let old := m.recs.connects.filter fun e => decide (m.now ≤ e.time + 10000000000)
      let (k, m) := m.fresh
      let answer (m : Mach) (status slot pmtu start : Nat) (alt : BitVec 128) : Mach :=
        let f (i : Nat) : Nat := Config.openValue (k + i)
        { m with recs := { m.recs with connects :=
            ⟨r.source, r.hostQpn, m.now, status, slot, pmtu, start, f 1 % 2 ^ 24, f 2 % 2 ^ 24, f 3 % 2 ^ 64, f 4 % 2 ^ 32, Config.nonce k, alt⟩ :: old }
                 free := m.free + 4 }
      match m.checkConnect r, m.boot.policies[r.policy]? with
      | .inl plan, some p =>
        let m := m.connectSlot s.nv.markers r p plan (Config.nonce k)
        let alt := match p.alt with
          | some n => if (unmap4 r.source).isSome then mapped4 (m.get (F.REC_IP4_ADDR_ADDR n)) else BitVec.ofNat 128 (m.ip6 n)
          | none => 0
        let psn := Config.openValue (k + 2) % 2 ^ 24
        let m := m.modSlot plan.slot fun x => { x with devAlt := alt, psn := psn }
        { s with m := answer m 0 plan.slot (min r.pmtu 2) (m.slot plan.slot).start alt }
      | .inr e, _ =>
        let m := if e = 4 then m.bump F.REC_REFUSE_CNT_FULL else if e = 3 then m else m.bump F.REC_REFUSE_CNT_POLICY
        { s with m := (answer m e 0xFF 0 0 0).emit 13 2 0 (evArg 0 e 0) }
      | .inl _, none => s

/-! ### Management commands (R399) -/

/-- The bits of a management command that are an access (R70, R77). -/
def Mach.sessionAccess (m : Mach) (h : CmdHead) : BusAccess := m.accessOf (.session h.slot) h.view

/-- Whether a SEND of `len` bytes of a slot's host reaches the record engine (R374): one of up to 4,096 bytes. -/
def Mach.sendArrives (m : Mach) (s len : Nat) : Bool :=
  decide (s < 64) && (m.isOpen s || m.sessState s == 1) && m.hears (m.get (F.REC_SESS_STATE_PORT s)) && decide (len ≤ 4096)

/-- A NAK to a slot's host (Table 16-1). -/
def Mach.sendNak (m : Mach) (s : Nat) (k : Nak) : Mach := (m.modSlot s fun x => { x with nak := some k }).txSess s 1

/-- A message of a slot's host of `len` bytes is taken: its packets have come in the order of their PSNs (R374). -/
def Mach.taken (m : Mach) (s len : Nat) : Mach := m.modSlot s fun x => { x with rxPsn := (x.rxPsn + max 1 (packets x.pmtu len)) % 2 ^ 24 }

/-- The bytes of a reply's body (Table 16-7). The widths of the HELLO reply's fields, which the spec does not give, are those of Table 16-3 and of the Hello (DESIGN
CHOICE, log entry 83). -/
def ReplyBody.bytes : ReplyBody → List Byte
  | .empty => []
  | .hello major minor start base ps => leBytes 1 major ++ leBytes 1 minor ++ leBytes 2 0 ++ leBytes 4 start ++ leBytes 8 base ++ ps.flatMap (leBytes 8)
  | .signature l => l
  | .words ws => ws.flatMap fun w => leBytes 4 w.toNat
  | .cert total part => leBytes 4 total ++ part
  | .time ns => leBytes 8 ns

/-- The bytes of a reply: its 16-byte header, with LEN the length of its body, and the body (R399). -/
def Reply.bytes (r : Reply) : List Byte :=
  leBytes 2 r.op ++ leBytes 2 r.status ++ leBytes 4 r.cmdSeq ++ leBytes 4 r.body.bytes.length ++ leBytes 4 0 ++ r.body.bytes

/-- Where a slot's host takes the reply to a CMD_SEQ (R399). -/
def Slot.replyAt (x : Slot) (seq : Nat) : Nat := x.replyVa.toNat + 512 * (seq % 8)

/-- The reply to a command. -/
def Slot.replyTo (x : Slot) (op status seq : Nat) (body : ReplyBody) : Reply := ⟨op, status, seq, body, x.replyAt seq, x.replyRk⟩

/-- Write a reply into host memory. -/
def Mach.writeReply (m : Mach) (s : Nat) (r : Reply) : Mach :=
  ({ m with recs := { m.recs with reply := some (s, r) } }).sendOther s none ⟨r.va, r.rkey, r.bytes⟩

/-- A slot has performed a command with a reply: the reply is stored among the last eight, and the next CMD_SEQ is expected (R399). -/
def Slot.answered (x : Slot) (seq : Nat) (r : Reply) : Slot :=
  { x with cmdFirst := if x.cmdNext.isNone then seq else x.cmdFirst, cmdNext := some ((seq + 1) % 2 ^ 32), replies := (r :: x.replies).take 8 }

/-- A command has been performed: its reply is stored and written, and the next CMD_SEQ is expected. -/
def Mach.performed (m : Mach) (h : CmdHead) (op status : Nat) (body : ReplyBody) : Mach :=
  let r := (m.slot h.slot).replyTo op status h.cmdSeq body
  let m := m.modSlot h.slot fun x => x.answered h.cmdSeq r
  if m.isOpen h.slot then m.writeReply h.slot r else m

/-- What becomes of a command by its CMD_SEQ: perform it, write a stored reply again, do nothing where it was performed and its reply is no longer among the last
eight that are kept (Table 18-3), or answer BAD_CMD. -/
inductive SeqRule where
  | perform
  | again (r : Reply)
  | old
  | bad
deriving DecidableEq, Repr

/-- The rule of CMD_SEQ. -/
def Mach.seqRule (m : Mach) (h : CmdHead) : SeqRule :=
  let x := m.slot h.slot
  match x.cmdNext with
  | none => .perform
  | some e =>
    if h.cmdSeq = e then .perform
    else match x.replies.find? fun r => r.cmdSeq == h.cmdSeq with
      | some r => .again r
      | none => if (h.cmdSeq + 2 ^ 32 - x.cmdFirst) % 2 ^ 32 < (e + 2 ^ 32 - x.cmdFirst) % 2 ^ 32 then .old else .bad

/-- A command of `len` bytes for a session that has been greeted: the receive queue (R375), CMD_SEQ, then the restriction of AUTH_REQ (R382; `free` names the
commands accepted before AUTH), then its effect; an OP that Table 16-7 does not have is BAD_CMD. -/
def Mach.command (m : Mach) (h : CmdHead) (op len : Nat) (free : Bool) (f : Mach → Mach) : Mach :=
  let op := h.otherOp.getD op
  let free := free && h.otherOp.isNone
  if !m.sendArrives h.slot len || !m.isOpen h.slot then m
  else if 8 ≤ h.queued then m.sendNak h.slot (.notReady 640000)
  else
    let m := m.taken h.slot len
    match m.seqRule h with
    | .again r => m.writeReply h.slot r
    | .old => m
    | .bad => m.writeReply h.slot ((m.slot h.slot).replyTo op 2 h.cmdSeq .empty)
    | .perform =>
      if m.authWait h.slot && !free then m.performed h op 4 .empty
      else if h.otherOp.isSome then m.performed h op 2 .empty
      else f m

/-- The streams of a slot with the rings of a Hello: P starts at the Hello's CI, and keeps its value on a resume (R383, R398); CAPTURE with FORM 1 is refused
under minor 0 (R381). -/
def giveRings (minor : Nat) (resumed : Bool) : List Stream → List HelloRing → List Stream
  | t :: r, h :: q =>
    let t := { t with ringVa := h.ringVa, ringLog2 := h.ringLog2, rkey := h.rkey, piVa := h.piVa, refused := minor == 0 && t.typ == 5 && bitOf t.opts 0 }
    let t := if !resumed then { t with p := h.ci, pi := h.ci, ci := h.ci }
             else if t.ci ≤ h.ci ∧ h.ci ≤ t.p then { t with ci := h.ci } else t
    t :: giveRings minor resumed r q
  | l, _ => l

/-- The number of streams of a resuming Hello whose CI is ignored (R385). -/
def badRings : List Stream → List HelloRing → Nat
  | t :: r, h :: q => bit (!(decide (t.ci ≤ h.ci) && decide (h.ci ≤ t.p))) + badRings r q
  | _, _ => 0

/-- The records of a journal at or below the consumer indices of its streams are acknowledged. -/
def dropBelow : Nat → List Stream → List JRec → List JRec
  | _, [], l => l
  | i, t :: r, l => dropBelow (i + 1) r (dropConsumed i t.ci l)

/-- Whether a Hello's rings are of a size R383 permits. -/
def ringsFit (streams : List Stream) (rings : List HelloRing) : Bool :=
  rings.length == streams.length &&
  (streams.zip rings).all fun e => decide (20 ≤ e.2.ringLog2) && decide (e.2.ringLog2 ≤ 36) && decide (2 * maxRec e.1.typ ≤ 2 ^ e.2.ringLog2)

/-- Whether a resuming Hello gives every stream the rings of before (R398). -/
def ringsSame (streams : List Stream) (rings : List HelloRing) : Bool :=
  (streams.zip rings).all fun e => e.1.ringVa == e.2.ringVa && e.1.ringLog2 == e.2.ringLog2 && e.1.piVa == e.2.piVa

/-- The minor of major 1 that a Hello settles: the lower of 1 and the host's highest (R381). -/
def chooseMinor (versions : List (Nat × Nat)) : Option Nat :=
  match versions.filter fun v => v.1 == 1 with
  | [] => none
  | l => some (min 1 (l.foldl (fun a v => max a v.2) 0))

/-- A Hello, or another SEND in its place, is refused: its reply, and the slot returns to its previous state (R381, R383, R398). -/
def Mach.refuseHello (m : Mach) (h : CmdHead) (status : Nat) : Mach :=
  let r := (m.slot h.slot).replyTo 1 status h.cmdSeq .empty
  ((m.modSlot h.slot fun x => x.answered h.cmdSeq r).writeReply h.slot r).unconnect h.slot

/-- The records of a journal that have not been sent carry the minor version that the Hello settles; one that is sent again keeps every byte (R381, R393). -/
def renegotiate (minor : Nat) (l : List JRec) : List JRec :=
  l.map fun r => if r.sent.isSome then r else { r with body := { r.body with minor := minor } }

/-- Open a slot by its Hello: mask, version and rings; the reply; the records above CI are sent again (R381, R383, R392, R398).
Records of a stream that its version refuses leave the journal (DESIGN CHOICE, log entry 83). -/
def Mach.openSession (m : Mach) (h : CmdHead) (minor : Nat) (evtMask : Word) (rings : List HelloRing) : Mach :=
  let s := h.slot
  let resumed := (m.slot s).greeted
  let m := if resumed then m.bumpBy F.REC_FAILOVER_CNT_CI_BAD (badRings (m.slot s).streams rings) else m
  let m := m.modSlot s fun x =>
    let streams := giveRings minor resumed x.streams rings
    { x with greeted := true, minor := minor, mask := evtMask.toNat, streams := streams,
             journal := (renegotiate minor (x.journal.filter fun r => !(streams.getD r.body.stream { typ := 0 }).refused) |> dropBelow 0 streams), tries := 0 }
  let m := m.put (F.REC_SESS_STATE_STATE s) 2
  let x := m.slot s
  let m := m.performed h 1 0 (.hello 1 minor x.start (seqBase x.start) (x.streams.map (·.p)))
  let m := m.emit 13 0 0 (evArg s 0 0)
  if resumed then (m.resend s).trySend s else m.trySend s

/-- HELLO. -/
def State.hello (s : State) (h : CmdHead) (versions : List (Nat × Nat)) (replyVa : BitVec 64) (replyRkey evtMask : Word) (rings : List HelloRing) : State :=
  let m := s.m
  let len := 56 + 32 * rings.length
  if m.isOpen h.slot then s.upd fun m => m.command h 1 len true fun m => m.performed h 1 2 .empty
  else if !m.sendArrives h.slot len || h.otherOp.isSome then s
  else if 8 ≤ h.queued then s.upd fun m => m.sendNak h.slot (.notReady 640000)
  else
    let m := (m.taken h.slot len).modSlot h.slot fun x => { x with replyVa := replyVa, replyRk := replyRkey }
    let x := m.slot h.slot
    let done (m : Mach) : State := { s with m := m }
    match m.seqRule h with
    | .again r => done (m.writeReply h.slot { r with va := x.replyAt h.cmdSeq, rkey := replyRkey })
    | .old => done m
    | .bad => done (m.writeReply h.slot (x.replyTo 1 2 h.cmdSeq .empty))
    | .perform =>
      if versions.length = 0 ∨ 4 < versions.length then done (m.refuseHello h 2)
      else
        match chooseMinor versions with
        | none => done ((m.bump F.REC_REFUSE_CNT_VERSION).refuseHello h 5)
        | some minor =>
          if !ringsFit x.streams rings then done (m.refuseHello h 2)
          else if x.greeted && !ringsSame x.streams rings then done (m.refuseHello h 6)
          else
            let m := m.openSession h minor evtMask rings
            done (if m.authWait h.slot then m else m.attest h.slot 0 s.nv.otp.secVer s.nv.serial.toNat)

/-- The bytes of a 128-bit nonce. -/
def nonceBytes (n : BitVec 128) : List Byte := beBytes 16 n.toNat

/-- AUTH (R382). -/
def State.auth (s : State) (h : CmdHead) (keyIndex : Nat) (hostNonce : BitVec 128) (sigR sigS : BitVec 256) : State :=
  s.upd fun m => m.command h 2 97 true fun m =>
    let x := m.slot h.slot
    let tail := leBytes 1 h.slot ++ leBytes 4 x.start
    let asked := Config.sha256 (nonceBytes x.nonce ++ nonceBytes hostNonce ++ tail)
    let good := match m.boot.mgmtKeys[keyIndex]? with | some k => Config.ecdsaVerify k.x k.y asked sigR sigS | none => false
    let secure := match m.boot.mgmtKeys[keyIndex]? with | some k => k.secure | none => false
    if good then
      let first := m.authWait h.slot
      let m := m.performed h 2 0 (.signature (Config.deviceSign (Config.sha256 (nonceBytes hostNonce ++ nonceBytes x.nonce ++ tail))))
      let m := (m.modSlot h.slot fun x => { x with authOk := true }).putB (F.REC_SESS_STATE_SECURE h.slot) secure
      let m := if first then (m.attest h.slot 0 s.nv.otp.secVer s.nv.serial.toNat).resendOf h.slot fun i => i != 0 else m
      m.trySend h.slot
    else
      let at_ := m.now
      let m := m.modSlot h.slot fun x => { x with authFail := true, authAt := at_ }
      (m.bump F.REC_REFUSE_CNT_AUTH).performed h 2 3 .empty

/-- AUTH_FAIL_CLOSE: 1 ms after a failed AUTH the session is closed (R382). -/
def Mach.authFailClose (m : Mach) (s : Nat) : Mach :=
  if m.isOpen s && (m.slot s).authFail then (m.reachNs ((m.slot s).authAt + 1000000)).keepSlot s 3 else m

/-- Whether the words of a READ or WRITE may be performed (R399). -/
def wordsFit (h : CmdHead) (addr count : Nat) : Bool :=
  decide (1 ≤ count) && decide (count ≤ 64) && addr % 4 == 0 && decide (addr < 2 ^ 25) && (!h.inc || decide (addr + 4 * (count - 1) ≤ 0x1FFFFFC))

/-- Read `n` words. -/
def readWords (h : CmdHead) (step : Nat) : Nat → Nat → Mach → Mach × List Word × Bool
  | 0, _, m => (m, [], false)
  | n + 1, a, m =>
    let m := m.busRead (m.sessionAccess h) a
    let w := m.bus.data
    let e := m.bus.err
    let (m, l, e') := readWords h step n (a + step) m
    (m, w :: l, e || e')

/-- Write words until one ends with ERR; a request left when the session closes is discarded (R70). -/
def writeWords (h : CmdHead) (step : Nat) : List Word → Nat → Mach → Mach × Bool
  | [], _, m => (m, false)
  | w :: t, a, m =>
    if !m.isOpen h.slot then (m, true)
    else
      let m := m.busWrite (m.sessionAccess h) a w.toNat
      if m.bus.err then (m, true) else writeWords h step t (a + step) m

/-- READ. -/
def Mach.readCommand (m : Mach) (h : CmdHead) (addr : Word) (count : Nat) : Mach :=
  m.command h 3 21 false fun m =>
    if !wordsFit h addr.toNat count then m.performed h 3 2 .empty
    else
      let (m, l, e) := readWords h (if h.inc then 4 else 0) count addr.toNat m
      m.performed h 3 (bit e) (.words l)

/-- WRITE. -/
def Mach.writeCommand (m : Mach) (h : CmdHead) (addr : Word) (words : List Word) : Mach :=
  m.command h 4 (21 + 4 * words.length) false fun m =>
    if !wordsFit h addr.toNat words.length then m.performed h 4 2 .empty
    else
      let (m, e) := writeWords h (if h.inc then 4 else 0) words addr.toNat m
      m.performed h 4 (bit e) .empty

/-- GET_CERT. -/
def State.getCert (s : State) (h : CmdHead) (offset : Nat) : State :=
  s.upd fun m => m.command h 5 20 true fun m => m.performed h 5 0 (.cert s.nv.cert.length ((s.nv.cert.drop offset).take 256))

/-- ATTEST_NOW: the record goes into the commanding session alone (R59). -/
def State.attestNow (s : State) (h : CmdHead) (nonce : BitVec 128) : State :=
  s.upd fun m => m.command h 6 32 false fun m =>
    (m.performed h 6 0 .empty).attest h.slot (leNat (nonceBytes nonce)) s.nv.otp.secVer s.nv.serial.toNat

/-- CLOSE: the reply, then the slot is freed and its journal discarded (R398). -/
def Mach.closeCommand (m : Mach) (h : CmdHead) : Mach :=
  m.command h 7 16 true fun m => (((m.performed h 7 0 .empty).freeSlot h.slot 2).emit 13 1 0 (evArg h.slot 2 0))

/-- PING. -/
def Mach.pingCommand (m : Mach) (h : CmdHead) : Mach := m.command h 8 16 true fun m => m.performed h 8 0 (.time m.now)

/-! ### The transport (R375, R376, R384, R385) -/

/-- DOORBELL_WRITE: a consumer index is taken, or ignored and counted; it is ignored where the slot has no such stream. Any other operation of the host is answered
with a remote-access NAK (Table 16-1). -/
def Mach.doorbell (m : Mach) (s : Nat) (op : HostOp) (ci : Nat) : Mach :=
  if !m.isOpen s || !(m.slot s).greeted || !m.hears (m.get (F.REC_SESS_STATE_PORT s)) then m
  else
    match op with
    | .index i =>
      let m := m.taken s 8
      let t := (m.slot s).streams.getD i { typ := 0 }
      if (m.slot s).streams.length ≤ i then m
      else if t.ci ≤ ci ∧ ci ≤ t.p then
        (m.modSlot s fun x => { x with streams := listPut x.streams i { t with ci := ci }, journal := dropConsumed i ci x.journal }).trySend s
      else m.bump F.REC_FAILOVER_CNT_CI_BAD
    | _ => m.sendNak s .remoteAccess

/-- RDMA_ACK: the `n` writes sent first are accepted, and their records leave the journal (R396). -/
def Mach.rdmaAck (m : Mach) (s n : Nat) : Mach :=
  if m.isOpen s && m.hears (m.get (F.REC_SESS_STATE_PORT s)) then
    let at_ := m.now
    (m.modSlot s fun x => { x.accept n with tries := 0, ackAt := at_ }).trySend s
  else m

/-- ACK_TIMEOUT: 4.096 µs × 2^TIMEOUT have passed with something unacknowledged on an UP lane, a failed try; after RETRY of them the path has failed, and before that
everything unacknowledged is sent again. -/
def Mach.ackTimeout (m : Mach) (s : Nat) : Mach :=
  if m.isOpen s && m.laneUp (m.get (F.REC_SESS_STATE_PORT s)) && (m.slot s).owed then
    let m := m.reachNs ((m.slot s).ackAt + 4096 * 2 ^ m.get F.REC_CTRL_TIMEOUT)
    let m := m.modSlot s fun x => { x with tries := x.tries + 1 }
    if m.get F.REC_CTRL_RETRY ≤ (m.slot s).tries then m.pathFail s else m.resend s
  else m

/-- SEQUENCE_NAK: everything unacknowledged is sent again. -/
def Mach.sequenceNak (m : Mach) (s : Nat) : Mach := if m.isOpen s && m.hears (m.get (F.REC_SESS_STATE_PORT s)) then m.resend s else m

/-- CNP_RECEIVE: the rate is halved, at most once in 50 µs, to no less than 100 Mb/s. -/
def Mach.cnpReceive (m : Mach) (s : Nat) : Mach :=
  if m.isOpen s && m.hears (m.get (F.REC_SESS_STATE_PORT s)) then
    let at_ := m.now
    let m := (m.bump F.REC_CNP_CNT_RX).modSlot s fun x => { x with rateAt := at_ }
    let halve := match (m.slot s).cnpAt with | some t => decide (t + 50000 ≤ m.now) | none => true
    if halve then m.modSlot s fun x => { x with rate := max (x.rate / 2) 100000000, cnpAt := some m.now } else m
  else m

/-- RATE_RECOVERY: 1 ms without a CNP raises the rate by 1/16 of the line rate. -/
def Mach.rateRecovery (m : Mach) (s : Nat) : Mach :=
  if m.isOpen s then
    let m := m.reachNs ((m.slot s).rateAt + 1000000)
    let line := m.lineRate (m.get (F.REC_SESS_STATE_PORT s))
    let at_ := m.now
    m.modSlot s fun x => { x with rate := min line (x.rate + line / 16), rateAt := at_ }
  else m

/-! ### Housekeeping records (R390) -/

/-- The HOUSEKEEPING payload. -/
def Mach.hkPayload (m : Mach) : List Byte :=
  leBytes 2 1 ++ leBytes 2 32 ++ leBytes 4 (m.word F.SYS_POWER_PFAIL.addr) ++ leBytes 4 (m.word F.SYS_PWR_STATE_PSTATE.addr) ++
  leBytes 4 (m.word F.CLK_REG_STATUS_SRC.addr) ++
  (List.range 32).flatMap fun c => leBytes 4 (m.word (F.HKC_VAL c).addr) ++ leBytes 4 (m.word (F.HKC_RAW_CODE c).addr)

/-- HOUSEKEEPING_PERIOD_END: a record for the streams of that period, stamped with the whole multiple of the period. -/
def Mach.housekeeping (m : Mach) (periodMs : Nat) : Mach :=
  if !m.fabricUp || periodMs = 0 || decide (65535 < periodMs) then m
  else
    let ns := periodMs * 1000000
    let m := m.syncIdle
    let ep := m.epochOf 4
    m.draft { typ := 7, port := 2, flags := bit ep.2, epoch := ep.1, lsb := m.lsbAt (m.now / ns * ns), bodies := [m.hkPayload], period := periodMs }

/-! ### UDP (R400) -/

/-- The datagrams of a record (R400): a fragment header, SEQ bits [31:0], the fragment's index and their count, and up to 8,192 bytes of the padded record. -/
def Rec.fragments (r : Rec) : List (List Byte) :=
  let b := r.bytes
  let n := ceilDiv r.len 8192
  (List.range n).map fun i => leBytes 4 r.seq ++ leBytes 2 i ++ leBytes 2 n ++ (b.drop (8192 * i)).take 8192

/-- Send a record of a UDP policy to its HOST at its UDP_PORT, through PRIMARY (R400). -/
def Mach.udpRec (m : Mach) (pol : Policy) (r : Rec) : Mach :=
  let l := r.fragments.map fun b => (⟨pol.host, pol.udpPort, b⟩ : Datagram)
  ({ m with recs := { m.recs with udpOut := m.recs.udpOut ++ l } }).txTo pol.primary pol.host (ceilDiv r.len 8192)

/-- Send a record on stream `i` of a UDP slot in fragments of up to 8,192 bytes, or drop it; the record after a drop follows a GAP record of REASON 7. -/
def Mach.udpOn (m : Mach) (d : Draft) (s : Nat) (pol : Policy) (drop : Bool) (i : Nat) (t : Stream) : Mach :=
  let (payload, fl) := formBody t d
  let typ := if d.gap then 9 else d.typ
  let next (m : Mach) : Mach :=
    let m := m.modSlot s fun x => { x with k := x.k + 1 }
    let x := m.slot s
    { m with recs := { m.recs with lastK := mapPut (0, 0) m.recs.lastK s (x.start, x.k) } }
  if drop then
    let seq := seqBase (m.slot s).start + (m.slot s).k
    let m := m.modStream s i fun t => { t with
      missed := some (widen t.missed d), udpGap := some (match t.udpGap with | some g => (g.1, seq) | none => (seq, seq)) }
    (next m).bump F.REC_UDP_DROP_COUNT
  else
    let m := match t.udpGap, t.missed with
      | some g, some x =>
        let dg : Draft := { typ := t.typ, port := t.port, beat := x.beat0, tick := x.tick0, lsb := m.lsbNow, first := x.first, count := x.count, epoch := x.epoch }
        let r := m.formRec s i 9 dg (bit x.part) (gapPayload 7 0 g.1 g.2 x.beat0 x.tick0 x.beat1 x.tick1 x.first x.count)
        let m := m.modStream s i fun t => { t with missed := none, udpGap := none }
        ((next m).udpRec pol r).bump F.REC_GAP_CNT_COUNT
      | _, _ => m
    let r := m.formRec s i typ d (d.flags + fl) payload
    let m := if typ = 9 then m.bump F.REC_GAP_CNT_COUNT else m
    (next (m.modSlot s fun x => { x with holdFlag := x.holdFlag && typ != 6 })).udpRec pol r

/-- Send a draft on the streams of a UDP slot from number `i` up. -/
def udpStreams (d : Draft) (s : Nat) (pol : Policy) (drop : Bool) : Mach → Nat → List Stream → Mach
  | m, _, [] => m
  | m, i, t :: r => udpStreams d s pol drop (if m.wants s t d then m.udpOn d s pol drop i t else m) (i + 1) r

/-- The slot of UDP policy `p`, opened when this start has not opened it (R393). -/
def Mach.udpSlot (m : Mach) (p : Nat) (pol : Policy) : Mach :=
  let s := 64 + p
  let st := m.get F.SYS_BOOT_EPOCH
  if (m.slot s).streams ≠ [] ∧ (m.slot s).start = st then m
  else
    let lk := mapGet (0, 0) m.recs.lastK s
    m.putSlot s { start := st, k := if lk.1 = st then lk.2 else 0, streams := pol.slotStreams, holdFlag := m.on F.SYS_STATE_HOLDUP_SHORT }

/-- UDP_RECORD_SEND: the oldest record that waits for a UDP policy is sent, or dropped when the port is at its line rate. It waits on while its port is held or its
lane is not UP (R356, R360), and while the neighbour of its HOST is not resolved, which the port then asks for (R373). -/
def Mach.udpSend (m : Mach) (p : Nat) (atLineRate : Bool) : Mach :=
  match m.boot.policies[p]?, m.recs.udpReady.find? (fun e => e.1 == p) with
  | some pol, some e =>
    let done : Mach := { m with recs := { m.recs with udpReady := m.recs.udpReady.erase e, udpOut := [] } }
    if !pol.udp || !m.on F.REC_CTRL_UDP_EN then done
    else if !m.portFree pol.primary then m
    else if !m.reaches pol.primary pol.host then m.txTo pol.primary pol.host 0
    else
      let m := done.udpSlot p pol
      udpStreams e.2 (64 + p) pol atLineRate m 0 (m.slot (64 + p)).streams
  | _, _ => m

end Sys2Proof.Machine
end

