-- ==== Sys2Proof/Machine/Rows.lean ====
section
/-!
DEFINITION. Machine/Rows.lean: what the meanings of the commands share: when a block runs, writes by a master, and the small operations that stand in
no other file: the crystals' comparison (R98), the interval unit's timeout (R116), EVT_OUT (R95), the Raman frame boundary (R226).
-/
namespace Sys2Proof.Machine

/-- An effect that takes place under a condition; else the command changes nothing (log entry 3). -/
def State.under (s : State) (c : Bool) (f : Mach → Mach) : State := if c then s.upd f else s

/-- An effect of a block that works while the core runs, in RUN, BEAT-IDLE and DOZE (Table 18-4). -/
def State.live (s : State) (f : Mach → Mach) : State := s.under s.m.fabricUp f

/-- The same for a thing numbered below `n`. -/
def State.liveAt (s : State) (n i : Nat) (f : Mach → Mach) : State := s.under (s.m.fabricUp && decide (i < n)) f

/-- An effect of a block that works while the core is out of reset, whatever the power state, for a thing numbered below `n`. -/
def State.aliveAt (s : State) (n i : Nat) (f : Mach → Mach) : State := s.under (s.m.alive && decide (i < n)) f

/-- An effect that takes place while the block has its supply. -/
def State.powered (s : State) (f : Mach → Mach) : State := s.under s.m.pwr.supply f

/-- An effect after which the boot record holds the counter that a completed commit has taken (R60). -/
def State.saves (s : State) (f : Mach → Mach) : State := s.saved (s.upd f)

/-- The same for an effect that takes place while the core runs, in RUN, BEAT-IDLE and DOZE. -/
def State.liveSaves (s : State) (f : Mach → Mach) : State := if s.m.fabricUp then s.saves f else s

/-- A register write by a master. -/
def State.writes (s : State) (who : Master) (addr w : Nat) : State := s.saves fun m => m.writeBy who addr w

/-- A word with a key in its upper half. -/
def keyed (key : Half) (low : Nat) : Nat := key.toNat * 65536 + low % 65536

/-- XO_COMPARE_WINDOW (R98): Δ is kept; two windows in a row that differ by more than 20 ppm fail the crystal farther from a LOCKED source, or issue
XO_DISAGREE without one. -/
def Mach.xoCompare (m : Mach) (delta : Int) (xo1Farther : Bool) : Mach :=
  if !(m.on F.CLK_XO_STATUS_XO0_OK && m.on F.CLK_XO_STATUS_XO1_OK) then m
  else
    let n := if 20000000 < delta.natAbs then m.clk.disagree + 1 else 0
    let m := { m with clk := { m.clk with delta := delta, disagree := n } }
    if n < 2 then m
    else if m.get F.CLK_REG_STATUS_STATE = 2 then
      let m := { m with clk := { m.clk with disagree := 0 } }
      if m.on F.CLK_XO_STATUS_ACTIVE == xo1Farther then m.crystalFail else m.standbyFail
    else if n = 2 then m.emit 5 2 0 0
    else m

/-- IU_TIMEOUT (R116): an armed unit whose TIMEOUT has run since ARM completes with result 0 and TIMEOUT. -/
def Mach.iuTimeout (m : Mach) (u : Nat) : Mach :=
  let t := m.get (F.TIS_IU_CTRL_TIMEOUT u)
  if m.on (F.TIS_IU_CTRL_ARM u) && t != 0
  then (m.reachNs ((mapGet {} m.tis.iu u).armAt + t * 1000000)).iuComplete u 0 false false false false true else m

/-- EVT_OUT_PULSE_END (R95): the pulse on a pin ends, PULSE_US after the latest request. -/
def Mach.pulseEnd (m : Mach) (k : Nat) : Mach :=
  if bitOf m.evt.pulsing k then
    let m := m.reachNs (mapGet 0 m.evt.pulseAt k + m.get F.EVT_OUT_CTRL_PULSE_US * 1000)
    ({ m with evt := { m.evt with pulsing := setBit m.evt.pulsing k false } }).driveLevels
  else m

/-- RAMAN_FRAME_BOUNDARY (R225, R226): once the last bin of its last shot has entered the accumulators, at the end of the shot's span (R221), which both ports
share, a port whose frame holds its SHOTS closes it, applies its Raman domain, and goes on to the next frame, or stops when the
commit disables its Raman path. -/
def Mach.ramanBoundary (m : Mach) (p : Port) : Mach :=
  if m.inFrame p && decide (m.get F.DTS_FRAME_SHOTS ≤ (m.ramanOf p).frame.shots) && decide (0 < (m.ramanOf p).frame.shots) then
    let m := match m.shotAt with | some e => m.reach (e + m.shotSpan) | none => m
    let m := (m.closeFrame p).applyDomain (2 + portIx p)
    if m.ramanOn p then m.frameNext p else m.ramanStop p
  else m

/-- Whether a restart of tile counting of a port is over: tile counting has gone on, and no row of it is still being formed. -/
def Mach.rowsOver (m : Mach) (p : Port) (restart : Nat) : Bool :=
  restart != (m.acqOf p).tiles0 && (m.acqOf p).rows.all fun r => r.restart != restart

/-- Whether a port's zone interval ends (R279): ZROWS rows have been summed, or tile counting has restarted or acquisition stopped since and the results
of every tile before that have been handed on. -/
def Mach.zoneDue (m : Mach) (p : Port) (f : Tile) : Bool :=
  (decide (0 < (m.zone p).rows) && decide (f.set.zRows ≤ (m.zone p).rows)) ||
  (m.rowsOver p f.id.restart && ((m.train.ready.at p).all fun t => t.id.restart != f.id.restart) &&
    ((m.train.order.at p).all fun t => t.restart != f.id.restart))

/-- Whether a port's overview interval ends (R280). -/
def Mach.overDue (m : Mach) (p : Port) (f : Tile) : Bool :=
  (decide (0 < (m.zone p).ovRows) && decide (f.set.ovRows ≤ (m.zone p).ovRows)) || m.rowsOver p f.id.restart

/-- ZONE_INTERVAL_END (R279). -/
def Mach.zoneInterval (m : Mach) (p : Port) : Mach :=
  match (m.zone p).first with
  | some f => if m.zoneDue p f then m.zoneClose p else m
  | none => m

/-- OVERVIEW_INTERVAL_END (R280). -/
def Mach.overInterval (m : Mach) (p : Port) : Mach :=
  match (m.zone p).ovFirst with
  | some f => if m.overDue p f then m.overClose p else m
  | none => m

/-- One tick of the 1.2 GHz clock with no command waiting: an entry into NAP or SLEEP that has begun completes, the time bases advance, each running engine issues the bundle at its pc, frames whose
egress is due leave (log entry 1), and PSTATE follows the gating of slices (R431). -/
def Mach.tick (m : Mach) : Mach :=
  let m := m.lowEntry.advance 1
  if m.fabricUp then m.jewelsTick.fwdDrain.syncIdle else m

end Sys2Proof.Machine
end

