-- ==== Sys2Proof/Machine/ExecArray.lean ====
section
/-!
DEFINITION. Machine/ExecArray.lean: the meanings of the conversion array's, the coherent pipe's and the Raman path's commands (chapters 08 to 10).
-/
namespace Sys2Proof.Machine

/-- GAP_LENDING_START (R181). -/
def execGapLendingStart (p : Port) (s : State) : Out :=
  .next (s.live fun m => m.lendStart p)

/-- LENDING_END (R181). -/
def execLendingEnd (p : Port) (s : State) : Out :=
  .next (s.live fun m => m.lendEnd p)

/-- BACKGROUND_MEASUREMENT (R410, R182). -/
def execBackgroundMeasurement (slice : Nat) (meas : SliceMeas) (bitStuck : Bool) (s : State) : Out :=
  .next (s.live fun m => m.background slice meas bitStuck)

/-- CONVERSION_WATCHDOG (R183). -/
def execConversionWatchdog (slice : Nat) (s : State) : Out :=
  .next (s.live fun m => m.convWatchdog slice)

/-- SLICE_RETIRE (R183): a write of SPARE_CTRL. -/
def execSliceRetire (who : Master) (w : Word) (s : State) : Out :=
  .next (s.writes who F.ADC_SPARE_CTRL_KEY.addr w.toNat)

/-- RAMAN_BACKGROUND_MEASURE (R412). -/
def execRamanBackgroundMeasure (ofs gain : Int) (bitStuck : Bool) (s : State) : Out :=
  .next (s.live fun m => m.ramanBackground ofs gain bitStuck)

/-- RAW_WINDOW_GO (R188): a write of RAW_CTRL. -/
def execRawWindowGo (who : Master) (w : Word) (s : State) : Out :=
  .next (s.writes who F.ADC_RAW_CTRL_GO.addr w.toNat)

/-- RAW_WINDOW_DONE (R189, R344). -/
def execRawWindowDone (beats : List (List RawEntry)) (s : State) : Out :=
  .next (s.live fun m => m.rawDone beats)

/-- PIPE_TICK_EMIT (R191 to R214). -/
def execPipeTickEmit (p : Port) (cell : Nat) (lo hi : List PipeSample) (eccError : Bool) (s : State) : Out :=
  .next (s.liveSaves fun m => (m.pipeTick p cell lo hi eccError).drainEnd)

/-- RAMAN_FRAME_BOUNDARY (R226). -/
def execRamanFrameBoundary (p : Port) (s : State) : Out :=
  .next (s.liveSaves fun m => m.ramanBoundary p)

/-- RAMAN_IDLE_END (R226). -/
def execRamanIdleEnd (p : Port) (s : State) : Out :=
  .next (s.live fun m => m.ramanIdleEnd p)

/-- DTS_PROFILE_COMPLETE (R229 to R239). -/
def execDtsProfileComplete (p : Port) (s : State) : Out :=
  .next (s.live fun m => m.dtsComplete p)

end Sys2Proof.Machine
end

