-- ==== Sys2Proof/Machine/ExecBus.lean ====
section
/-!
DEFINITION. Machine/ExecBus.lean: the meanings of the register interface's commands (chapter 04).
-/
namespace Sys2Proof.Machine

/-- MGMT_READ (R85). -/
def execMgmtRead (cmd : Byte) (addr : Word) (s : State) : Out :=
  .next (s.upd fun m => m.mgmtRead cmd addr)

/-- MGMT_WRITE (R87). -/
def execMgmtWrite (cmd : Byte) (addr : Word) (data : List Word) (crc : Option Byte) (s : State) : Out :=
  .next (s.saves fun m => m.mgmtWrite cmd addr data crc)

/-- MGMT_STATUS (R87). -/
def execMgmtStatus (cmd : Byte) (s : State) : Out :=
  .next (s.upd fun m => m.mgmtStatus cmd)

/-- MGMT_FRAME_CUT (R87). -/
def execMgmtFrameCut (cmd : Byte) (addr : Word) (cut : FrameCut) (s : State) : Out :=
  .next (s.upd fun m => m.mgmtCut cmd addr cut)

/-- REGISTER_WRITE (R78). -/
def execRegisterWrite (who : Master) (addr : Nat) (w : Word) (s : State) : Out :=
  .next (s.writes who addr w.toNat)

/-- RC_READ (R78): a read whose RC fields clear. -/
def execRcRead (who : Master) (addr : Nat) (s : State) : Out :=
  .next (s.upd fun m => m.readBy who false addr)

/-- LATCHING_READ (R91, R92): a read that latches what goes with the low register. -/
def execLatchingRead (who : Master) (addr : Nat) (s : State) : Out :=
  .next (s.upd fun m => m.readBy who false addr)

/-- BIT_ALIAS_ACCESS (R81, R82). -/
def execBitAliasAccess (who : Master) (addr : Nat) (view : Bool) (write : Option Word) (s : State) : Out :=
  .next (if addr < 0x1000000 ∨ 0x2000000 ≤ addr then s
    else match write with
      | none => s.upd fun m => m.readBy who view addr
      | some w => s.saves fun m => m.writeLogBy who view addr w.toNat none)

/-- LOG_POP (R95): a write of EVT.LOG_POP. -/
def execLogPop (who : Master) (w : Word) (s : State) : Out :=
  .next (s.writes who F.EVT_LOG_POP_POP.addr w.toNat)

/-- EVT_OUT_PULSE_END (R95). -/
def execEvtOutPulseEnd (pin : Nat) (s : State) : Out :=
  .next (s.under (s.m.pwr.supply && decide (pin < 4)) fun m => m.pulseEnd pin)

end Sys2Proof.Machine
end

