-- ==== Sys2Proof/Machine/ExecCalibration.lean ====
section
/-!
DEFINITION. Machine/ExecCalibration.lean: the meanings of the calibration commands (chapter 17).
-/
namespace Sys2Proof.Machine

/-- CAL_COMMAND (R413, R414): a write of CAL.CMD. -/
def execCalCommand (who : Master) (w : Word) (s : State) : Out :=
  .next (s.writes who F.CAL_CMD_KEY.addr w.toNat)

/-- CAL_ABORT (R418): a write of CAL.ABORT. -/
def execCalAbort (who : Master) (w : Word) (s : State) : Out :=
  .next (s.writes who F.CAL_ABORT_KEY.addr w.toNat)

/-- DAC_SCOPE (R415). -/
def execDacScope (meas : DacMeas) (s : State) : Out :=
  .next (s.live fun m => m.dacScope meas)

/-- ADC_SCOPE (R414). -/
def execAdcScope (p : Port) (slices : List (SliceMeas × Bool)) (s : State) : Out :=
  .next (s.live fun m => m.adcScope p slices)

/-- CFE_SCOPE (R414). -/
def execCfeScope (p : Port) (rgain : List Nat) (iq : List Int) (s : State) : Out :=
  .next (s.live fun m => m.cfeScope p rgain iq)

/-- RFE_SCOPE (R414). -/
def execRfeScope (slices : List (SliceMeas × Bool)) (intGain : List Nat) (s : State) : Out :=
  .next (s.live fun m => m.rfeScope slices intGain)

/-- HKC_SCOPE (R414). -/
def execHkcScope (refUv zeroUv : Int) (offsets : List Int) (s : State) : Out :=
  .next (s.live fun m => m.hkcScope refUv zeroUv offsets)

/-- TIS_SCOPE (R414). -/
def execTisScope (edges : List (List Nat)) (s : State) : Out :=
  .next (s.live fun m => m.tisScope edges)

/-- FREQ_SCOPE (R416). -/
def execFreqScope (measHz32 : Nat) (s : State) : Out :=
  .next (s.live fun m => m.freqScope measHz32)

/-- CAL_RESULT_WRITE (R417): once the last scope has ended, the next module boundary comes; what applies there applies first, and the result is written. -/
def execCalResultWrite (s : State) : Out :=
  .next (if s.m.calBusy && s.m.cal.todo.isEmpty then s.liveSaves fun m => m.moduleBoundary else s)

end Sys2Proof.Machine
end

