-- ==== Sys2Proof/Machine/ExecChrono.lean ====
section
/-!
DEFINITION. Machine/ExecChrono.lean: the meanings of the zones' and the Chronograph's commands (chapter 12).
-/
namespace Sys2Proof.Machine

/-- ZONE_INTERVAL_END (R279). -/
def execZoneIntervalEnd (p : Port) (s : State) : Out :=
  .next (s.live fun m => m.zoneInterval p)

/-- OVERVIEW_INTERVAL_END (R280). -/
def execOverviewIntervalEnd (p : Port) (s : State) : Out :=
  .next (s.live fun m => m.overInterval p)

/-- CHANNEL_ROW_EVAL (R282 to R289). -/
def execChannelRowEval (c : Nat) (s : State) : Out :=
  .next (s.liveAt 32 c fun m => m.chanRow c)

/-- CAPTURE_TICK_READ (R292 to R294). -/
def execCaptureTickRead (slot : Nat) (s : State) : Out :=
  .next (s.liveAt 16 slot fun m => m.captureRead slot ((m.capture slot).bind m.captureEnd))

/-- CHR_ARM (R284): a write of CHR.ARM. -/
def execChrArm (who : Master) (w : Word) (s : State) : Out :=
  .next (s.writes who F.CHR_ARM.addr w.toNat)

/-- REARM_END (R284). -/
def execRearmEnd (c : Nat) (s : State) : Out :=
  .next (s.liveAt 32 c fun m => m.rearmEnd c)

end Sys2Proof.Machine
end

