-- ==== Sys2Proof/Machine/ExecClock.lean ====
section
/-!
DEFINITION. Machine/ExecClock.lean: the meanings of the clocks' and the interval stamper's commands (chapter 05).
-/
namespace Sys2Proof.Machine

/-- CRYSTAL_FAIL (R98). -/
def execCrystalFail (s : State) : Out :=
  .next (s.upd fun m => m.crystalFail)

/-- STANDBY_CRYSTAL_FAIL (R98 boundary). -/
def execStandbyCrystalFail (s : State) : Out :=
  .next (s.upd fun m => m.standbyFail)

/-- BOTH_CRYSTALS_FAIL (R98 boundary). -/
def execBothCrystalsFail (s : State) : Out :=
  .next (s.marked (s.m.bothFail))

/-- XO_FAIL_RESTART (R98 boundary). -/
def execXoFailRestart (good0 good1 : Bool) (s : State) : Out :=
  .next (s.upd fun m => m.xoRestart good0 good1)

/-- XO_RETURN (R99): a write of CLK.XO_CTRL. -/
def execXoReturn (who : Master) (w : Word) (s : State) : Out :=
  .next (s.writes who F.CLK_XO_CTRL_RETURN.addr w.toNat)

/-- XO_COMPARE_WINDOW (R98 boundary). -/
def execXoCompareWindow (delta : Int) (xo1Farther : Bool) (s : State) : Out :=
  .next (s.live fun m => m.xoCompare delta xo1Farther)

/-- REGULATOR_UPDATE (R101 to R105): the update interval of the source in use has passed; `src` is that source as CLK.REG_STATUS.SRC shows it, 7 for none. -/
def execRegulatorUpdate (src : Nat) (s : State) : Out :=
  .next (s.live fun m => if m.get F.CLK_REG_STATUS_SRC = src then m.regUpdate else m)

/-- SOURCE_LOST (R100). -/
def execSourceLost (src : Nat) (s : State) : Out :=
  .next (s.live fun m => m.sourceLost src)

/-- SOURCE_TAKE (R100, R103). -/
def execSourceTake (src : Nat) (s : State) : Out :=
  .next (s.live fun m => m.sourceTake src)

/-- AGEING_SAMPLE (R105). -/
def execAgeingSample (s : State) : Out :=
  .next (s.live fun m => m.ageSample)

/-- AGE_CLEAR (R105): a write of CLK.AGE_CLEAR. -/
def execAgeClear (who : Master) (w : Word) (s : State) : Out :=
  .next (s.writes who F.CLK_AGE_CLEAR_CLEAR.addr w.toNat)

/-- DOM_STEP (R108): a write of DOM_STEP. -/
def execDomStep (who : Master) (d : Nat) (step : Word) (s : State) : Out :=
  .next (if d < 4 then s.writes who (F.CLK_DOM_STEP_STEP d).addr step.toNat else s)

/-- DOM_SET_SEC (R108): a write of DOM_SET_SEC. -/
def execDomSetSec (who : Master) (d : Nat) (sec : Word) (s : State) : Out :=
  .next (if d < 4 then s.writes who (F.CLK_DOM_SET_SEC_SEC d).addr sec.toNat else s)

/-- PPS_OUT_EDGE (R111). -/
def execPpsOutEdge (s : State) : Out :=
  .next (s.live fun m => m.ppsRise)

/-- PPS_OUT_PULSE_END (R111). -/
def execPpsOutPulseEnd (s : State) : Out :=
  .next (s.live fun m => m.ppsFall)

/-- REF_IN_MEASUREMENT (Table 05-3). -/
def execRefInMeasurement (ppb : Option Int) (s : State) : Out :=
  .next (s.live fun m => m.refMeasured ppb)

/-- TIS_STAMP (R112 to R117). -/
def execTisStamp (edge : TisEdge) (coarse : BitVec 48) (fine : BitVec 10) (s : State) : Out :=
  .next (s.liveAt 8 edge.input fun m => m.tisInput edge.input edge.falling coarse.toNat fine.toNat)

/-- TIS_POP (R113): a write of POP. -/
def execTisPop (who : Master) (input : Nat) (w : Word) (s : State) : Out :=
  .next (if input < 8 then s.writes who (F.TIS_POP input).addr w.toNat else s)

/-- COARSE_WRAP (R114). -/
def execCoarseWrap (s : State) : Out :=
  .next (s.live fun m => m.coarseWrap)

/-- IU_ARM (R115): a write of IU_CTRL. -/
def execIuArm (who : Master) (u : Nat) (w : Word) (s : State) : Out :=
  .next (if u < 4 then s.writes who (F.TIS_IU_CTRL_ARM u).addr w.toNat else s)

/-- IU_TIMEOUT (R116). -/
def execIuTimeout (u : Nat) (s : State) : Out :=
  .next (s.liveAt 4 u fun m => m.iuTimeout u)

/-- FU_START (R117): a write of FU_CTRL. -/
def execFuStart (who : Master) (f : Nat) (w : Word) (s : State) : Out :=
  .next (if f < 2 then s.writes who (F.TIS_FU_CTRL_START f).addr w.toNat else s)

/-- FU_GATE_END (R117). -/
def execFuGateEnd (f : Nat) (s : State) : Out :=
  .next (s.liveAt 2 f fun m => m.fuEnd f)

end Sys2Proof.Machine
end

