-- ==== Sys2Proof/Machine/ExecConfig.lean ====
section
/-!
DEFINITION. Machine/ExecConfig.lean: the meanings of the configuration, image and key commands (chapter 03).
-/
namespace Sys2Proof.Machine

/-- COMMIT (R61, R62): a write of CFG.COMMIT. -/
def execCommit (who : Master) (mask : Word) (s : State) : Out :=
  .next (s.writes who F.CFG_COMMIT_MASK.addr mask.toNat)

/-- ABORT (R63): a write of CFG.ABORT. -/
def execAbort (who : Master) (w : Word) (s : State) : Out :=
  .next (s.writes who F.CFG_ABORT.addr w.toNat)

/-- CONFIG_CHECK_PASS (R66 to R68). -/
def execConfigCheckPass (s : State) : Out :=
  .next (s.liveSaves fun m => m.checkPass)

/-- CONFIG_RELOAD (R68). -/
def execConfigReload (s : State) : Out :=
  .next (s.liveSaves fun m => m.configReload)

/-- IMAGE_VERIFY (R54). -/
def execImageVerify (who : Master) (s : State) : Out :=
  .next (s.imageVerify who)

/-- KEY_PROGRAM (R58). -/
def execKeyProgram (who : Master) (slot : Nat) (hash : BitVec 256) (s : State) : Out :=
  .next (s.keyProgram who slot hash)

/-- KEY_REVOKE (R58). -/
def execKeyRevoke (who : Master) (slot : Nat) (s : State) : Out :=
  .next (s.keyRevoke who slot)

/-- ATTEST_PERIODIC (R59). -/
def execAttestPeriodic (s : State) : Out :=
  .next s.attestPeriodic

/-- NVM_WINDOW_WRITE (chapter 03, the update procedure, step 2). -/
def execNvmWindowWrite (who : Master) (addr : Nat) (w : Word) (s : State) : Out :=
  .next (s.nvmWrite who addr w)

end Sys2Proof.Machine
end

