-- ==== Sys2Proof/Machine/ExecEscapement.lean ====
section
/-!
DEFINITION. Machine/ExecEscapement.lean: the meanings of the Escapement's commands (chapter 06).
-/
namespace Sys2Proof.Machine

/-- BEAT_BOUNDARY (R122 to R124). -/
def execBeatBoundary (p : Port) (s : State) : Out :=
  .next (s.liveSaves fun m => (m.beatBoundary p).drainEnd)

/-- SUBBAND_LAUNCH (R122, R128). -/
def execSubbandLaunch (p : Port) (k : Nat) (s : State) : Out :=
  .next (s.live fun m => m.subbandLaunch p k)

/-- LMON_WINDOW_CLOSE (R133). -/
def execLmonWindowClose (p : Port) (s : State) : Out :=
  .next (s.live fun m => m.lmonClose p)

/-- PLAN_RESTART_END (R124). -/
def execPlanRestartEnd (p : Port) (s : State) : Out :=
  .next (s.liveSaves fun m => (m.restartEnd p).drainEnd)

/-- ACQUISITION_START (R135): a port whose optics are not connected does not start (R1). -/
def execAcquisitionStart (x : PortOptics) (s : State) : Out :=
  .next (if x.optics then s.acqStart x.port else s)

/-- INTLK_N_LOW (R136). -/
def execIntlkNLow (ns : Nat) (s : State) : Out :=
  .next (s.powered fun m => m.intlkLow ns)

/-- INTLK_N_HIGH (R137). -/
def execIntlkNHigh (s : State) : Out :=
  .next (s.powered fun m => m.intlkHigh)

/-- ENERGY_TRIP (R140). -/
def execEnergyTrip (x : GateExcess) (s : State) : Out :=
  .next (s.live fun m => m.energyTrip x.port x.extra)

/-- TRIP_CLEAR (R140): a write of TRIP. -/
def execTripClear (who : Master) (p : Port) (w : Word) (s : State) : Out :=
  .next (s.writes who (F.ESC_TRIP_TRIPPED (portIx p)).addr w.toNat)

/-- RAMAN_SHOT (R220, R227). -/
def execRamanShot (st0 as0 st1 as1 : List Half) (s : State) : Out :=
  .next (s.live fun m => m.ramanShot st0 as0 st1 as1)

/-- SWITCH_SETTLE_END (R132). -/
def execSwitchSettleEnd (p : Port) (s : State) : Out :=
  .next (s.live fun m => m.switchSettled p)

end Sys2Proof.Machine
end

