-- ==== Sys2Proof/Machine/ExecFront.lean ====
section
/-!
DEFINITION. Machine/ExecFront.lean: the meanings of the front ends' and the housekeeping converter's commands (chapter 07).
-/
namespace Sys2Proof.Machine

/-- RANGER_BLOCK_EVAL (R145). -/
def execRangerBlockEval (p : Port) (pol : Pol) (samples : List Half) (s : State) : Out :=
  .next (s.live fun m => m.rangerBlock p pol samples)

/-- RANGER_STEP_UP (R146). -/
def execRangerStepUp (p : Port) (pol : Pol) (s : State) : Out :=
  .next (s.live fun m => m.rangerUp p pol)

/-- CM_FAULT_DECLARE (R151). -/
def execCmFaultDeclare (p : Port) (x : CmBlocks) (s : State) : Out :=
  .next (s.live fun m => m.cmDeclare p x.input x.avg0 x.avg1)

/-- CM_RECOVERY (R152). -/
def execCmRecovery (p : Port) (input : Nat) (s : State) : Out :=
  .next (s.live fun m => m.cmRecovery p input)

/-- RFE_FAULT (R156). -/
def execRfeFault (ch : Nat) (s : State) : Out :=
  .next (s.live fun m => m.rfeFault ch)

/-- APD_LIMIT (R163). -/
def execApdLimit (o : Nat) (s : State) : Out :=
  .next (s.live fun m => m.apdLimit o)

/-- APD_LIMIT_CLEAR (R163): a write of APD_STATUS. -/
def execApdLimitClear (who : Master) (o : Nat) (w : Word) (s : State) : Out :=
  .next (if o < 4 then s.writes who (F.AFE_APD_STATUS_LIMIT o).addr w.toNat else s)

/-- APD_SETTLE_END (R161). -/
def execApdSettleEnd (p : Port) (s : State) : Out :=
  .next (s.live fun m => m.apdSettleEnd p)

/-- HKC_SCAN_START (R166). -/
def execHkcScanStart (s : State) : Out :=
  .next (s.live fun m => m.hkcScan)

/-- HKC_SLOT (R166, R167, R169, R170). -/
def execHkcSlot (conv : HkcConv) (s : State) : Out :=
  .next (s.live fun m => (m.hkcSlot conv).syncCal)

/-- INJ_REQ (R167): a write of INJ_REQ. -/
def execInjReq (who : Master) (w : Word) (s : State) : Out :=
  .next (s.writes who F.HKC_INJ_REQ_CH.addr w.toNat)

end Sys2Proof.Machine
end

