-- ==== Sys2Proof/Machine/ExecJewel.lean ====
section
/-!
DEFINITION. Machine/ExecJewel.lean: the meanings of the Jewels' slot operations (R248 to R254): each puts its slot into the engine's open bundle, which issues when no further slot follows.
-/
namespace Sys2Proof.Machine

/-- An accumulator operand as a register field codes it (R249): accumulator in [2:0], lane in [3]. -/
def accCode (a : AccLane) : Nat := a.acc + 8 * (match a.lane with | .L => 0 | .H => 1)

/-- NOP (Tables 11-4, 11-5, 11-7). -/
def execNop (e : Nat) (more : Bool) (s : State) : Out :=
  .next (s.liveAt 64 e fun m => m.slotOp e (fun b => b) more)

/-- MAC2 (Table 11-4). -/
def execMac2 (e : Nat) (o : MacOps) (more : Bool) (s : State) : Out :=
  .next (s.liveAt 64 e fun m => m.slotOp e (setMac 1 o) more)

/-- MSU2 (Table 11-4). -/
def execMsu2 (e : Nat) (o : MacOps) (more : Bool) (s : State) : Out :=
  .next (s.liveAt 64 e fun m => m.slotOp e (setMac 2 o) more)

/-- MPY2 (Table 11-4). -/
def execMpy2 (e : Nat) (o : MacOps) (more : Bool) (s : State) : Out :=
  .next (s.liveAt 64 e fun m => m.slotOp e (setMac 3 o) more)

/-- DOT2 (Table 11-4). -/
def execDot2 (e : Nat) (o : MacOps) (more : Bool) (s : State) : Out :=
  .next (s.liveAt 64 e fun m => m.slotOp e (setMac 4 o) more)

/-- CMAC (Table 11-4). -/
def execCmac (e : Nat) (o : MacOps) (more : Bool) (s : State) : Out :=
  .next (s.liveAt 64 e fun m => m.slotOp e (setMac 5 o) more)

/-- CMACJ (Table 11-4). -/
def execCmacj (e : Nat) (o : MacOps) (more : Bool) (s : State) : Out :=
  .next (s.liveAt 64 e fun m => m.slotOp e (setMac 6 o) more)

/-- CMPY (Table 11-4). -/
def execCmpy (e : Nat) (o : MacOps) (more : Bool) (s : State) : Out :=
  .next (s.liveAt 64 e fun m => m.slotOp e (setMac 7 o) more)

/-- CMPYJ (Table 11-4). -/
def execCmpyj (e : Nat) (o : MacOps) (more : Bool) (s : State) : Out :=
  .next (s.liveAt 64 e fun m => m.slotOp e (setMac 8 o) more)

/-- ADD2 (Table 11-5). -/
def execAdd2 (e : Nat) (o : AluOps) (more : Bool) (s : State) : Out :=
  .next (s.liveAt 64 e fun m => m.slotOp e (setAlu ⟨0x01, o.dst, o.a, o.b, 0⟩) more)

/-- ADDS2 (Table 11-5). -/
def execAdds2 (e : Nat) (o : AluOps) (more : Bool) (s : State) : Out :=
  .next (s.liveAt 64 e fun m => m.slotOp e (setAlu ⟨0x02, o.dst, o.a, o.b, 0⟩) more)

/-- SUB2 (Table 11-5). -/
def execSub2 (e : Nat) (o : AluOps) (more : Bool) (s : State) : Out :=
  .next (s.liveAt 64 e fun m => m.slotOp e (setAlu ⟨0x03, o.dst, o.a, o.b, 0⟩) more)

/-- SUBS2 (Table 11-5). -/
def execSubs2 (e : Nat) (o : AluOps) (more : Bool) (s : State) : Out :=
  .next (s.liveAt 64 e fun m => m.slotOp e (setAlu ⟨0x04, o.dst, o.a, o.b, 0⟩) more)

/-- AND (Table 11-5). -/
def execAnd (e : Nat) (o : AluOps) (more : Bool) (s : State) : Out :=
  .next (s.liveAt 64 e fun m => m.slotOp e (setAlu ⟨0x05, o.dst, o.a, o.b, 0⟩) more)

/-- OR (Table 11-5). -/
def execOr (e : Nat) (o : AluOps) (more : Bool) (s : State) : Out :=
  .next (s.liveAt 64 e fun m => m.slotOp e (setAlu ⟨0x06, o.dst, o.a, o.b, 0⟩) more)

/-- XOR (Table 11-5). -/
def execXor (e : Nat) (o : AluOps) (more : Bool) (s : State) : Out :=
  .next (s.liveAt 64 e fun m => m.slotOp e (setAlu ⟨0x07, o.dst, o.a, o.b, 0⟩) more)

/-- SHL2 (Table 11-5). -/
def execShl2 (e dst a k : Nat) (more : Bool) (s : State) : Out :=
  .next (s.liveAt 64 e fun m => m.slotOp e (setAlu (immSlot 0x08 dst a k)) more)

/-- ASR2 (Table 11-5). -/
def execAsr2 (e dst a k : Nat) (more : Bool) (s : State) : Out :=
  .next (s.liveAt 64 e fun m => m.slotOp e (setAlu (immSlot 0x09 dst a k)) more)

/-- LSR (Table 11-5). -/
def execLsr (e dst a k : Nat) (more : Bool) (s : State) : Out :=
  .next (s.liveAt 64 e fun m => m.slotOp e (setAlu (immSlot 0x0A dst a k)) more)

/-- MAX2 (Table 11-5). -/
def execMax2 (e : Nat) (o : AluOps) (more : Bool) (s : State) : Out :=
  .next (s.liveAt 64 e fun m => m.slotOp e (setAlu ⟨0x0B, o.dst, o.a, o.b, 0⟩) more)

/-- MIN2 (Table 11-5). -/
def execMin2 (e : Nat) (o : AluOps) (more : Bool) (s : State) : Out :=
  .next (s.liveAt 64 e fun m => m.slotOp e (setAlu ⟨0x0C, o.dst, o.a, o.b, 0⟩) more)

/-- ABS2 (Table 11-5). -/
def execAbs2 (e dst a : Nat) (more : Bool) (s : State) : Out :=
  .next (s.liveAt 64 e fun m => m.slotOp e (setAlu ⟨0x0D, dst, a, 0, 0⟩) more)

/-- CMPEQ2 (Table 11-5). -/
def execCmpeq2 (e : Nat) (o : AluOps) (more : Bool) (s : State) : Out :=
  .next (s.liveAt 64 e fun m => m.slotOp e (setAlu ⟨0x0E, o.dst, o.a, o.b, 0⟩) more)

/-- QZ2 (Table 11-5). -/
def execQz2 (e : Nat) (o : AluOps) (upper : Bool) (more : Bool) (s : State) : Out :=
  .next (s.liveAt 64 e fun m => m.slotOp e (setAlu ⟨0x0F, o.dst, o.a, o.b, bit upper⟩) more)

/-- BYTE (Table 11-5). -/
def execByte (e dst a sub : Nat) (more : Bool) (s : State) : Out :=
  .next (s.liveAt 64 e fun m => m.slotOp e (setAlu ⟨0x10, dst, a, 0, sub⟩) more)

/-- PACK (Table 11-5). -/
def execPack (e : Nat) (o : AluOps) (more : Bool) (s : State) : Out :=
  .next (s.liveAt 64 e fun m => m.slotOp e (setAlu ⟨0x11, o.dst, o.a, o.b, 0⟩) more)

/-- MOV (Table 11-5). -/
def execMov (e dst a : Nat) (more : Bool) (s : State) : Out :=
  .next (s.liveAt 64 e fun m => m.slotOp e (setAlu ⟨0x12, dst, a, 0, 0⟩) more)

/-- MOVS (Table 11-5, R251). -/
def execMovs (e dst a : Nat) (toSpecial : Bool) (more : Bool) (s : State) : Out :=
  .next (s.liveAt 64 e fun m => m.slotOp e (setAlu ⟨0x13, dst, a, 0, bit toSpecial⟩) more)

/-- EXTR2 (Table 11-5). -/
def execExtr2 (e dst acc k : Nat) (more : Bool) (s : State) : Out :=
  .next (s.liveAt 64 e fun m => m.slotOp e (setAlu (immSlot 0x14 dst acc k)) more)

/-- EXTR (Table 11-5). -/
def execExtr (e dst : Nat) (a : AccLane) (k : Nat) (more : Bool) (s : State) : Out :=
  .next (s.liveAt 64 e fun m => m.slotOp e (setAlu (immSlot 0x15 dst (accCode a) k)) more)

/-- EXP (Table 11-5, R253). -/
def execExp (e dst : Nat) (a : AccLane) (more : Bool) (s : State) : Out :=
  .next (s.liveAt 64 e fun m => m.slotOp e (setAlu ⟨0x16, dst, accCode a, 0, 0⟩) more)

/-- NORM (Table 11-5, R253). -/
def execNorm (e dst : Nat) (a : AccLane) (more : Bool) (s : State) : Out :=
  .next (s.liveAt 64 e fun m => m.slotOp e (setAlu ⟨0x17, dst, accCode a, 0, 0⟩) more)

/-- DNRM (Table 11-5, R254). -/
def execDnrm (e dst a : Nat) (k : Int) (more : Bool) (s : State) : Out :=
  .next (s.liveAt 64 e fun m => m.slotOp e (setAlu (immSlot 0x18 dst a (codeOf 8 k))) more)

/-- CLRA (Table 11-5). -/
def execClra (e acc : Nat) (more : Bool) (s : State) : Out :=
  .next (s.liveAt 64 e fun m => m.slotOp e (setAlu ⟨0x19, acc, 0, 0, 0⟩) more)

/-- FOLD (Table 11-5). -/
def execFold (e acc : Nat) (more : Bool) (s : State) : Out :=
  .next (s.liveAt 64 e fun m => m.slotOp e (setAlu ⟨0x1A, acc, 0, 0, 0⟩) more)

/-- LD32 (R250). -/
def execLd32 (e : Nat) (o : MemOps) (more : Bool) (s : State) : Out :=
  .next (s.liveAt 64 e fun m => m.slotOp e (setMem 1 o) more)

/-- ST32 (R250). -/
def execSt32 (e : Nat) (o : MemOps) (more : Bool) (s : State) : Out :=
  .next (s.liveAt 64 e fun m => m.slotOp e (setMem 2 o) more)

/-- LD16 (R250). -/
def execLd16 (e : Nat) (o : MemOps) (more : Bool) (s : State) : Out :=
  .next (s.liveAt 64 e fun m => m.slotOp e (setMem 3 o) more)

/-- ST16 (R250). -/
def execSt16 (e : Nat) (o : MemOps) (more : Bool) (s : State) : Out :=
  .next (s.liveAt 64 e fun m => m.slotOp e (setMem 4 o) more)

/-- ROT (R243). -/
def execRot (e : Nat) (more : Bool) (s : State) : Out :=
  .next (s.liveAt 64 e fun m => m.slotOp e setRot more)

end Sys2Proof.Machine
end

