-- ==== Sys2Proof/Machine/ExecLanes.lean ====
section
/-!
DEFINITION. Machine/ExecLanes.lean: the meanings of the lanes', Ethernet's and PTP's commands (chapter 15).
-/
namespace Sys2Proof.Machine

/-- REFCLK_LOSS (R350). -/
def execRefclkLoss (s : State) : Out :=
  .next (s.aliveAt 1 0 fun m => m.refclkLoss)

/-- REFCLK_OK (R350). -/
def execRefclkOk (s : State) : Out :=
  .next (s.aliveAt 1 0 fun m => m.refclkGood)

/-- LANE_TRAINING_DONE (R355). -/
def execLaneTrainingDone (n : Nat) (eq : Word) (s : State) : Out :=
  .next (s.aliveAt 4 n fun m => m.laneTrained n eq.toNat)

/-- LANE_TRAIN_TIMEOUT (R355). -/
def execLaneTrainTimeout (n : Nat) (s : State) : Out :=
  .next (s.aliveAt 4 n fun m => m.laneTrainTimeout n)

/-- LANE_LOCK_HELD (R356). -/
def execLaneLockHeld (n : Nat) (s : State) : Out :=
  .next (s.aliveAt 4 n fun m => m.laneLockHeld n)

/-- LANE_ACQUIRE_TIMEOUT (R356). -/
def execLaneAcquireTimeout (n : Nat) (s : State) : Out :=
  .next (s.aliveAt 4 n fun m => m.laneAcquireTimeout n)

/-- LANE_FAULT (R356, R357). -/
def execLaneFault (n : Nat) (x : LaneFinding) (s : State) : Out :=
  .next (s.aliveAt 4 n fun m => m.laneFault n x.cause x.badSync)

/-- LANE_RETRY (R356). -/
def execLaneRetry (n : Nat) (s : State) : Out :=
  .next (s.aliveAt 4 n fun m => m.laneRetry n)

/-- PRBS_ENABLE (R358): the bits of the test so far, and a write of PRBS_CTRL. -/
def execPrbsEnable (who : Master) (line : PrbsLine) (w : Word) (s : State) : Out :=
  .next (if line.lane < 4 then (s.aliveAt 4 line.lane fun m => m.prbsLine line).writes who (F.NET_PRBS_CTRL_GEN_EN line.lane).addr w.toNat else s)

/-- PRBS_INJECT (R358): the bits of the test so far, and a write of PRBS_CTRL. -/
def execPrbsInject (who : Master) (line : PrbsLine) (w : Word) (s : State) : Out :=
  .next (if line.lane < 4 then (s.aliveAt 4 line.lane fun m => m.prbsLine line).writes who (F.NET_PRBS_CTRL_INJ line.lane).addr w.toNat else s)

/-- FRAME_RECEIVE (R359, R361 to R363, R435). -/
def execFrameReceive (n : Nat) (f : Frame) (s : State) : Out :=
  .next (s.aliveAt 4 n fun m => m.frameReceive n f)

/-- PAUSE_RECEIVE (R360). -/
def execPauseReceive (n : Nat) (pfcPriority : Option Nat) (quanta : Nat) (s : State) : Out :=
  .next (s.liveAt 4 n fun m => m.pauseIn n pfcPriority quanta)

/-- PAUSE_EXPIRE (R360). -/
def execPauseExpire (n : Nat) (s : State) : Out :=
  .next (s.liveAt 4 n fun m => m.pauseEnd n)

/-- ANNOUNCE_RECEIVE (R364). -/
def execAnnounceReceive (domain n : Nat) (a : Announce) (s : State) : Out :=
  .next (s.liveAt 4 n fun m => m.announce domain n a)

/-- SYNC_RECEIVE (R362 to R365). -/
def execSyncReceive (n : Nat) (x : SyncMsg) (logInterval : Int) (s : State) : Out :=
  .next (s.liveAt 4 n fun m => m.syncIn n x logInterval)

/-- DELAY_REQ_SEND (R362 to R364). -/
def execDelayReqSend (x : PtpSend) (s : State) : Out :=
  .next (s.liveAt 4 x.unit fun m => m.delayReq x)

/-- DELAY_RESP_RECEIVE (R364). -/
def execDelayRespReceive (n : Nat) (x : DelayResp) (s : State) : Out :=
  .next (s.liveAt 4 n fun m => m.delayResp n x)

/-- PTP_PORT_FAIL (R366). -/
def execPtpPortFail (d : Nat) (s : State) : Out :=
  .next (s.liveAt 4 d fun m => m.ocFail d)

/-- PTP_REVERT (R366). -/
def execPtpRevert (d : Nat) (s : State) : Out :=
  .next (s.liveAt 4 d fun m => m.ocRevert d)

/-- FOLLOW_UP_RECEIVE (R368). -/
def execFollowUpReceive (n : Nat) (f : Frame) (s : State) : Out :=
  .next (s.liveAt 4 n fun m => m.frameIn n { f with ptp := .followUp })

/-- TC_ENTRY_EXPIRE (R368). -/
def execTcEntryExpire (n domain source seqId : Nat) (s : State) : Out :=
  .next (s.liveAt 4 n fun m => m.tcExpire n domain source seqId)

/-- PDELAY_REQ_SEND (R369). -/
def execPdelayReqSend (x : PtpSend) (s : State) : Out :=
  .next (s.liveAt 4 x.unit fun m => m.pdelayReq x)

/-- PDELAY_REQ_RECEIVE (R369). -/
def execPdelayReqReceive (x : PdelayReq) (s : State) : Out :=
  .next (s.liveAt 4 x.port fun m => m.pdelayAnswer x)

/-- PDELAY_RESP_RECEIVE (R369). -/
def execPdelayRespReceive (n : Nat) (x : PdelayResp) (s : State) : Out :=
  .next (s.liveAt 4 n fun m => m.pdelayResp n x)

end Sys2Proof.Machine
end

