-- ==== Sys2Proof/Machine/ExecMemory.lean ====
section
/-!
DEFINITION. Machine/ExecMemory.lean: the meanings of the codec's, the memory channels' and the Reserve's commands (chapters 13 and 14).
-/
namespace Sys2Proof.Machine

/-- CODEC_BLOCK (R299 to R309). -/
def execCodecBlock (p : Port) (verifyFails : Bool) (s : State) : Out :=
  .next (s.live fun m => m.codecBlock p verifyFails)

/-- RESERVE_BLOCK_WRITE (R342). -/
def execReserveBlockWrite (s : State) : Out :=
  .next (s.live fun m => m.ringWrite)

/-- DRAM_REFRESH (R324). -/
def execDramRefresh (ch rank : Nat) (hot : Bool) (s : State) : Out :=
  .next (s.liveAt 2 ch fun m => m.refresh ch rank hot)

/-- REFRESH_WINDOW_END (R325). -/
def execRefreshWindowEnd (ch : Nat) (s : State) : Out :=
  .next (s.liveAt 2 ch fun m => m.windowEnd ch)

/-- NEIGHBOUR_REFRESH (R327). -/
def execNeighbourRefresh (ch rank sub bank row : Nat) (s : State) : Out :=
  .next (s.liveAt 2 ch fun m => m.neighbourRefresh ch rank sub bank row)

/-- PATROL_SCRUB (R319 to R322): the bursts at `addrs` have come to hold an error of one form. -/
def execPatrolScrub (ch : Nat) (addrs : List Nat) (devices : Nat) (beats : List Nat) (detected : Bool) (s : State) : Out :=
  .next (s.liveAt 2 ch fun m => m.scrub ch (addrs.map fun a => { addr := a, err := { devices := devices, beats := beats, detected := detected } }))

/-- CE_WINDOW_CLOSE (R322). -/
def execCeWindowClose (ch : Nat) (s : State) : Out :=
  .next (s.liveAt 2 ch fun m => m.ceClose ch)

/-- MIGRATE (R329): a write of MIGRATE. -/
def execMigrate (who : Master) (ch : Nat) (w : Word) (s : State) : Out :=
  .next (if ch < 2 then s.writes who (F.MC_MIGRATE_KEY ch).addr w.toNat else s)

/-- MIGRATION_COMPLETE (R329). -/
def execMigrationComplete (ch : Nat) (errs : List MemErr) (s : State) : Out :=
  .next (s.liveAt 2 ch fun m => m.migComplete ch errs)

/-- CA_PARITY_ERROR (R332). -/
def execCaParityError (ch : Nat) (failedReplays : Nat) (log : FreezeLog) (s : State) : Out :=
  .next (s.liveAt 2 ch fun m => m.caParity ch failedReplays log)

/-- FREEZE (R332, R333): a write of FREEZE. -/
def execFreeze (who : Master) (ch : Nat) (w : Word) (log : FreezeLog) (s : State) : Out :=
  .next (if ch < 2 then s.upd fun m => m.writeLogBy who false (F.MC_FREEZE_KEY ch).addr w.toNat (some log) else s)

/-- JOURNAL_COPY_COMPLETE (R346). -/
def execJournalCopyComplete (s : State) : Out :=
  .next (s.live fun m => m.journalMirrored)

end Sys2Proof.Machine
end

