-- ==== Sys2Proof/Machine/ExecSessions.lean ====
section
/-!
DEFINITION. Machine/ExecSessions.lean: the meanings of the sessions' and the records' commands (chapter 16).
-/
namespace Sys2Proof.Machine

/-- ARP_REQUEST (R373). -/
def execArpRequest (n : Nat) (target : BitVec 128) (s : State) : Out :=
  .next (s.upd fun m => m.arpRequest n target)

/-- NEIGHBOUR_EXPIRE (R373). -/
def execNeighbourExpire (n : Nat) (addr : BitVec 128) (s : State) : Out :=
  .next (s.upd fun m => m.neighbourExpire n addr)

/-- NEIGHBOUR_UNREACHABLE (R373). -/
def execNeighbourUnreachable (n : Nat) (addr : BitVec 128) (s : State) : Out :=
  .next (s.upd fun m => m.neighbourUnreachable n addr)

/-- CONNECT_REQ (R378 to R380, R395). -/
def execConnectReq (r : ConnectReq) (s : State) : Out :=
  .next (s.connectReq r)

/-- HELLO_TIMEOUT (R379). -/
def execHelloTimeout (slot : Nat) (s : State) : Out :=
  .next (s.liveAt 64 slot fun m => m.helloTimeout slot)

/-- HELLO (R381, R383, R392, R398). -/
def execHello (h : CmdHead) (versions : List (Nat × Nat)) (replyVa : BitVec 64) (replyRkey evtMask : Word) (rings : List HelloRing) (s : State) : Out :=
  .next (s.hello h versions replyVa replyRkey evtMask rings)

/-- AUTH (R382). -/
def execAuth (h : CmdHead) (keyIndex : Nat) (hostNonce : BitVec 128) (sigR sigS : BitVec 256) (s : State) : Out :=
  .next (s.auth h keyIndex hostNonce sigR sigS)

/-- AUTH_FAIL_CLOSE (R382). -/
def execAuthFailClose (slot : Nat) (s : State) : Out :=
  .next (s.liveAt 64 slot fun m => m.authFailClose slot)

/-- READ (R399). -/
def execRead (h : CmdHead) (addr : Word) (count : Nat) (s : State) : Out :=
  .next (s.upd fun m => m.readCommand h addr count)

/-- WRITE (R399). -/
def execWrite (h : CmdHead) (addr : Word) (words : List Word) (s : State) : Out :=
  .next (s.saves fun m => m.writeCommand h addr words)

/-- GET_CERT (R399). -/
def execGetCert (h : CmdHead) (offset : Nat) (s : State) : Out :=
  .next (s.getCert h offset)

/-- ATTEST_NOW (R59, R399). -/
def execAttestNow (h : CmdHead) (nonce : BitVec 128) (s : State) : Out :=
  .next (s.attestNow h nonce)

/-- CLOSE (R398, R399). -/
def execClose (h : CmdHead) (s : State) : Out :=
  .next (s.upd fun m => m.closeCommand h)

/-- PING (R399). -/
def execPing (h : CmdHead) (s : State) : Out :=
  .next (s.upd fun m => m.pingCommand h)

/-- DOORBELL_WRITE (R385). -/
def execDoorbellWrite (slot : Nat) (op : HostOp) (ci : Nat) (s : State) : Out :=
  .next (s.liveAt 64 slot fun m => m.doorbell slot op ci)

/-- RDMA_ACK (R375, R386, R396). -/
def execRdmaAck (slot count : Nat) (s : State) : Out :=
  .next (s.liveAt 64 slot fun m => m.rdmaAck slot count)

/-- ACK_TIMEOUT (R375, R397). -/
def execAckTimeout (slot : Nat) (s : State) : Out :=
  .next (s.liveAt 64 slot fun m => m.ackTimeout slot)

/-- SEQUENCE_NAK (R375). -/
def execSequenceNak (slot : Nat) (s : State) : Out :=
  .next (s.liveAt 64 slot fun m => m.sequenceNak slot)

/-- CNP_RECEIVE (R376). -/
def execCnpReceive (slot : Nat) (s : State) : Out :=
  .next (s.liveAt 64 slot fun m => m.cnpReceive slot)

/-- RATE_RECOVERY (R376). -/
def execRateRecovery (slot : Nat) (s : State) : Out :=
  .next (s.liveAt 64 slot fun m => m.rateRecovery slot)

/-- RECORD_PRODUCE (R383, R387 to R393, R396). -/
def execRecordProduce (s : State) : Out :=
  .next (s.live fun m => m.produceNext)

/-- JOURNAL_RESUME (R396). -/
def execJournalResume (slot : Nat) (s : State) : Out :=
  .next (s.liveAt 64 slot fun m => m.journalResume slot)

/-- PI_WRITE (R384). -/
def execPiWrite (slot stream : Nat) (s : State) : Out :=
  .next (s.liveAt 64 slot fun m => m.writeIndex slot stream)

/-- SESSION_PATH_FAIL (R397). -/
def execSessionPathFail (slot : Nat) (s : State) : Out :=
  .next (s.liveAt 64 slot fun m => m.pathFail slot)

/-- HOUSEKEEPING_PERIOD_END (R390). -/
def execHousekeepingPeriodEnd (periodMs : Nat) (s : State) : Out :=
  .next (s.upd fun m => m.housekeeping periodMs)

/-- UDP_RECORD_SEND (R400). -/
def execUdpRecordSend (policy : Nat) (atLineRate : Bool) (s : State) : Out :=
  .next (s.live fun m => m.udpSend policy atLineRate)

end Sys2Proof.Machine
end

