-- ==== Sys2Proof/Machine/ExecSupply.lean ====
section
/-!
DEFINITION. Machine/ExecSupply.lean: the meanings of the supply, start and reset commands (chapters 02, 03 and 18).
-/
namespace Sys2Proof.Machine

/-- UVLO_RISING (R41). -/
def execUvloRising (s : State) : Out :=
  .next (s.upd fun m => m.uvloRising)

/-- PGOOD_RISE (R41, R42). -/
def execPgoodRise (s : State) : Out :=
  .next (s.upd fun m => m.pgoodRise)

/-- START_SEQUENCE (R46). -/
def execStartSequence (sense : StartSense) (ok0 ok1 : Bool) (s : State) : Out :=
  .next (s.startSequence sense.resetN sense.dieMk ok0 ok1)

/-- TRAINING_COMPLETE (R317, R318). -/
def execTrainingComplete (ch : Nat) (d0 d1 : Dimm) (timeout : Bool) (crc : Word) (s : State) : Out :=
  .next (s.trainingComplete ch d0 d1 timeout crc)

/-- FIRST_BEAT (R47): a port whose optics are not connected does not start (R1). -/
def execFirstBeat (x : PortOptics) (s : State) : Out :=
  .next (if x.optics then s.firstBeat x.port else s)

/-- WARNING_CLEAR (R35). -/
def execWarningClear (s : State) : Out :=
  .next (s.upd fun m => m.warningClear)

/-- POWER_FAIL_WARNING (R43, R436). -/
def execPowerFailWarning (s : State) : Out :=
  .next (s.marked (s.m.powerFail))

/-- UVLO_FALLING (R35). -/
def execUvloFalling (s : State) : Out :=
  .next (s.upd fun m => m.uvloFalling)

/-- PF_RECOVER_RESTART (R35). -/
def execPfRecoverRestart (s : State) : Out :=
  .next (s.upd fun m => m.pfRecover)

/-- FEED_WINDOW_CHANGE (R33). -/
def execFeedWindowChange (f : Feed) (inside : Bool) (s : State) : Out :=
  .next (s.upd fun m => m.feedWindow f inside)

/-- FEED_OVER_VOLTAGE (R34). -/
def execFeedOverVoltage (f : Feed) (s : State) : Out :=
  .next (s.upd fun m => m.feedOver f)

/-- FEED_RECONNECT (R34). -/
def execFeedReconnect (f : Feed) (s : State) : Out :=
  .next (s.upd fun m => m.feedReconnect f)

/-- OUTPUT_OVERCURRENT (R38). -/
def execOutputOvercurrent (o : Output) (s : State) : Out :=
  .next (s.upd fun m => m.overcurrent o)

/-- DIE_TEMP_SAMPLE (R27, R165). -/
def execDieTempSample (c0 c1 c2 : HkcConv) (s : State) : Out :=
  .next (s.marked (s.m.dieSample c0 c1 c2))

/-- THERMAL_RESTART (R28). -/
def execThermalRestart (s : State) : Out :=
  .next (s.upd fun m => m.thermalRestart)

/-- PIN_RESET (R427). -/
def execPinReset (s : State) : Out :=
  .next (s.powered fun m => m.pinReset)

/-- WARM_RESET (R425): a write of SYS.RESET with WARM. -/
def execWarmReset (who : Master) (key : Half) (s : State) : Out :=
  .next (s.writes who F.SYS_RESET_KEY.addr (keyed key 1))

/-- WATCHDOG_RESET (R422): CAUSE 3. -/
def execWatchdogReset (s : State) : Out :=
  .next (s.upd fun m => m.watchReset 3)

/-- FATAL_ERROR (R423): CAUSE 4. -/
def execFatalError (s : State) : Out :=
  .next (s.upd fun m => m.watchReset 4)

/-- PORT_RESET (R428): a write of SYS.RESET with PORT_A or PORT_B. -/
def execPortReset (who : Master) (key : Half) (p : Port) (s : State) : Out :=
  .next (s.writes who F.SYS_RESET_KEY.addr (keyed key (2 * 2 ^ portIx p)))

/-- LANE_RESET (R357): a write of SYS.RESET with one bit of LANE. -/
def execLaneReset (who : Master) (key : Half) (lane : Nat) (s : State) : Out :=
  .next (s.writes who F.SYS_RESET_KEY.addr (keyed key (16 * 2 ^ (lane % 4))))

/-- ENGINE_RESET (R266): a write of SYS.RESET with ENGINE and ENGINE_SEL. -/
def execEngineReset (who : Master) (key : Half) (e : Nat) (s : State) : Out :=
  .next (s.writes who F.SYS_RESET_KEY.addr (keyed key (256 + 1024 * (e % 64))))

/-- MODULE_BOUNDARY (R4). -/
def execModuleBoundary (s : State) : Out :=
  .next (s.saves fun m => m.moduleBoundary)

/-- SCHEDULED_WAKE (R434). -/
def execScheduledWake (retOk : Bool) (s : State) : Out :=
  .next (s.upd fun m => m.scheduledWake retOk)

/-- UNSCHEDULED_WAKE (R435). -/
def execUnscheduledWake (retOk : Bool) (s : State) : Out :=
  .next (s.upd fun m => m.unscheduledWake retOk)

end Sys2Proof.Machine
end

