-- ==== Sys2Proof/Machine/ExecTrain.lean ====
section
/-!
DEFINITION. Machine/ExecTrain.lean: the meanings of the Train's commands and of the Jewels' control and immediate bundles (chapter 11).
-/
namespace Sys2Proof.Machine

/-- TILE_ARRIVAL (R263, R268). -/
def execTileArrival (p : Port) (s : State) : Out :=
  .next (s.live fun m => m.tileArrival p)

/-- TILE_START (R244, R264). -/
def execTileStart (e : Nat) (s : State) : Out :=
  .next (s.liveAt 64 e fun m => m.tileStart e)

/-- TILE_STEAL (R265). -/
def execTileSteal (e : Nat) (s : State) : Out :=
  .next (s.liveAt 64 e fun m => m.tileSteal e)

/-- RESULT_HANDOFF (R267, R275). -/
def execResultHandoff (p : Port) (s : State) : Out :=
  .next (s.live fun m => m.resultHandoff p)

/-- ENGINE_FAULT (R259, R266). -/
def execEngineFault (x : EngineFinding) (s : State) : Out :=
  .next (s.liveAt 64 x.engine fun m => m.engineCheck x.engine x.found)

/-- ENGINE_RETIRE (R259, R266): a write of TRAIN.RETIRE. -/
def execEngineRetire (who : Master) (w : Word) (s : State) : Out :=
  .next (s.writes who F.TRAIN_RETIRE_KEY.addr w.toNat)

/-- LDI (Table 11-6). -/
def execLdi (e dst : Nat) (imm : Word) (s : State) : Out :=
  .next (s.liveAt 64 e fun m => m.issueOn e (.ldi dst imm))

/-- LDIS (Table 11-6). -/
def execLdis (e dst : Nat) (imm : Word) (s : State) : Out :=
  .next (s.liveAt 64 e fun m => m.issueOn e (.ldis dst imm))

/-- BR (Table 11-7, R252). -/
def execBr (e target cond d : Nat) (s : State) : Out :=
  .next (s.liveAt 64 e fun m => m.issueOn e (.br target cond d))

/-- LOOP (Table 11-7, R256). -/
def execLoop (e start stop count : Nat) (creg : Option Nat) (s : State) : Out :=
  .next (s.liveAt 64 e fun m => m.issueOn e (.loop start stop count creg))

/-- DONE (Table 11-7, R262). -/
def execDone (e : Nat) (s : State) : Out :=
  .next (s.liveAt 64 e fun m => m.issueOn e .done)

/-- RDREG (Table 11-7, R257). -/
def execRdreg (e dst addrReg : Nat) (s : State) : Out :=
  .next (s.liveAt 64 e fun m => m.issueOn e (.rdreg dst addrReg))

/-- RDREG_COMPLETE (R257). -/
def execRdregComplete (e : Nat) (s : State) : Out :=
  .next (s.liveAt 64 e fun m => m.rdregComplete e)

/-- TRAP (Table 11-7, R258). -/
def execTrap (e code : Nat) (s : State) : Out :=
  .next (s.liveAt 64 e fun m => m.issueOn e (.trap code))

end Sys2Proof.Machine
end

