-- ==== Sys2Proof/Machine/Dispatch.lean ====
section
/-!
DEFINITION. Machine/Dispatch.lean: one arm per command, each a direct call of its meaning.
-/
namespace Sys2Proof.Machine

def exec (i : Instr) (s : State) : Host.Outcome State Fault Refusal :=
  match i with
  | .uvloRising => Sys2Proof.Machine.execUvloRising s
  | .pgoodRise => Sys2Proof.Machine.execPgoodRise s
  | .startSequence sense patternOk0 patternOk1 => Sys2Proof.Machine.execStartSequence sense patternOk0 patternOk1 s
  | .trainingComplete ch dimm0 dimm1 timeout crc => Sys2Proof.Machine.execTrainingComplete ch dimm0 dimm1 timeout crc s
  | .firstBeat x => Sys2Proof.Machine.execFirstBeat x s
  | .warningClear => Sys2Proof.Machine.execWarningClear s
  | .powerFailWarning => Sys2Proof.Machine.execPowerFailWarning s
  | .uvloFalling => Sys2Proof.Machine.execUvloFalling s
  | .pfRecoverRestart => Sys2Proof.Machine.execPfRecoverRestart s
  | .feedWindowChange f inside => Sys2Proof.Machine.execFeedWindowChange f inside s
  | .feedOverVoltage f => Sys2Proof.Machine.execFeedOverVoltage f s
  | .feedReconnect f => Sys2Proof.Machine.execFeedReconnect f s
  | .outputOvercurrent o => Sys2Proof.Machine.execOutputOvercurrent o s
  | .dieTempSample c0 c1 c2 => Sys2Proof.Machine.execDieTempSample c0 c1 c2 s
  | .thermalRestart => Sys2Proof.Machine.execThermalRestart s
  | .pinReset => Sys2Proof.Machine.execPinReset s
  | .warmReset who key => Sys2Proof.Machine.execWarmReset who key s
  | .watchdogReset => Sys2Proof.Machine.execWatchdogReset s
  | .fatalError => Sys2Proof.Machine.execFatalError s
  | .portReset who key p => Sys2Proof.Machine.execPortReset who key p s
  | .laneReset who key lane => Sys2Proof.Machine.execLaneReset who key lane s
  | .engineReset who key e => Sys2Proof.Machine.execEngineReset who key e s
  | .moduleBoundary => Sys2Proof.Machine.execModuleBoundary s
  | .scheduledWake retOk => Sys2Proof.Machine.execScheduledWake retOk s
  | .unscheduledWake retOk => Sys2Proof.Machine.execUnscheduledWake retOk s
  | .commit who mask => Sys2Proof.Machine.execCommit who mask s
  | .abort who w => Sys2Proof.Machine.execAbort who w s
  | .configCheckPass => Sys2Proof.Machine.execConfigCheckPass s
  | .configReload => Sys2Proof.Machine.execConfigReload s
  | .imageVerify who => Sys2Proof.Machine.execImageVerify who s
  | .keyProgram who slot hash => Sys2Proof.Machine.execKeyProgram who slot hash s
  | .keyRevoke who slot => Sys2Proof.Machine.execKeyRevoke who slot s
  | .attestPeriodic => Sys2Proof.Machine.execAttestPeriodic s
  | .mgmtRead cmd addr => Sys2Proof.Machine.execMgmtRead cmd addr s
  | .mgmtWrite cmd addr data crc => Sys2Proof.Machine.execMgmtWrite cmd addr data crc s
  | .mgmtStatus cmd => Sys2Proof.Machine.execMgmtStatus cmd s
  | .mgmtFrameCut cmd addr cut => Sys2Proof.Machine.execMgmtFrameCut cmd addr cut s
  | .registerWrite who addr w => Sys2Proof.Machine.execRegisterWrite who addr w s
  | .rcRead who addr => Sys2Proof.Machine.execRcRead who addr s
  | .latchingRead who addr => Sys2Proof.Machine.execLatchingRead who addr s
  | .bitAliasAccess who addr view write => Sys2Proof.Machine.execBitAliasAccess who addr view write s
  | .logPop who w => Sys2Proof.Machine.execLogPop who w s
  | .evtOutPulseEnd pin => Sys2Proof.Machine.execEvtOutPulseEnd pin s
  | .crystalFail => Sys2Proof.Machine.execCrystalFail s
  | .standbyCrystalFail => Sys2Proof.Machine.execStandbyCrystalFail s
  | .bothCrystalsFail => Sys2Proof.Machine.execBothCrystalsFail s
  | .xoFailRestart good0 good1 => Sys2Proof.Machine.execXoFailRestart good0 good1 s
  | .xoReturn who w => Sys2Proof.Machine.execXoReturn who w s
  | .xoCompareWindow delta xo1Farther => Sys2Proof.Machine.execXoCompareWindow delta xo1Farther s
  | .regulatorUpdate src => Sys2Proof.Machine.execRegulatorUpdate src s
  | .sourceLost src => Sys2Proof.Machine.execSourceLost src s
  | .sourceTake src => Sys2Proof.Machine.execSourceTake src s
  | .ageingSample => Sys2Proof.Machine.execAgeingSample s
  | .ageClear who w => Sys2Proof.Machine.execAgeClear who w s
  | .domStep who d step => Sys2Proof.Machine.execDomStep who d step s
  | .domSetSec who d sec => Sys2Proof.Machine.execDomSetSec who d sec s
  | .ppsOutEdge => Sys2Proof.Machine.execPpsOutEdge s
  | .tisStamp edge coarse fine => Sys2Proof.Machine.execTisStamp edge coarse fine s
  | .tisPop who input w => Sys2Proof.Machine.execTisPop who input w s
  | .coarseWrap => Sys2Proof.Machine.execCoarseWrap s
  | .iuArm who u w => Sys2Proof.Machine.execIuArm who u w s
  | .iuTimeout u => Sys2Proof.Machine.execIuTimeout u s
  | .fuStart who f w => Sys2Proof.Machine.execFuStart who f w s
  | .fuGateEnd f => Sys2Proof.Machine.execFuGateEnd f s
  | .beatBoundary p => Sys2Proof.Machine.execBeatBoundary p s
  | .subbandLaunch p k => Sys2Proof.Machine.execSubbandLaunch p k s
  | .lmonWindowClose p => Sys2Proof.Machine.execLmonWindowClose p s
  | .planRestartEnd p => Sys2Proof.Machine.execPlanRestartEnd p s
  | .acquisitionStart x => Sys2Proof.Machine.execAcquisitionStart x s
  | .intlkNLow ns => Sys2Proof.Machine.execIntlkNLow ns s
  | .intlkNHigh => Sys2Proof.Machine.execIntlkNHigh s
  | .energyTrip x => Sys2Proof.Machine.execEnergyTrip x s
  | .tripClear who p w => Sys2Proof.Machine.execTripClear who p w s
  | .ramanShot st0 as0 st1 as1 => Sys2Proof.Machine.execRamanShot st0 as0 st1 as1 s
  | .switchSettleEnd p => Sys2Proof.Machine.execSwitchSettleEnd p s
  | .rangerBlockEval p pol samples => Sys2Proof.Machine.execRangerBlockEval p pol samples s
  | .rangerStepUp p pol => Sys2Proof.Machine.execRangerStepUp p pol s
  | .cmFaultDeclare p x => Sys2Proof.Machine.execCmFaultDeclare p x s
  | .cmRecovery p input => Sys2Proof.Machine.execCmRecovery p input s
  | .rfeFault ch => Sys2Proof.Machine.execRfeFault ch s
  | .apdLimit o => Sys2Proof.Machine.execApdLimit o s
  | .apdLimitClear who o w => Sys2Proof.Machine.execApdLimitClear who o w s
  | .apdSettleEnd p => Sys2Proof.Machine.execApdSettleEnd p s
  | .hkcScanStart => Sys2Proof.Machine.execHkcScanStart s
  | .hkcSlot conv => Sys2Proof.Machine.execHkcSlot conv s
  | .injReq who w => Sys2Proof.Machine.execInjReq who w s
  | .gapLendingStart p => Sys2Proof.Machine.execGapLendingStart p s
  | .lendingEnd p => Sys2Proof.Machine.execLendingEnd p s
  | .backgroundMeasurement slice meas bitStuck => Sys2Proof.Machine.execBackgroundMeasurement slice meas bitStuck s
  | .conversionWatchdog slice => Sys2Proof.Machine.execConversionWatchdog slice s
  | .sliceRetire who w => Sys2Proof.Machine.execSliceRetire who w s
  | .ramanBackgroundMeasure ofs gain bitStuck => Sys2Proof.Machine.execRamanBackgroundMeasure ofs gain bitStuck s
  | .rawWindowGo who w => Sys2Proof.Machine.execRawWindowGo who w s
  | .rawWindowDone beats => Sys2Proof.Machine.execRawWindowDone beats s
  | .pipeTickEmit p cell lo hi eccError => Sys2Proof.Machine.execPipeTickEmit p cell lo hi eccError s
  | .ramanFrameBoundary p => Sys2Proof.Machine.execRamanFrameBoundary p s
  | .ramanIdleEnd p => Sys2Proof.Machine.execRamanIdleEnd p s
  | .dtsProfileComplete p => Sys2Proof.Machine.execDtsProfileComplete p s
  | .tileArrival p => Sys2Proof.Machine.execTileArrival p s
  | .tileStart e => Sys2Proof.Machine.execTileStart e s
  | .tileSteal e => Sys2Proof.Machine.execTileSteal e s
  | .resultHandoff p => Sys2Proof.Machine.execResultHandoff p s
  | .engineFault x => Sys2Proof.Machine.execEngineFault x s
  | .engineRetire who w => Sys2Proof.Machine.execEngineRetire who w s
  | .nop e more => Sys2Proof.Machine.execNop e more s
  | .mac2 e o more => Sys2Proof.Machine.execMac2 e o more s
  | .msu2 e o more => Sys2Proof.Machine.execMsu2 e o more s
  | .mpy2 e o more => Sys2Proof.Machine.execMpy2 e o more s
  | .dot2 e o more => Sys2Proof.Machine.execDot2 e o more s
  | .cmac e o more => Sys2Proof.Machine.execCmac e o more s
  | .cmacj e o more => Sys2Proof.Machine.execCmacj e o more s
  | .cmpy e o more => Sys2Proof.Machine.execCmpy e o more s
  | .cmpyj e o more => Sys2Proof.Machine.execCmpyj e o more s
  | .add2 e o more => Sys2Proof.Machine.execAdd2 e o more s
  | .adds2 e o more => Sys2Proof.Machine.execAdds2 e o more s
  | .sub2 e o more => Sys2Proof.Machine.execSub2 e o more s
  | .subs2 e o more => Sys2Proof.Machine.execSubs2 e o more s
  | .and e o more => Sys2Proof.Machine.execAnd e o more s
  | .or e o more => Sys2Proof.Machine.execOr e o more s
  | .xor e o more => Sys2Proof.Machine.execXor e o more s
  | .shl2 e dst a k more => Sys2Proof.Machine.execShl2 e dst a k more s
  | .asr2 e dst a k more => Sys2Proof.Machine.execAsr2 e dst a k more s
  | .lsr e dst a k more => Sys2Proof.Machine.execLsr e dst a k more s
  | .max2 e o more => Sys2Proof.Machine.execMax2 e o more s
  | .min2 e o more => Sys2Proof.Machine.execMin2 e o more s
  | .abs2 e dst a more => Sys2Proof.Machine.execAbs2 e dst a more s
  | .cmpeq2 e o more => Sys2Proof.Machine.execCmpeq2 e o more s
  | .qz2 e o upper more => Sys2Proof.Machine.execQz2 e o upper more s
  | .byte e dst a sub more => Sys2Proof.Machine.execByte e dst a sub more s
  | .pack e o more => Sys2Proof.Machine.execPack e o more s
  | .mov e dst a more => Sys2Proof.Machine.execMov e dst a more s
  | .movs e dst a toSpecial more => Sys2Proof.Machine.execMovs e dst a toSpecial more s
  | .extr2 e dst acc k more => Sys2Proof.Machine.execExtr2 e dst acc k more s
  | .extr e dst a k more => Sys2Proof.Machine.execExtr e dst a k more s
  | .exp e dst a more => Sys2Proof.Machine.execExp e dst a more s
  | .norm e dst a more => Sys2Proof.Machine.execNorm e dst a more s
  | .dnrm e dst a k more => Sys2Proof.Machine.execDnrm e dst a k more s
  | .clra e acc more => Sys2Proof.Machine.execClra e acc more s
  | .fold e acc more => Sys2Proof.Machine.execFold e acc more s
  | .ld32 e o more => Sys2Proof.Machine.execLd32 e o more s
  | .st32 e o more => Sys2Proof.Machine.execSt32 e o more s
  | .ld16 e o more => Sys2Proof.Machine.execLd16 e o more s
  | .st16 e o more => Sys2Proof.Machine.execSt16 e o more s
  | .rot e more => Sys2Proof.Machine.execRot e more s
  | .ldi e dst imm => Sys2Proof.Machine.execLdi e dst imm s
  | .ldis e dst imm => Sys2Proof.Machine.execLdis e dst imm s
  | .br e target cond d => Sys2Proof.Machine.execBr e target cond d s
  | .loop e start stop count creg => Sys2Proof.Machine.execLoop e start stop count creg s
  | .done e => Sys2Proof.Machine.execDone e s
  | .rdreg e dst addrReg => Sys2Proof.Machine.execRdreg e dst addrReg s
  | .rdregComplete e => Sys2Proof.Machine.execRdregComplete e s
  | .trap e code => Sys2Proof.Machine.execTrap e code s
  | .zoneIntervalEnd p => Sys2Proof.Machine.execZoneIntervalEnd p s
  | .overviewIntervalEnd p => Sys2Proof.Machine.execOverviewIntervalEnd p s
  | .channelRowEval c => Sys2Proof.Machine.execChannelRowEval c s
  | .captureTickRead slot => Sys2Proof.Machine.execCaptureTickRead slot s
  | .chrArm who w => Sys2Proof.Machine.execChrArm who w s
  | .rearmEnd c => Sys2Proof.Machine.execRearmEnd c s
  | .codecBlock p verifyFails => Sys2Proof.Machine.execCodecBlock p verifyFails s
  | .reserveBlockWrite => Sys2Proof.Machine.execReserveBlockWrite s
  | .dramRefresh ch rank hot => Sys2Proof.Machine.execDramRefresh ch rank hot s
  | .refreshWindowEnd ch => Sys2Proof.Machine.execRefreshWindowEnd ch s
  | .neighbourRefresh ch rank sub bank row => Sys2Proof.Machine.execNeighbourRefresh ch rank sub bank row s
  | .patrolScrub ch addrs devices beats detected => Sys2Proof.Machine.execPatrolScrub ch addrs devices beats detected s
  | .ceWindowClose ch => Sys2Proof.Machine.execCeWindowClose ch s
  | .migrate who ch w => Sys2Proof.Machine.execMigrate who ch w s
  | .migrationComplete ch errs => Sys2Proof.Machine.execMigrationComplete ch errs s
  | .caParityError ch failedReplays log => Sys2Proof.Machine.execCaParityError ch failedReplays log s
  | .freeze who ch w log => Sys2Proof.Machine.execFreeze who ch w log s
  | .journalCopyComplete => Sys2Proof.Machine.execJournalCopyComplete s
  | .refclkLoss => Sys2Proof.Machine.execRefclkLoss s
  | .refclkOk => Sys2Proof.Machine.execRefclkOk s
  | .laneTrainingDone n eq => Sys2Proof.Machine.execLaneTrainingDone n eq s
  | .laneTrainTimeout n => Sys2Proof.Machine.execLaneTrainTimeout n s
  | .laneLockHeld n => Sys2Proof.Machine.execLaneLockHeld n s
  | .laneAcquireTimeout n => Sys2Proof.Machine.execLaneAcquireTimeout n s
  | .laneFault n x => Sys2Proof.Machine.execLaneFault n x s
  | .laneRetry n => Sys2Proof.Machine.execLaneRetry n s
  | .prbsEnable who line w => Sys2Proof.Machine.execPrbsEnable who line w s
  | .prbsInject who line w => Sys2Proof.Machine.execPrbsInject who line w s
  | .frameReceive n f => Sys2Proof.Machine.execFrameReceive n f s
  | .pauseReceive n pfcPriority quanta => Sys2Proof.Machine.execPauseReceive n pfcPriority quanta s
  | .announceReceive domain n a => Sys2Proof.Machine.execAnnounceReceive domain n a s
  | .syncReceive n x logInterval => Sys2Proof.Machine.execSyncReceive n x logInterval s
  | .delayReqSend x => Sys2Proof.Machine.execDelayReqSend x s
  | .ptpPortFail d => Sys2Proof.Machine.execPtpPortFail d s
  | .ptpRevert d => Sys2Proof.Machine.execPtpRevert d s
  | .followUpReceive n f => Sys2Proof.Machine.execFollowUpReceive n f s
  | .tcEntryExpire n domain source seqId => Sys2Proof.Machine.execTcEntryExpire n domain source seqId s
  | .pdelayReqSend x => Sys2Proof.Machine.execPdelayReqSend x s
  | .pdelayReqReceive x => Sys2Proof.Machine.execPdelayReqReceive x s
  | .arpRequest n target => Sys2Proof.Machine.execArpRequest n target s
  | .neighbourExpire n addr => Sys2Proof.Machine.execNeighbourExpire n addr s
  | .connectReq r => Sys2Proof.Machine.execConnectReq r s
  | .helloTimeout slot => Sys2Proof.Machine.execHelloTimeout slot s
  | .hello h versions replyVa replyRkey evtMask rings => Sys2Proof.Machine.execHello h versions replyVa replyRkey evtMask rings s
  | .auth h keyIndex hostNonce sigR sigS => Sys2Proof.Machine.execAuth h keyIndex hostNonce sigR sigS s
  | .read h addr count => Sys2Proof.Machine.execRead h addr count s
  | .write h addr words => Sys2Proof.Machine.execWrite h addr words s
  | .getCert h offset => Sys2Proof.Machine.execGetCert h offset s
  | .attestNow h nonce => Sys2Proof.Machine.execAttestNow h nonce s
  | .close h => Sys2Proof.Machine.execClose h s
  | .ping h => Sys2Proof.Machine.execPing h s
  | .doorbellWrite slot op ci => Sys2Proof.Machine.execDoorbellWrite slot op ci s
  | .rdmaAck slot count => Sys2Proof.Machine.execRdmaAck slot count s
  | .ackTimeout slot => Sys2Proof.Machine.execAckTimeout slot s
  | .sequenceNak slot => Sys2Proof.Machine.execSequenceNak slot s
  | .cnpReceive slot => Sys2Proof.Machine.execCnpReceive slot s
  | .rateRecovery slot => Sys2Proof.Machine.execRateRecovery slot s
  | .recordProduce => Sys2Proof.Machine.execRecordProduce s
  | .journalResume slot => Sys2Proof.Machine.execJournalResume slot s
  | .piWrite slot stream => Sys2Proof.Machine.execPiWrite slot stream s
  | .sessionPathFail slot => Sys2Proof.Machine.execSessionPathFail slot s
  | .housekeepingPeriodEnd periodMs => Sys2Proof.Machine.execHousekeepingPeriodEnd periodMs s
  | .udpRecordSend policy atLineRate => Sys2Proof.Machine.execUdpRecordSend policy atLineRate s
  | .dacScope meas => Sys2Proof.Machine.execDacScope meas s
  | .adcScope p slices => Sys2Proof.Machine.execAdcScope p slices s
  | .cfeScope p rgain iq => Sys2Proof.Machine.execCfeScope p rgain iq s
  | .rfeScope slices intGain => Sys2Proof.Machine.execRfeScope slices intGain s
  | .hkcScope refUv zeroUv offsets => Sys2Proof.Machine.execHkcScope refUv zeroUv offsets s
  | .tisScope edges => Sys2Proof.Machine.execTisScope edges s
  | .freqScope measHz32 => Sys2Proof.Machine.execFreqScope measHz32 s
  | .calResultWrite => Sys2Proof.Machine.execCalResultWrite s
  | .calAbort who w => Sys2Proof.Machine.execCalAbort who w s
  | .refInMeasurement ppb => Sys2Proof.Machine.execRefInMeasurement ppb s
  | .delayRespReceive n x => Sys2Proof.Machine.execDelayRespReceive n x s
  | .pdelayRespReceive n x => Sys2Proof.Machine.execPdelayRespReceive n x s
  | .pauseExpire n => Sys2Proof.Machine.execPauseExpire n s
  | .ppsOutPulseEnd => Sys2Proof.Machine.execPpsOutPulseEnd s
  | .neighbourUnreachable n addr => Sys2Proof.Machine.execNeighbourUnreachable n addr s
  | .authFailClose slot => Sys2Proof.Machine.execAuthFailClose slot s
  | .calCommand who w => Sys2Proof.Machine.execCalCommand who w s
  | .nvmWindowWrite who addr w => Sys2Proof.Machine.execNvmWindowWrite who addr w s

end Sys2Proof.Machine
end

