-- ==== Sys2Proof/Machine/Lands.lean ====
section
/-!
DEFINITION. Machine/Lands.lean: the levels that the module drives on its LVCMOS outputs (Table 02-12) and its APD outputs (R159), read off the state.
-/
namespace Sys2Proof.Machine

/-- What stands on an output land: driven low, driven high, or not driven (a released open drain, high impedance). -/
inductive Level where
  | low | high | released
deriving DecidableEq, Repr

/-- A driven land. -/
def Level.drive (b : Bool) : Level := if b then .high else .low

/-- The output lands of Table 02-12, and the APD outputs in µV. -/
structure Lands where
  mgmtSdo  : Level
  mgmtIrqN : Level
  ppsOut   : Level
  evtOut   : Nat
  swA      : Nat
  swB      : Nat
  rtrigA   : Level
  rtrigB   : Level
  mc0PwrEn : Level
  mc1PwrEn : Level
  nvmCsN   : Level
  nvmRstN  : Level
  pfailN   : Level
  pgood    : Level
  apdUv    : List Rat              -- APD_ST_A, APD_AS_A, APD_ST_B, APD_AS_B (R159)
deriving DecidableEq, Repr

/-- RTRIG of a port (R131): high from a shot for WIDTH × 5 ns. -/
def Mach.rtrig (m : Mach) (p : Port) : Level :=
  .drive (match (m.dts.at p).trigEnd with | some c => decide (m.count < c) | none => false)

/-- The lands between two commands (R45, R88, R95, R111, R131, R132): MGMT_SDO is driven within a frame alone, and the commands to the NVM and its reset pulse of
Table 03-1 are over. The APD generators are off in SLEEP (Table 18-4), and here while the core is down (log entry 83). -/
def Mach.lands (m : Mach) : Lands where
  mgmtSdo := .released
  mgmtIrqN := if m.irq then .low else .released
  ppsOut := .drive m.pwr.ppsOut
  evtOut := m.evt.out
  swA := m.get (F.ESC_SW_STATUS_CODE 0)
  swB := m.get (F.ESC_SW_STATUS_CODE 1)
  rtrigA := m.rtrig .A
  rtrigB := m.rtrig .B
  mc0PwrEn := .drive m.pwr.mcPwrEn
  mc1PwrEn := .drive m.pwr.mcPwrEn
  nvmCsN := .high
  nvmRstN := .high
  pfailN := .drive (!m.on F.SYS_POWER_PFAIL)
  pgood := .drive m.pwr.pgood
  apdUv := [0, 1, 2, 3].map fun o => if m.alive && m.get F.SYS_PWR_STATE_PSTATE != 4 then m.apdUv o else 0

end Sys2Proof.Machine
end

