-- ==== Sys2Proof/Safety.lean ====
section
/-!
DEFINITION. Safety.lean: what counts as a safe step and as a legal state, and how a statement says what a command does and what it leaves, in the terms the
statements use.
-/
namespace Sys2Proof.Machine

/-- A step that answers a next state. -/
def Answers (o : Host.Outcome State Fault Refusal) : Prop := ∃ t, o = .next t

/-- A run of `n` steps that stops nowhere and ends in `t`. -/
def Runs : Nat → State → State → Prop
  | 0, s, t => s = t
  | n + 1, s, t => ∃ u, step s = .next u ∧ Runs n u t

/-- The contents of the NOR keep their canonical form: addresses rising, no byte equal to the erased value listed. -/
def NorCanonical (s : State) : Prop := mapWf 0xFF s.nv.nor = true

/-- What OTP promises (R55, R58): from `o` to `o'` SEC_VER never decreases, a programmed hash stays, and a revoked slot stays revoked. -/
def OtpGrows (o o' : Otp) : Prop :=
  o.secVer ≤ o'.secVer ∧
  ∀ k < 4, (∀ h, (o.keys.getD k {}).hash = some h → (o'.keys.getD k {}).hash = some h) ∧
    ((o.keys.getD k {}).revoked = true → (o'.keys.getD k {}).revoked = true)

/-- The command completes: it answers a next state in which the queue and the stores stand as before, and of whose machine `P` holds. -/
def Completes (c : Instr) (s : State) (P : Mach → Prop) : Prop := ∃ m', exec c s = .next { s with m := m' } ∧ P m'

/-- The command completes, and may write the stores: of the stores and the machine after it `P` holds; the queue stands as before. -/
def CompletesNv (c : Instr) (s : State) (P : NonVol → Mach → Prop) : Prop :=
  ∃ nv' m', exec c s = .next { pending := s.pending, nv := nv', m := m' } ∧ P nv' m'

/-- Every field of every register and every table word but the fields `fs` reads in `m'` as in `m`. -/
def Keeps (fs : List Fld) (m m' : Mach) : Prop := ∀ k, k ∉ fs.map Fld.key → mapGet 0 m'.regs.act k = mapGet 0 m.regs.act k

/-- The same for whole blocks of the register map (Table 04-3, by bits [23:16] of the address): every field outside the blocks `bs` reads as before. -/
def KeepsOutside (bs : List Nat) (m m' : Mach) : Prop := ∀ k, k / 0x200000 ∉ bs → mapGet 0 m'.regs.act k = mapGet 0 m.regs.act k

/-- `m'` differs from `m` in the active registers alone, and there in the fields `fs` alone. -/
def OnlyFields (fs : List Fld) (m m' : Mach) : Prop := m' = { m with regs := { m.regs with act := m'.regs.act } } ∧ Keeps fs m m'

/-- A master's access to the register at the lowest address `a` is performed (R69, R71, R75, R76): the block has its supply, the master is no engine, a guarded
register meets a secure master, the part that holds it answers, and a session is open (R70). -/
def MayAccess (m : Mach) (who : Master) (a : Nat) : Prop :=
  m.pwr.supply = true ∧ (∀ e, who ≠ .jewel e) ∧ (guardedAt a = true → (m.accessOf who false).secure = true) ∧ m.answers a = true ∧
  m.heard who = true

/-- `m'` differs from `m` in the fields `fs` and by the events that were issued: EVT.PEND and the log, the count of lost entries, EVENT records and the EVT_OUT pins. -/
def Eventful (fs : List Fld) (m m' : Mach) : Prop :=
  m' = { m with regs := { m.regs with act := m'.regs.act }, evt := m'.evt, recs := m'.recs } ∧ Keeps (F.EVT_PEND :: F.EVT_LOG_COUNT_LOST :: fs) m m'

/-- An event is issued (R94, R95): PEND takes its class, and it is logged with its code, port, ARG and device time unless 16 entries wait. -/
def Issues (cls n port arg : Nat) (m m' : Mach) : Prop :=
  bitOf (m'.get F.EVT_PEND) cls = true ∧
  (m.evt.log.length < 16 → m'.evt.log = m.evt.log ++ [⟨cls, 0x100 * cls + n, port, arg, m.now⟩]) ∧
  (16 ≤ m.evt.log.length → m'.evt.log = m.evt.log)

/-- Port Pn takes `k` frames of the module's own: they leave at once with the port's tag (R359), or wait with the forwarded frames that wait for the port (R23), or
for the port while it is held or its lane starts no frame (R352, R360); a lane that is not UP sends none (R356). -/
def Sends (n k : Nat) (m m' : Mach) : Prop :=
  let count := F.NET_TX_FRAMES_COUNT n
  let waits := 2 ≤ n ∧ (m.net.fwd.ix (fwdDir n)).queue ≠ []
  let tagged := (m.modPort n fun p => { p with tci := m.tagOf n }).net
  (m.laneUp n = false → m'.net = m.net ∧ m'.get count = m.get count) ∧
  (m.laneUp n = true → m.portFree n = false → m'.net = (m.modPort n fun p => { p with waiting := p.waiting + k }).net ∧ m'.get count = m.get count) ∧
  (m.portFree n = true → ¬ waits → m'.net = tagged ∧ m'.get count = min (m.get count + k) count.max) ∧
  (m.portFree n = true → waits → m'.get count = m.get count ∧
    m'.net = { tagged with fwd := m.net.fwd.putIx (fwdDir n) { m.net.fwd.ix (fwdDir n) with own := (m.net.fwd.ix (fwdDir n)).own + k } })

/-- Port Pn takes `k` frames for a host (R373): they go where its neighbour is resolved, and wait for the neighbour otherwise; one that the port does not keep is asked
for. -/
def SendsTo (n : Nat) (a : BitVec 128) (k : Nat) (m m' : Mach) : Prop :=
  let h := m.nextHop n a
  (m.laneUp n = false → Sends n k m m' ∧ m'.recs.neighbours = m.recs.neighbours) ∧
  (∀ e, m.laneUp n = true → m.neighbour n h = some e → e.st = .resolved → Sends n k m m' ∧ m'.recs.neighbours = m.recs.neighbours) ∧
  (∀ e, m.laneUp n = true → m.neighbour n h = some e → e.st ≠ .resolved → m'.net = m.net ∧
    m'.get (F.NET_TX_FRAMES_COUNT n) = m.get (F.NET_TX_FRAMES_COUNT n) ∧
    m'.recs.neighbours = (m.putNeighbour { e with waiting := e.waiting + k }).recs.neighbours) ∧
  (m.laneUp n = true → m.neighbour n h = none → Sends n 1 m m' ∧ m'.recs.neighbours = (m.putNeighbour ⟨n, h, .asking, m.now, k⟩).recs.neighbours)

/-- From `m` to `m'` the record engine has worked: journals are written and read through both memory channels (R345, R375), frames leave, events are issued;
nothing else changes. -/
def OnlyRecords (m m' : Mach) : Prop :=
  m' = { m with regs := { m.regs with act := m'.regs.act }, mcs := m'.mcs, pwr := { m.pwr with entering := m'.pwr.entering, wakeAt := m'.pwr.wakeAt },
                net := m'.net, evt := m'.evt, recs := m'.recs } ∧ KeepsOutside [0, 2, 15, 16, 17] m m'

/-- Neither memory channel holds an error or a poisoned burst. -/
def MemorySound (m : Mach) : Prop := ∀ ch < 2, (m.mc ch).errs = [] ∧ (m.mc ch).poison = []

/-- A command of the SEC block by a master is performed (R58, R71, R75): the block has its supply, the master is secure, a session is open, and the core runs. -/
def MaySec (m : Mach) (who : Master) : Prop :=
  m.pwr.supply = true ∧ (m.accessOf who false).secure = true ∧ m.fabricUp = true ∧ m.heard who = true

/-- The machine with the last access of the register bus ended without error and without data. -/
def Mach.done (m : Mach) : Mach := { m with bus := {} }

/-- Of the machine only engine `e` changes, and it is then `k`. -/
def OnlyJewel (e : Nat) (k : Jewel) (m m' : Mach) : Prop :=
  m'.jewel e = k ∧ (∀ i, i ≠ e → m'.jewel i = m.jewel i) ∧ m' = { m with train := { m.train with jewels := m'.train.jewels } }

/-- Engine `e` ends its tile `t` with a trap (R258): the result waits, the trap is counted, recorded and reported, and the engine is free, its registers and memories
as they were. -/
def Traps (e : Nat) (t : Tile) (code soft : Nat) (m m' : Mach) : Prop :=
  m'.train.results = m.train.results ++ [⟨t, 1, code, []⟩] ∧
  m'.jewel e = { m.jewel e with run := none, openB := none, rdreg := none, stole := false, cycles := 0, idleAt := some m.count } ∧ (∀ i, i ≠ e → m'.jewel i = m.jewel i) ∧
  m'.get F.TRAIN_LAST_TRAP_CODE = code % 2 ^ F.TRAIN_LAST_TRAP_CODE.width ∧ m'.get F.TRAIN_LAST_TRAP_SOFT = soft % 2 ^ F.TRAIN_LAST_TRAP_SOFT.width ∧
  Issues 9 0 (evPort t.id.port) (evArg e code 0) m m' ∧
  Eventful [F.TRAIN_TRAP_CNT_COUNT, F.TRAIN_LAST_TRAP_CODE, F.TRAIN_LAST_TRAP_SOFT, F.TRAIN_LAST_TRAP_PORT, F.TRAIN_LAST_TRAP_PC, F.TRAIN_LAST_TROW_TROW]
    { m with train := { m.train with jewels := m'.train.jewels, results := m'.train.results } } m'

/-- The core as a reset leaves it (Table 18-3): it waits for its start with the cause; every register outside the always-on domain and every part outside it
stands at its reset value (INTLK_LOW shows the pin). -/
def CoreReset (cause : Nat) (m : Mach) : Prop :=
  m.pwr.phase = .reset ∧ m.pwr.holds = [] ∧ m.get F.SYS_RESET_CAUSE_CAUSE = cause ∧
  (∀ k, aoReg (k / 32) = false → k ∉ [(F.ESC_STATUS_INTLK_LOW 0).key, (F.ESC_STATUS_INTLK_LOW 1).key] → mapGet 0 m.regs.act k = mapGet 0 resetFields k) ∧
  m = { Mach.reset with regs := { act := m.regs.act }, pwr := m.pwr, evt := m.evt, bus := m.bus, clk := m.clk, mgmt := m.mgmt, mcs := m.mcs,
                        recs := m.recs, free := m.free }

end Sys2Proof.Machine
end

