-- ==== Sys2Proof/Certificates/Slice0/Obligations.lean ====
section
/-!
DEFINITION. Certificates/Slice0/Obligations.lean: the statements for the provers. A statement about a command says in which states it completes, what it leaves
in the registers and parts that it writes, and that everything else stays (its frame); `Completes` says that the queue and the stores stand as before.
-/
section
open Sys2Proof Sys2Proof.Machine

/-- The front command of the queue is performed with the rest of the queue (the queue is the model's own, log entry 1). -/
def Obligations.QueueFront : Prop :=
  ∀ (c : Instr) (rest : List Instr) (s : State), step { s with pending := c :: rest } = exec c { s with pending := rest }

/-- With no command waiting, one cycle passes (R106, R114). While the core runs, every engine that runs a tile issues the bundle at its pc, or passes a cycle of a stall or
of the wait for an RDREG (R255 to R257), traps beyond bundle 1,023 or at the end of CYC_MAX (Table 11-10), and the forwarded frames whose egress stamp has passed leave
(R367). That a step on an empty queue is a tick is the model's choice (log entry 1). -/
def Obligations.IdleTick : Prop :=
  ∀ s : State, s.pending = [] → s.m.pwr.entering = none →
    (s.m.fabricUp = false →
      ∃ m', step s = .next { s with m := m' } ∧
        m'.clk.coarse = (s.m.clk.coarse + 1) % 2 ^ 48 ∧
        m'.clk.wraps = s.m.clk.wraps + (s.m.clk.coarse + 1) / 2 ^ 48 ∧
        (∃ r : Nat, r ≤ 1 ∧
          m'.clk.dev = (s.m.clk.dev + (s.m.clk.frac + devStep s.m.trim 1 + r) / 2 ^ 32) % 2 ^ 64 ∧
          m'.clk.frac = (s.m.clk.frac + devStep s.m.trim 1 + r) % 2 ^ 32) ∧
        m'.clk.reg = s.m.clk.reg ∧
        m' = { s.m with regs := { s.m.regs with act := m'.regs.act }, clk := m'.clk, free := m'.free } ∧
        Keeps [F.TIS_STATUS_OVF] s.m m') ∧
    (s.m.fabricUp = true → (mapKeys s.m.train.jewels).Nodup → let w := s.m.advance 1
      ∃ m', step s = .next { s with m := m' } ∧ m'.clk = w.clk ∧ m'.acq = s.m.acq ∧ m'.mcs = s.m.mcs ∧
        (∀ e, (s.m.jewel e).run = none → m'.jewel e = s.m.jewel e) ∧
        (∀ e t, (s.m.jewel e).run = some t → let j := { s.m.jewel e with cycles := (s.m.jewel e).cycles + 1 }
          let ended (code : Nat) : Prop := (m'.jewel e).run = none ∧ (⟨t, 1, code, []⟩ : TileResult) ∈ m'.train.results
          (t.cycMax ≤ j.cycles → j.rdreg.isSome = true ∨ 0 < j.stall → ended 5) ∧
          (j.rdreg = none → j.stall = 0 → 1023 < j.pc → ended 7) ∧
          (j.cycles < t.cycMax →
            (j.rdreg.isSome = true → m'.jewel e = j) ∧
            (j.rdreg = none → 0 < j.stall → m'.jewel e = { j with stall := j.stall - 1 }) ∧
            (j.rdreg = none → j.stall = 0 → j.pc ≤ 1023 → let r := j.issue (bundleAt j.imem j.pc)
              r.2 = .goOn → m'.jewel e = ({ r.1 with openB := none }).advancePc))) ∧
        (∀ k < 2, s.m.laneSends (dirEgress k) = true →
          (m'.net.fwd.ix k).queue = (s.m.net.fwd.ix k).queue.filter fun h => decide (w.lsbNow < h.leaves)))

/-- Every command completes in every state, as does every step, and keeps what OTP promises (R55, R58), reached or not. -/
def Obligations.OtpGrowsEveryStep : Prop :=
  (∀ (c : Instr) (s : State), ∃ t, exec c s = .next t ∧ OtpGrows s.nv.otp t.nv.otp) ∧
  ∀ s : State, ∃ t, step s = .next t ∧ OtpGrows s.nv.otp t.nv.otp

/-- Every command and every step completes and keeps the canonical form of the NOR's bytes, the block's addressed non-volatile memory; no command but
NVM_WINDOW_WRITE writes them. -/
def Obligations.NorCanonicalEveryStep : Prop :=
  (∀ (c : Instr) (s : State), NorCanonical s → ∃ t, exec c s = .next t ∧ NorCanonical t ∧ ((∀ who a w, c ≠ .nvmWindowWrite who a w) → t.nv.nor = s.nv.nor)) ∧
  ∀ s : State, NorCanonical s → ∃ t, step s = .next t ∧ NorCanonical t

/-- The state after reset (R11, R45 and the reset columns of the register tables; the blank stores are the model's choice, log entry 5). -/
def Obligations.ResetState : Prop :=
  NorCanonical State.reset ∧ State.reset.pending = [] ∧
  State.reset.m.get F.SYS_ID_PART = 0x7160 ∧ State.reset.m.get F.SYS_POWER_PFAIL = 1 ∧ State.reset.m.get F.CLK_REG_STATUS_SRC = 7 ∧
  (∀ f < 2, State.reset.m.get (F.TIS_FU_CTRL_GATE_MS f) = 1000) ∧ (∀ g < 8, State.reset.m.get (F.ADC_GRP_MAP_SPARE_POS g) = 31) ∧
  State.reset.m.get F.ADC_RAMAN_MAP_SPARE0_FOR = 15 ∧ State.reset.m.get F.ADC_RAMAN_MAP_SPARE1_FOR = 15 ∧
  State.reset.m.get F.ADC_RAW_LEN_BLOCKS = 1 ∧ State.reset.m.get F.CODEC_STATUS_POOL_FREE = 0x200 ∧
  State.reset.m.lands = { mgmtSdo := .released, mgmtIrqN := .released, ppsOut := .low, evtOut := 0, swA := 0, swB := 0, rtrigA := .low, rtrigB := .low,
                          mc0PwrEn := .low, mc1PwrEn := .low, nvmCsN := .high, nvmRstN := .high, pfailN := .low, pgood := .low, apdUv := [0, 0, 0, 0] } ∧
  (∀ k, k ∉ resetFields.map (·.1) → mapGet 0 State.reset.m.regs.act k = 0) ∧ State.reset.m.recs.ready = []

/-- UVLO_RISING, PGOOD_RISE and WARNING_CLEAR (R35, R41, R42, R137), with their frames. -/
def Obligations.SupplyRises : Prop :=
  ∀ s : State,
    (s.m.pwr.supply = false → Completes .uvloRising s fun m =>
      m.pwr = { phase := .reset, supply := true, v33 := true, vaux12 := true, intlkN := s.m.pwr.intlkN } ∧
      m.get F.SYS_RESET_CAUSE_CAUSE = 0 ∧ m.on F.CLK_XO_STATUS_XO0_OK ∧ m.on F.CLK_XO_STATUS_XO1_OK ∧ m.on F.CLK_XO_STATUS_PLL_LOCK ∧
      (∀ i < 2, m.get (F.ESC_STATUS_INTLK_LOW i) = bit (!s.m.pwr.intlkN)) ∧
      Keeps [F.CLK_XO_STATUS_XO0_OK, F.CLK_XO_STATUS_XO1_OK, F.CLK_XO_STATUS_PLL_LOCK, F.ESC_STATUS_INTLK_LOW 0, F.ESC_STATUS_INTLK_LOW 1] Mach.reset m ∧
      m = { Mach.reset with regs := { act := m.regs.act }, pwr := m.pwr, bus := s.m.bus, free := s.m.free }) ∧
    (s.m.pwr.supply = true → s.m.pwr.v33 = true → s.m.pwr.vaux12 = true → Completes .pgoodRise s fun m =>
      m = { s.m with pwr := { s.m.pwr with pgood := true } }) ∧
    (s.m.pwr.supply = true → Completes .warningClear s fun m =>
      m.get F.SYS_POWER_PFAIL = 0 ∧ Keeps [F.SYS_POWER_PFAIL] s.m m ∧
      m = { s.m with regs := { s.m.regs with act := m.regs.act }, pwr := m.pwr, acq := m.acq } ∧
      m.pwr = { s.m.pwr with lightAt := if s.m.pwr.intlkN then some (s.m.pwr.lightAt.getD s.m.now) else none } ∧
      ∀ p : Port, m.acqOf p = { s.m.acqOf p with clearAt := (m.acqOf p).clearAt, startAt := (m.acqOf p).startAt } ∧
        (m.acqOf p).clearAt = if m.permits p then some (((s.m.acqOf p).clearAt).getD s.m.now) else none)

/-- POWER_FAIL_WARNING and UVLO_FALLING (R35, R43, R51, R436): in NAP the warning wakes the module, which then does the same; in SLEEP the marker formed at entry is written.
That a step takes no time of its own is log entry 1's, that the power-fail sequence is one step with what its
limits allow taken as done log entry 74's. -/
def Obligations.SupplyFalls : Prop :=
  ∀ s : State, s.m.pwr.supply = true →
    (s.m.alive = true → s.m.get F.SYS_PWR_STATE_PSTATE < 3 → CompletesNv .powerFailWarning s fun nv m =>
      m.get F.SYS_STATE_MODE = 4 ∧ m.pwr.phase = .held ∧ .powerFail ∈ m.pwr.holds ∧
      (∃ k : Marker, nv = { s.nv with markers := writeMarker s.nv.markers k } ∧ k.cause = 0)) ∧
    (s.m.alive = true → s.m.get F.SYS_PWR_STATE_PSTATE = 3 → CompletesNv .powerFailWarning s fun nv m =>
      m.get F.SYS_STATE_MODE = 4 ∧ m.pwr.phase = .held ∧ .powerFail ∈ m.pwr.holds ∧ m.pwr.wakeAt = none ∧ m.get F.SYS_PWR_STATE_PSTATE = 0 ∧
      (∃ k : Marker, nv = { s.nv with markers := writeMarker s.nv.markers k } ∧ k.cause = 0)) ∧
    (s.m.alive = false → Completes .powerFailWarning s fun m =>
      m.get F.SYS_POWER_PFAIL = 1 ∧ Keeps [F.SYS_POWER_PFAIL] s.m m ∧
      m = { s.m with regs := { s.m.regs with act := m.regs.act }, pwr := { s.m.pwr with lightAt := none }, acq := m.acq }) ∧
    (∀ k, s.m.alive = true → s.m.get F.SYS_PWR_STATE_PSTATE = 4 → s.m.pwr.marker = some k → CompletesNv .powerFailWarning s fun nv m =>
      m.get F.SYS_STATE_MODE = 4 ∧ m.pwr.phase = .held ∧ .powerFail ∈ m.pwr.holds ∧ nv = { s.nv with markers := writeMarker s.nv.markers k }) ∧
    Completes .uvloFalling s (fun m =>
      m.pwr = { intlkN := s.m.pwr.intlkN } ∧
      Keeps [F.ESC_STATUS_INTLK_LOW 0, F.ESC_STATUS_INTLK_LOW 1] Mach.reset m ∧
      m = { Mach.reset with regs := { act := m.regs.act }, pwr := m.pwr, bus := s.m.bus, free := s.m.free })

/-- FEED_WINDOW_CHANGE, FEED_OVER_VOLTAGE, FEED_RECONNECT and OUTPUT_OVERCURRENT (R33, R34, R38). That a feed cut off for over-voltage counts as
outside its window at once is the model's choice (log entry 81). -/
def Obligations.FeedsAndOutputs : Prop :=
  ∀ s : State, s.m.pwr.supply = true →
    (∀ (inside : Bool), Completes (.feedWindowChange .VIN_A inside) s fun m =>
      m.on F.SYS_POWER_FEED_A_OK = (inside && !s.m.on F.SYS_POWER_FEED_A_OVP) ∧
      Keeps [F.SYS_POWER_FEED_A_OK, F.EVT_PEND, F.EVT_LOG_COUNT_LOST] s.m m ∧
      m.pwr = { s.m.pwr with feedSeen := { s.m.pwr.feedSeen with a := true } } ∧
      (s.m.pwr.feedSeen.a = false → m.evt = s.m.evt ∧ m.recs = s.m.recs) ∧
      m = { s.m with regs := { s.m.regs with act := m.regs.act }, pwr := m.pwr, evt := m.evt, recs := m.recs }) ∧
    (∀ (inside : Bool), Completes (.feedWindowChange .VIN_B inside) s fun m =>
      m.on F.SYS_POWER_FEED_B_OK = (inside && !s.m.on F.SYS_POWER_FEED_B_OVP) ∧
      Keeps [F.SYS_POWER_FEED_B_OK, F.EVT_PEND, F.EVT_LOG_COUNT_LOST] s.m m ∧
      m.pwr = { s.m.pwr with feedSeen := { s.m.pwr.feedSeen with b := true } } ∧
      (s.m.pwr.feedSeen.b = false → m.evt = s.m.evt ∧ m.recs = s.m.recs) ∧
      m = { s.m with regs := { s.m.regs with act := m.regs.act }, pwr := m.pwr, evt := m.evt, recs := m.recs }) ∧
    Completes (.feedOverVoltage .VIN_A) s (fun m =>
      m.on F.SYS_POWER_FEED_A_OVP = true ∧ m.on F.SYS_POWER_FEED_A_OK = false ∧
      Keeps [F.SYS_POWER_FEED_A_OVP, F.SYS_POWER_FEED_A_OK, F.EVT_PEND, F.EVT_LOG_COUNT_LOST] s.m m) ∧
    Completes (.feedOverVoltage .VIN_B) s (fun m =>
      m.on F.SYS_POWER_FEED_B_OVP = true ∧ m.on F.SYS_POWER_FEED_B_OK = false ∧
      Keeps [F.SYS_POWER_FEED_B_OVP, F.SYS_POWER_FEED_B_OK, F.EVT_PEND, F.EVT_LOG_COUNT_LOST] s.m m) ∧
    Completes (.feedReconnect .VIN_A) s (fun m => m.get F.SYS_POWER_FEED_A_OVP = 0 ∧ OnlyFields [F.SYS_POWER_FEED_A_OVP] s.m m) ∧
    Completes (.feedReconnect .VIN_B) s (fun m => m.get F.SYS_POWER_FEED_B_OVP = 0 ∧ OnlyFields [F.SYS_POWER_FEED_B_OVP] s.m m) ∧
    (∀ o : Output, (match o with | .VAUX12 => s.m.pwr.vaux12 | .V33_OUT => s.m.pwr.v33) = true → Completes (.outputOvercurrent o) s fun m =>
      m.get F.SYS_POWER_OUT_FAULT = 1 ∧ m.pwr.phase = .held ∧ .output ∈ m.pwr.holds ∧ (∀ h ∈ s.m.pwr.holds, h ∈ m.pwr.holds) ∧ m.pwr.pgood = false ∧ m.pwr.mcPwrEn = false ∧ m.pwr.mcDrstN = false ∧
      m.pwr.vaux12 = (s.m.pwr.vaux12 && o != .VAUX12) ∧ m.pwr.v33 = (s.m.pwr.v33 && o != .V33_OUT) ∧
      m.recs = {} ∧ m.mcs = ⟨{}, {}⟩)

/-- Every reset of the core ends in the state of Table 18-3 with its own CAUSE (R28, R35, R98, R424 to R427). That a warm reset with no port running and no
backscatter to process is there at once, with what the limits of Table 18-2 let finish taken as finished, is log entry 40's choice; when PIN_RESET is taken, which
holds it ends and that the module stays in reset until RESET_N is high again is log entry 74's; a restart that is not due changes nothing (log entry 3). -/
def Obligations.CoreResets : Prop :=
  ∀ s : State,
    (s.m.pwr.supply = true → (s.m.pwr.pgood = true ∨ .output ∈ s.m.pwr.holds) → .thermal ∉ s.m.pwr.holds → .crystals ∉ s.m.pwr.holds → Completes .pinReset s fun m =>
      CoreReset 1 m ∧ m.pwr.resetN = false ∧ m.pwr.vaux12 = true ∧ m.pwr.v33 = true ∧ m.pwr.trained = ⟨false, false⟩ ∧ m.pwr.safeKept = 0 ∧ m.recs = {}) ∧
    (s.m.alive = true → s.m.pwr.holds = [] → Completes .watchdogReset s fun m =>
      CoreReset 3 m ∧ m.pwr.safeKept = if s.m.get F.SYS_STATE_MODE = 2 then s.m.get F.SYS_STATE_SAFE_REASON else 0) ∧
    (s.m.alive = true → s.m.pwr.holds = [] → Completes .fatalError s fun m =>
      CoreReset 4 m ∧ m.pwr.safeKept = if s.m.get F.SYS_STATE_MODE = 2 then s.m.get F.SYS_STATE_SAFE_REASON else 0) ∧
    (∀ who, MayAccess s.m who F.SYS_RESET_KEY.addr → s.m.alive = true → s.m.pwr.drain = none →
      (s.m.pwr.holds = [] → s.m.running .A = false → s.m.running .B = false → s.m.forming .A = false → s.m.forming .B = false →
        Completes (.warmReset who 0x5AFE) s fun m => CoreReset 2 m ∧ m.bus = {}) ∧
      (s.m.running .A = false → s.m.running .B = false → s.m.forming .A = true ∨ s.m.forming .B = true → Completes (.warmReset who 0x5AFE) s fun m =>
        m.pwr = { s.m.pwr with drain := some s.m.now } ∧ m.get F.CFG_COMMIT_STATUS_STATE = 0 ∧ m.clk = s.m.clk ∧ m.net = s.m.net ∧ m.mcs = s.m.mcs) ∧
      (s.m.running .A = true ∨ s.m.running .B = true → Completes (.warmReset who 0x5AFE) s fun m =>
        m.pwr = { s.m.pwr with drain := some s.m.now } ∧ m.acq = s.m.acq ∧ m.get F.CFG_COMMIT_STATUS_STATE = 0 ∧
        m = { s.m.done with regs := m.regs, pwr := m.pwr, commit := m.commit })) ∧
    (s.m.pwr.holds = [.thermal] → s.m.pwr.dieMk < 368150 → Completes .thermalRestart s (CoreReset 5)) ∧
    (s.m.pwr.holds = [.thermal] → 368150 ≤ s.m.pwr.dieMk → Completes .thermalRestart s fun m => m = s.m) ∧
    (∀ g0 g1, s.m.pwr.holds = [.crystals] → (g0 || g1) = true → Completes (.xoFailRestart g0 g1) s fun m =>
      CoreReset 6 m ∧ m.on F.CLK_XO_STATUS_XO0_OK = g0 ∧ m.on F.CLK_XO_STATUS_XO1_OK = g1 ∧ m.get F.CLK_XO_STATUS_PLL_HOLD = 0) ∧
    (s.m.pwr.holds = [.powerFail] → s.m.on F.SYS_POWER_PFAIL = false → Completes .pfRecoverRestart s (CoreReset 7))

/-- PORT_RESET, LANE_RESET and ENGINE_RESET (R266, R357, R428). That each takes effect with its write, a port's when its acquisition has stopped, and takes no time of
its own is log entry 1's. -/
def Obligations.PartResets : Prop :=
  ∀ (s : State) (who : Master), MayAccess s.m who F.SYS_RESET_KEY.addr → s.m.calBusy = false → s.m.pwr.drain = none →
    (∀ p : Port, (s.m.acqOf p).resetWrite = none →
      (s.m.running p = true → Completes (.portReset who 0x5AFE p) s fun m =>
        m = { s.m with acq := s.m.acq.put p { s.m.acqOf p with resetWrite := some s.m.now }, bus := {} }) ∧
      (s.m.running p = false → Completes (.portReset who 0x5AFE p) s fun m =>
        (m.acqOf p).resetWrite = some s.m.now ∧ (m.acqOf p).startAt = none ∧ m.cfe.at p = {} ∧
        m.pwr = s.m.pwr ∧ m.clk = s.m.clk ∧ m.net = s.m.net)) ∧
    (∀ n < 4, Completes (.laneReset who 0x5AFE n) s fun m =>
      m.get (F.NET_PRBS_CTRL_GEN_EN n) = 0 ∧ m.get (F.NET_PRBS_CTRL_CHK_EN n) = 0 ∧ m.get (F.NET_PRBS_CTRL_PATTERN n) = 0 ∧
      m.get (F.NET_PRBS_CTRL_INJ_RATE n) = 0 ∧ m.get (F.NET_PRBS_STATUS_LOCK n) = 0 ∧ m.get (F.NET_PRBS_ERR_COUNT n) = 0 ∧
      m.get (F.NET_PORT_STATUS_STATE n) =
        (if s.m.on (F.NET_PORT_CTRL_EN n) && s.m.on F.NET_REFCLK_OK then (if s.m.on (F.NET_PORT_CTRL_TRAIN_EN n) then 1 else 2) else 0) ∧
      m.pwr = s.m.pwr ∧ m.clk = s.m.clk ∧ m.acq = s.m.acq ∧ m.train = s.m.train) ∧
    (∀ e < 64, Completes (.engineReset who 0x5AFE e) s fun m =>
      m.jewel e = { imem := s.m.train.mImem, x := s.m.train.mCx, y := s.m.train.mCy, back := true } ∧ (if e < 32 then bitOf (m.get F.TRAIN_RETIRED_LO_RETIRED) e else bitOf (m.get F.TRAIN_RETIRED_HI_RETIRED) (e - 32)) = false ∧
      m = { s.m with regs := { s.m.regs with act := m.regs.act }, train := m.train, bus := {} })

/-- START_SEQUENCE, TRAINING_COMPLETE and FIRST_BEAT (R46 to R48, R54, R317): a start with a valid image waits for training at step 8, and reaches RUN when training has ended
and every port that the image enables has its first beat. The steps' times before training are not counted (log entry 1), what
SAFE and PROVISION end is log entry 73's, and a command that comes out of its step changes nothing (log entry 3). -/
def Obligations.StartSequence : Prop :=
  ∀ s : State,
    (∀ mk ok0 ok1, Completes (.startSequence ⟨false, mk⟩ ok0 ok1) s fun m => m = { s.m with pwr := { s.m.pwr with resetN := false } }) ∧
    (∀ mk ok0 ok1, s.m.pwr.phase = .reset → s.m.pwr.supply = true → s.m.pwr.pgood = true →
      (CompletesNv (.startSequence ⟨true, mk⟩ ok0 ok1) s fun nv _ => nv = { s.nv with markers := trimMarkers s.nv.markers, boot0 := nv.boot0, boot1 := nv.boot1, fwVer := nv.fwVer, otp := nv.otp }) ∧
      ((∀ k ∈ s.nv.otp.keys, k.hash = none) → CompletesNv (.startSequence ⟨true, mk⟩ ok0 ok1) s fun nv m =>
        m.get F.SYS_STATE_MODE = 3 ∧ m.get F.SYS_STATE_START_STEP = 4 ∧ m.pwr.phase = .running ∧ m.mgmt.serving = true ∧
        m.pwr.dieMk = mk ∧ m.pwr.tS = s.m.now ∧ nv = { s.nv with markers := trimMarkers s.nv.markers }) ∧
      (¬ (∀ k ∈ s.nv.otp.keys, k.hash = none) → slotOrder s.nv.nor = [] → s.m.get F.SYS_STATE_MODE = 0 → (∀ e ∈ s.nv.calRegs, e.1 ≠ F.SYS_STATE_MODE.key) →
        CompletesNv (.startSequence ⟨true, mk⟩ ok0 ok1) s fun nv m =>
        m.get F.SYS_STATE_MODE = 2 ∧ m.get F.SYS_STATE_SAFE_REASON = 1 ∧ m.pwr.phase = .running ∧ m.pwr.startDone = true ∧ m.mgmt.serving = true ∧
        m.pwr.mcPwrEn = true ∧ nv = { s.nv with markers := trimMarkers s.nv.markers }) ∧
      (¬ (∀ k ∈ s.nv.otp.keys, k.hash = none) → s.m.pwr.safeKept = 0 → CompletesNv (.startSequence ⟨true, mk⟩ ok0 ok1) s fun nv m =>
        let q := ({ s with m := { s.m with pwr := { s.m.pwr with resetN := true } } } : State).startReads mk
        let v := (q.m.startMemory ok0 ok1).put F.SYS_STATE_START_STEP 5
        let found := (slotOrder s.nv.nor).find? fun x => (v.imageFault q.nv x.2).isNone
        (found = none → m = { v.enterSafe 1 with pwr := m.pwr } ∧ m.get F.SYS_STATE_SAFE_REASON = 1 ∧ m.pwr.phase = .running) ∧
        (∀ k img, found = some (k, img) → (∀ x ∈ img.used, x.typ ≠ 1) → (v.mcState 0 = 1 ∨ v.mcState 1 = 1) →
          let counter := (s.nv.record.map (·.1)).getD 0 + 1
          m.pwr.phase = .starting ∧ m.get F.SYS_STATE_START_STEP = 8 ∧ m.get F.SYS_STATE_SLOT = k % 2 ∧ m.get F.SYS_BOOT_EPOCH = counter % 2 ^ F.SYS_BOOT_EPOCH.width ∧
          m.get F.CFG_EPOCH = counter % 65536 * 65536 ∧ m.boot.image = some img ∧ nv.record = some (counter, counter)))) ∧
    (∀ ch < 2, ∀ d0 d1 timeout crc, s.m.pwr.phase = .starting → s.m.get F.SYS_STATE_START_STEP = 8 → s.m.get F.SYS_STATE_MODE = 0 → s.m.mcState ch = 1 →
      s.m.get F.SYS_PWR_STATE_PSTATE < 3 →
      (s.m.mcState (1 - ch) = 2 → (∀ i < 2, s.m.on (F.ESC_CTRL_RUN i) = false) → CompletesNv (.trainingComplete ch d0 d1 timeout crc) s fun nv m =>
        m.get F.SYS_STATE_MODE = 1 ∧ m.get F.SYS_STATE_START_STEP = 12 ∧ m.pwr.phase = .running ∧ m.pwr.startDone = true ∧ nv = s.nv.burn s.m.boot.image) ∧
      (s.m.mcState (1 - ch) = 0 → (trainResult d0 d1 timeout).isOk = false → CompletesNv (.trainingComplete ch d0 d1 timeout crc) s fun _ m =>
        m.get F.SYS_STATE_MODE = 2 ∧ m.get F.SYS_STATE_SAFE_REASON = 2 ∧ m.pwr.phase = .running ∧ m.pwr.startDone = true)) ∧
    (∀ ch < 2, ∀ d0 d1 timeout crc, s.m.alive = true → s.m.mcState ch = 1 → s.m.mcState (1 - ch) = 1 →
      Completes (.trainingComplete ch d0 d1 timeout crc) s fun m =>
        match trainResult d0 d1 timeout with
        | .error r => m.mcState ch = 0 ∧ m.get (F.MC_STATUS_REASON ch) = r % 8
        | .ok x => m.mcState ch = 2 ∧ (m.mc ch).dimms = x.1 ∧ (m.mc ch).trainCrc = crc ∧ m.on (F.MC_STATUS_DIMM1_DROPPED ch) = x.2 ∧
          m.pwr.trained.ix ch = true) ∧
    (∀ p : Port, s.m.pwr.phase = .starting → s.m.get F.SYS_STATE_START_STEP = 11 → s.m.calBusy = false → s.m.running p = false →
      s.m.on (F.ESC_CTRL_RUN (portIx p)) = true → s.m.firstAt p ≠ none → s.m.pwr.drain = none → s.m.pendingIn (portIx p) = false →
      s.m.get F.SYS_STATE_MODE ≠ 2 →
      (CompletesNv (.firstBeat ⟨p, true⟩) s fun nv m =>
        m.running p = true ∧ (m.acqOf p).beat = 0 ∧ (m.acqOf p).startAt = none ∧ (m.acqOf p).ended = false ∧ m.boot.burned = true ∧
        (s.m.running (otherPort p) = true ∨ s.m.on (F.ESC_CTRL_RUN (portIx (otherPort p))) = false → s.m.get F.SYS_STATE_MODE = 0 →
          m.get F.SYS_STATE_MODE = 1 ∧ m.get F.SYS_STATE_START_STEP = 12 ∧ m.pwr.phase = .running ∧ m.pwr.startDone = true) ∧
        nv = if s.m.boot.burned then s.nv else s.nv.burn s.m.boot.image) ∧
      Completes (.firstBeat ⟨p, false⟩) s fun m => m = s.m)

/-- MODULE_BOUNDARY, SCHEDULED_WAKE and UNSCHEDULED_WAKE (R4, R430, R434, R435), and a commit of the module domain (R63). That MODULE_BOUNDARY brings device time to
the next whole millisecond, to the cycle of the root clock that stands within 1 ns of it, and that the wakes take the latencies of Table 18-4 exactly, is the model's
choice (log entry 1); a wake that is not due changes nothing (log entry 3). -/
def Obligations.TimeAndWakes : Prop :=
  ∀ s : State,
    CompletesNv .moduleBoundary s (fun nv _ => nv = { s.nv with boot0 := nv.boot0, boot1 := nv.boot1 }) ∧
    (s.m.pwr.supply = false → Completes .moduleBoundary s fun m => m = s.m) ∧
    (s.m.pwr.supply = true → s.m.alive = true → s.m.get F.SYS_PWR_STATE_PSTATE < 3 → s.m.pwr.entering = none → s.m.pwr.drain = none → s.m.pendingIn 4 = false →
      s.m.calBusy = false → CompletesNv .moduleBoundary s fun _ m =>
        s.m.count + s.m.cyclesTo 1000000 ≤ m.count ∧ m.train.overload = false ∧ (∀ e, (m.jewel e).back = false)) ∧
    (s.m.pwr.supply = true → s.m.alive = false → s.m.pwr.entering = none → -trimMax ≤ s.m.trim → s.m.trim ≤ trimMax → s.m.clk.frac < 2 ^ 32 → s.m.clk.dev + 2000000 < 2 ^ 64 →
      Completes .moduleBoundary s fun m =>
        (s.m.clk.dev / 1000000 + 1) * 1000000 ≤ m.clk.dev + 1 ∧ m.clk.dev ≤ (s.m.clk.dev / 1000000 + 1) * 1000000 + 2 ∧
        m = { s.m with regs := { s.m.regs with act := m.regs.act }, clk := m.clk, free := m.free } ∧ Keeps [F.TIS_STATUS_OVF] s.m m) ∧
    (s.m.pwr.supply = true → s.m.alive = true → s.m.get F.SYS_PWR_STATE_PSTATE < 3 → s.m.pwr.entering = none → s.m.pwr.drain = none →
      s.m.pendingIn 4 = true → s.m.commit.mask = 16 → s.m.get F.CFG_COMMIT_STATUS_APPLIED = 0 → s.m.commit.wantReload = 0 → CompletesNv .moduleBoundary s fun _ m =>
        m.get F.CFG_EPOCH = s.m.get F.CFG_EPOCH_PEND_EPOCH ∧ m.get F.CFG_COMMIT_STATUS_STATE = 0 ∧ m.regs.staged = [] ∧ bitOf (m.get F.EVT_PEND) 2 = true) ∧
    (∀ ok t, s.m.pwr.wakeAt = some t → s.m.pwr.entering = none → s.m.get F.SYS_PWR_STATE_PSTATE = 2 → Completes (.scheduledWake ok) s fun m =>
        m.get F.SYS_PWR_STATE_PSTATE = 0 ∧ m.pwr = { s.m.pwr with wakeAt := none } ∧
        m = { s.m with regs := { s.m.regs with act := m.regs.act }, pwr := m.pwr, clk := m.clk, free := m.free } ∧
        Keeps [F.TIS_STATUS_OVF, F.SYS_PWR_STATE_PSTATE] s.m m ∧
        m.clk.coarse = (s.m.clk.coarse + s.m.cyclesUntil (t + 5000)) % 2 ^ 48) ∧
    (∀ t, s.m.pwr.wakeAt = some t → s.m.pwr.entering = none → s.m.pwr.holds = [] → s.m.get F.SYS_PWR_STATE_PSTATE = 4 → Completes (.scheduledWake false) s (CoreReset 8)) ∧
    (s.m.pwr.entering = none → s.m.pwr.holds = [] → s.m.get F.SYS_PWR_STATE_PSTATE = 4 → Completes (.unscheduledWake false) s (CoreReset 8)) ∧
    (∀ ok, s.m.pwr.entering = none → s.m.get F.SYS_PWR_STATE_PSTATE = 3 → s.m.alive = true → Completes (.unscheduledWake ok) s fun m =>
        m.get F.SYS_PWR_STATE_PSTATE = 0 ∧ m.pwr.wakeAt = none ∧ m.pwr.wakeHold = m.now + s.m.holdNs)

/-- DIE_TEMP_SAMPLE (R27, R28, R165, R406, R431): the warning with its hysteresis, and the trip. The sample counts 10 ms from the one before (log entry 1), changes
nothing while the converter is off or held (log entry 3), and how a channel's calibration enters is log entry 71's. -/
def Obligations.DieTemperature : Prop :=
  ∀ (s : State) (c0 c1 c2 : HkcConv),
    let val (c : Nat) (x : HkcConv) := s.m.hkcVal c x.val
    let t := max (val 0 c0) (max (val 1 c1) (val 2 c2))
    let w := match s.m.hkc.dieAt with | some t => s.m.reachNs (t + 10000000) | none => s.m
    let runs := s.m.alive = true ∧ s.m.get F.SYS_PWR_STATE_PSTATE < 3
    (s.m.alive = false → Completes (.dieTempSample c0 c1 c2) s fun m => m = { s.m with pwr := { s.m.pwr with dieMk := t } }) ∧
    (s.m.alive = true → 3 ≤ s.m.get F.SYS_PWR_STATE_PSTATE → Completes (.dieTempSample c0 c1 c2) s fun m => m = s.m) ∧
    (runs → t < 381150 → Completes (.dieTempSample c0 c1 c2) s fun m =>
      m.pwr = { w.pwr with dieMk := t, thermWarn := if 373150 ≤ t then true else if t < 370150 then false else s.m.pwr.thermWarn } ∧
      m.hkc = { s.m.hkc with dieAt := some w.now, first := false } ∧
      m.get (F.HKC_VAL 2) = codeOf 32 (val 2 c2) ∧ m.get (F.HKC_RAW_VALID 2) = 1 ∧ (m.get (F.HKC_RAW_OVR 2) = 1 ↔ c2.code = 0 ∨ c2.code = 4095) ∧
      (373150 ≤ t → s.m.pwr.thermWarn = false → Issues 1 0 0 0 w m) ∧ (t < 370150 → s.m.pwr.thermWarn = true → Issues 1 1 0 0 w m) ∧
      (¬ (373150 ≤ t ∧ s.m.pwr.thermWarn = false) → ¬ (t < 370150 ∧ s.m.pwr.thermWarn = true) → m.evt = s.m.evt ∧ m.recs = s.m.recs) ∧
      Eventful (F.CAL_TEMP_MK :: [0, 1, 2].flatMap fun c => [F.HKC_VAL c, F.HKC_RAW_VALID c, F.HKC_RAW_CODE c, F.HKC_RAW_INJ c, F.HKC_RAW_OVR c])
        { w with pwr := m.pwr, hkc := m.hkc } m) ∧
    (runs → 381150 ≤ t → CompletesNv (.dieTempSample c0 c1 c2) s fun nv m =>
      m.get F.SYS_STATE_MODE = 5 ∧ m.pwr.phase = .held ∧ .thermal ∈ m.pwr.holds ∧
      ∃ k : Marker, k.cause = 0x0102 ∧ nv = { s.nv with markers := writeMarker s.nv.markers k })

/-- COMMIT and ABORT (R60 to R63, R127, R142), and what a domain does at the boundary at which it applies a waiting commit (R5, R63, R68, R430): the first part of every
boundary's effect on that domain (TimeAndWakes and Beats say so of the module domain's and the beat domains'). -/
def Obligations.Commits : Prop :=
  ∀ (s : State) (who : Master) (mask : Word), MayAccess s.m who F.CFG_COMMIT_MASK.addr → mask.toNat % 32 ≠ 0 →
    (s.m.get F.CFG_COMMIT_STATUS_STATE = 0 → s.m.checks (settingsOf s.m.regs.shd) (mask.toNat % 32) = none →
      (s.m.get F.CFG_EPOCH % 65536 ≠ 65535 → Completes (.commit who mask) s fun m =>
        m.get F.CFG_COMMIT_STATUS_STATE = 2 ∧ m.get F.CFG_COMMIT_STATUS_OWNER = (s.m.accessOf who false).cls ∧
        m.get F.CFG_COMMIT_STATUS_APPLIED = 0 ∧ m.get F.CFG_EPOCH_PEND_EPOCH = (s.m.get F.CFG_EPOCH + 1) % 2 ^ 32 ∧
        m = { s.m.done with regs := { s.m.regs with act := m.regs.act, staged := settingsOf s.m.regs.shd },
                            commit := { s.m.commit with mask := mask.toNat % 32, reload := false } } ∧
        Keeps [F.CFG_COMMIT_STATUS_STATE, F.CFG_COMMIT_STATUS_OWNER, F.CFG_COMMIT_STATUS_APPLIED, F.CFG_EPOCH_PEND_EPOCH, F.CFG_CRC_STATUS_COMPARING] s.m m) ∧
      (s.m.get F.CFG_EPOCH % 65536 = 65535 → CompletesNv (.commit who mask) s fun nv m =>
        m.get F.CFG_COMMIT_STATUS_STATE = 2 ∧ m.get F.CFG_EPOCH_PEND_EPOCH = (s.m.boot.counter + 1) % 65536 * 65536 ∧
        m.boot = { s.m.boot with counter := s.m.boot.counter + 1 } ∧ nv = { s.nv with boot0 := nv.boot0, boot1 := nv.boot1 } ∧
        ∀ c r, s.nv.record = some (c, r) → c ≤ s.m.boot.counter → nv.record = some (s.m.boot.counter + 1, s.m.get F.SYS_BOOT_EPOCH))) ∧
    (∀ f : Fail, s.m.get F.CFG_COMMIT_STATUS_STATE = 0 → s.m.checks (settingsOf s.m.regs.shd) (mask.toNat % 32) = some f →
      Completes (.commit who mask) s fun m =>
        m.get F.CFG_COMMIT_STATUS_STATE = 0 ∧ m.get F.CFG_COMMIT_STATUS_CODE = f.code % 2 ^ F.CFG_COMMIT_STATUS_CODE.width ∧
        m.get F.CFG_FAIL_ADDR_ADDR = f.addr % 2 ^ F.CFG_FAIL_ADDR_ADDR.width ∧
        (∀ i < 2, (∀ c k, f.err ≠ .plan i c k) → m.get (F.ESC_PLAN_ERR_SUBCODE i) = s.m.get (F.ESC_PLAN_ERR_SUBCODE i)) ∧
        (∀ i c k, i < 2 → f.err = .plan i c k → m.get (F.ESC_PLAN_ERR_SUBCODE i) = c % 2 ^ (F.ESC_PLAN_ERR_SUBCODE i).width) ∧
        Issues 2 1 0 (evArg 0 f.code 0) s.m m ∧ m = { s.m.done with regs := { s.m.regs with act := m.regs.act }, evt := m.evt, recs := m.recs }) ∧
    (s.m.get F.CFG_COMMIT_STATUS_STATE ≠ 0 → Completes (.commit who mask) s fun m =>
        m.get F.CFG_COMMIT_STATUS_CODE = 1 ∧ m.get F.CFG_FAIL_ADDR_ADDR = F.CFG_COMMIT_MASK.addr ∧
        m.get F.CFG_COUNTS_FAILED = min (s.m.get F.CFG_COUNTS_FAILED + 1) F.CFG_COUNTS_FAILED.max ∧ Issues 2 1 0 0x100 s.m m ∧
        (∀ f ∈ [F.DTS_CHK_ERR_SUBCODE, F.TRAIN_CHK_ERR_SUBCODE, F.ZONE_CHK_ERR_SUBCODE, F.CHR_CHK_ERR_SUBCODE,
                F.CODEC_CHK_ERR_SUBCODE, F.CAL_CHK_ERR_SUBCODE], m.get f = 0) ∧
        Eventful [F.CFG_COMMIT_STATUS_CODE, F.CFG_FAIL_ADDR_ADDR, F.CFG_COUNTS_FAILED, F.DTS_CHK_ERR_SUBCODE, F.DTS_CHK_ERR_PORT, F.DTS_CHK_ERR_FIBRE, F.TRAIN_CHK_ERR_SUBCODE,
                  F.ZONE_CHK_ERR_SUBCODE, F.ZONE_CHK_ERR_PORT, F.ZONE_CHK_ERR_ZONE, F.CHR_CHK_ERR_SUBCODE, F.CHR_CHK_ERR_REASON, F.CHR_CHK_ERR_CH,
                  F.CODEC_CHK_ERR_SUBCODE, F.CAL_CHK_ERR_SUBCODE, F.CAL_CHK_ERR_SET] s.m.done m) ∧
    (∀ w : Word, MayAccess s.m who F.CFG_ABORT.addr → bitOf w.toNat 0 = true → s.m.get F.CFG_COMMIT_STATUS_STATE ≠ 0 →
      (s.m.get F.CFG_COMMIT_STATUS_APPLIED = 0 → s.m.commit.reload = false → s.m.commit.wantReload = 0 → Completes (.abort who w) s fun m =>
        m.get F.CFG_COMMIT_STATUS_STATE = 0 ∧ m.get F.CFG_COMMIT_STATUS_OWNER = 0 ∧ m.get F.CFG_EPOCH_PEND_EPOCH = 0 ∧
        m = { s.m.done with regs := { s.m.regs with act := m.regs.act, staged := [] }, commit := { s.m.commit with mask := 0, reload := false } } ∧
        Keeps [F.CFG_COMMIT_STATUS_STATE, F.CFG_COMMIT_STATUS_OWNER, F.CFG_COMMIT_STATUS_APPLIED, F.CFG_EPOCH_PEND_EPOCH, F.CFG_CRC_STATUS_COMPARING] s.m m) ∧
      (s.m.get F.CFG_COMMIT_STATUS_APPLIED ≠ 0 → Completes (.abort who w) s fun m =>
        m.get F.CFG_COUNTS_ABORT_IGN = min (s.m.get F.CFG_COUNTS_ABORT_IGN + 1) F.CFG_COUNTS_ABORT_IGN.max ∧ OnlyFields [F.CFG_COUNTS_ABORT_IGN] s.m.done m)) ∧
    (∀ d, s.m.pendingIn d = true → d < 5 → let m := s.m.applyDomain d; let mask := s.m.commit.mask; let applied := s.m.get F.CFG_COMMIT_STATUS_APPLIED
      let last := ∀ i < 5, bitOf mask i = true → i = d ∨ bitOf applied i = true
      (∀ k, domainOf k = some d → mapGet 0 m.regs.act k = mapGet 0 s.m.regs.staged k) ∧
      (∀ k i, domainOf k = some i → i ≠ d → mapGet 0 m.regs.act k = mapGet 0 s.m.regs.act k) ∧
      (¬ last → (∀ i < 5, bitOf (m.get F.CFG_COMMIT_STATUS_APPLIED) i = true ↔ i = d ∨ bitOf applied i = true) ∧ m.get F.CFG_COMMIT_STATUS_STATE = 2 ∧
        m.get F.CFG_EPOCH = s.m.get F.CFG_EPOCH ∧ m.epochOf d = (s.m.get F.CFG_EPOCH_PEND_EPOCH, true) ∧
        (∀ i < 5, i ≠ d → m.epochOf i = s.m.epochOf i) ∧
        m = { s.m with regs := { s.m.regs with act := m.regs.act } }) ∧
      (last → applied < 32 → mask < 32 → applied ||| mask = mask → s.m.commit.wantReload = 0 →
        m.get F.CFG_EPOCH = s.m.get F.CFG_EPOCH_PEND_EPOCH ∧ m.get F.CFG_COMMIT_STATUS_STATE = 0 ∧ m.get F.CFG_COMMIT_STATUS_APPLIED = 0 ∧
        m.get F.CFG_COMMIT_STATUS_OWNER = 0 ∧ m.get F.CFG_EPOCH_PEND_EPOCH = 0 ∧ m.regs.staged = [] ∧ m.commit.mask = 0 ∧
        (∀ k i, domainOf k = some i → mapGet 0 m.regs.ret k = mapGet 0 m.regs.act k) ∧ m.epochOf d = (s.m.get F.CFG_EPOCH_PEND_EPOCH, false) ∧
        Issues 2 0 0 0 s.m m ∧ m.commit.reloaded = (s.m.commit.reload || s.m.commit.reloaded) ∧ m.commit.skipPass = true ∧
        m = { s.m with regs := m.regs, commit := m.commit, train := m.train, evt := m.evt, recs := m.recs }))

/-- CONFIG_CHECK_PASS and CONFIG_RELOAD (R66 to R68). That a reload runs no check of Table 03-7 is the model's choice (log entry 81); CONFIG_RELOAD with nothing that
waits changes nothing (log entry 3). -/
def Obligations.ConfigChecker : Prop :=
  ∀ s : State, s.m.fabricUp = true → let crc := configCrc s.m.regs.act
    let ref := if s.m.on F.CFG_CRC_CTRL_CRC_AUTO then s.m.commit.ref else s.m.get F.CFG_CRC_REF
    (s.m.get F.CFG_COMMIT_STATUS_STATE = 2 → s.m.get F.CFG_COMMIT_STATUS_APPLIED ≠ 0 → Completes .configCheckPass s fun m =>
      m.get F.CFG_CRC_LAST_CRC = crc % 2 ^ 32 ∧ OnlyFields [F.CFG_CRC_LAST_CRC] s.m m) ∧
    (s.m.get F.CFG_COMMIT_STATUS_APPLIED = 0 →
      (crc = ref → Completes .configCheckPass s fun m =>
        m.get F.CFG_CRC_LAST_CRC = crc % 2 ^ 32 ∧ m.get F.CFG_CRC_STATUS_MISMATCH = 0 ∧
        m = { s.m with regs := { s.m.regs with act := m.regs.act }, commit := { s.m.commit with skipPass := false, reloaded := false } } ∧
        Keeps [F.CFG_CRC_LAST_CRC, F.CFG_CRC_STATUS_COMPARING, F.CFG_CRC_STATUS_MISMATCH] s.m m) ∧
      (crc ≠ ref → s.m.commit.reloaded = false → s.m.get F.CFG_CRC_CTRL_ACTION = 0 → Completes .configCheckPass s fun m =>
        m.get F.CFG_CRC_STATUS_MISMATCH = 1 ∧ Issues 2 2 0 0 s.m m ∧
        Eventful [F.CFG_CRC_LAST_CRC, F.CFG_CRC_STATUS_COMPARING, F.CFG_CRC_STATUS_MISMATCH, F.CFG_CRC_STATUS_MISMATCH_CNT]
          { s.m with commit := { s.m.commit with skipPass := false } } m) ∧
      (∀ act, (act = 1 ∨ act = 2) → crc ≠ ref → s.m.commit.reload = false → s.m.get F.CFG_CRC_CTRL_ACTION = act →
        (s.m.commit.reloaded = true → s.m.get F.CFG_COMMIT_STATUS_STATE = 0 → s.m.get F.SYS_STATE_MODE ≠ 2 → Completes .configCheckPass s fun m =>
          m.get F.SYS_STATE_MODE = 2 ∧ m.get F.SYS_STATE_SAFE_REASON = 3 ∧ m.commit.crcFault = true ∧ m.commit.wantReload = 0) ∧
        (s.m.get F.CFG_COMMIT_STATUS_STATE ≠ 0 → Completes .configCheckPass s fun m =>
          m.get F.CFG_CRC_STATUS_MISMATCH = 1 ∧ Issues 2 2 0 0 s.m m ∧ m.get F.SYS_STATE_MODE = s.m.get F.SYS_STATE_MODE ∧
          m.get F.CFG_COMMIT_STATUS_STATE = s.m.get F.CFG_COMMIT_STATUS_STATE ∧
          m.commit = { s.m.commit with skipPass := false, reloaded := false, wantReload := if s.m.commit.reloaded = true then 3 else act }))) ∧
    (s.m.commit.wantReload = 3 → s.m.get F.CFG_COMMIT_STATUS_STATE = 0 → s.m.get F.SYS_STATE_MODE ≠ 2 → Completes .configReload s fun m =>
      m.get F.SYS_STATE_MODE = 2 ∧ m.get F.SYS_STATE_SAFE_REASON = 3 ∧ m.commit.crcFault = true) ∧
    (s.m.commit.wantReload ≠ 0 → s.m.get F.CFG_COMMIT_STATUS_STATE ≠ 0 → Completes .configReload s fun m => m = s.m) ∧
    (s.m.commit.wantReload ≠ 0 → s.m.commit.wantReload ≠ 3 → s.m.get F.CFG_COMMIT_STATUS_STATE = 0 → CompletesNv .configReload s fun nv m =>
      nv = { s.nv with boot0 := nv.boot0, boot1 := nv.boot1 } ∧
      m.get F.CFG_COMMIT_STATUS_STATE = 2 ∧ m.get F.CFG_COMMIT_STATUS_APPLIED = 0 ∧ m.commit.mask = 31 ∧ m.commit.reload = true ∧ m.commit.wantReload = 0 ∧
      m.regs.staged = if s.m.commit.wantReload = 1 then settingsOf s.m.regs.ret else s.m.boot.applied) ∧
    (s.m.get F.CFG_COMMIT_STATUS_STATE = 0 → ∀ act, (act = 1 ∨ act = 2) → s.m.get F.CFG_CRC_CTRL_ACTION = act → crc ≠ ref → s.m.commit.reloaded = false → s.m.commit.reload = false →
      CompletesNv .configCheckPass s fun nv m => nv = { s.nv with boot0 := nv.boot0, boot1 := nv.boot1 } ∧
        m.get F.CFG_CRC_STATUS_MISMATCH = 1 ∧ Issues 2 2 0 0 s.m m ∧ m.get F.CFG_COMMIT_STATUS_STATE = 2 ∧ m.commit.mask = 31 ∧ m.commit.reload = true ∧
        m.regs.staged = if act = 1 then settingsOf s.m.regs.ret else s.m.boot.applied) ∧
    (s.m.commit.wantReload = 0 → Completes .configReload s fun m => m = s.m)

/-- The commands of the SEC block (R54, R58, R59, and the procedure of chapter 03); the numbers of IMAGE_VERIFY's results are the model's (log entry 42); that
ATTEST_PERIODIC brings time to its instant is log entry 1's, and that one which is not due changes nothing log entry 3's. The periodic record goes to every session
with an ATTEST stream, and its payload is Table 03-6's. -/
def Obligations.KeysAndImages : Prop :=
  ∀ (s : State) (who : Master),
    (MaySec s.m who →
      (Completes (.imageVerify who) s fun m =>
        m = { s.m.done with boot := { s.m.boot with verify := m.boot.verify } } ∧
        ∀ i, readImage s.nv.nor (1 - s.m.boot.slot) = some i → (m.boot.verify = 1 ↔ s.m.done.imageFault s.nv i = none)) ∧
      (∀ (slot : Nat) (k : KeySlot), s.nv.otp.keys[slot]? = some k → k.revoked = false →
        (k.hash.isSome = true → (s.nv.otp.keys.filter KeySlot.live).length = 1 → Completes (.keyRevoke who slot) s fun m => m = { s.m.done with boot := { s.m.boot with keyLast := true } }) ∧
        ((k.hash.isSome = false ∨ (s.nv.otp.keys.filter KeySlot.live).length ≠ 1) → CompletesNv (.keyRevoke who slot) s fun nv m =>
          nv.otp.keys[slot]? = some { k with revoked := true } ∧ (∀ j, j ≠ slot → nv.otp.keys[j]? = s.nv.otp.keys[j]?) ∧
          nv = { s.nv with otp := { s.nv.otp with keys := nv.otp.keys } } ∧ m = { s.m.done with boot := { s.m.boot with keyLast := false } })) ∧
      (∀ addr w, addr < 0x1FF0000 →
        (addr < 0x10000 → Completes (.nvmWindowWrite who addr w) s fun m => m = { s.m.done with boot := { s.m.boot with nvmRefused := s.m.boot.nvmRefused + 1 } }) ∧
        (s.m.boot.image.isSome = true → slotBase s.m.boot.slot ≤ addr → addr < slotBase s.m.boot.slot + slotBytes → Completes (.nvmWindowWrite who addr w) s fun m =>
          m = { s.m.done with boot := { s.m.boot with nvmRefused := s.m.boot.nvmRefused + 1 } }) ∧
        (0x10000 ≤ addr → (addr < slotBase s.m.boot.slot ∨ slotBase s.m.boot.slot + slotBytes ≤ addr) → CompletesNv (.nvmWindowWrite who addr w) s fun nv m =>
          m = s.m.done ∧ nv = { s.nv with nor := nv.nor } ∧ memLe norByte nv.nor (addr / 4 * 4) 4 = w.toNat ∧
          ∀ a, (a < addr / 4 * 4 ∨ addr / 4 * 4 + 4 ≤ a) → mapGet norByte nv.nor a = mapGet norByte s.nv.nor a))) ∧
    (∀ (slot : Nat) (hash : BitVec 256) (k : KeySlot), s.m.pwr.supply = true → s.m.fabricUp = true → s.nv.otp.keys[slot]? = some k →
      (s.m.get F.SYS_STATE_MODE = 3 → k.hash = none → CompletesNv (.keyProgram .spi slot hash) s fun nv m =>
        m = s.m.done ∧ nv.otp.keys[slot]? = some { k with hash := some hash } ∧ (∀ j, j ≠ slot → nv.otp.keys[j]? = s.nv.otp.keys[j]?) ∧
        nv = { s.nv with otp := { s.nv.otp with keys := nv.otp.keys } }) ∧
      ((s.m.get F.SYS_STATE_MODE ≠ 3 ∨ k.hash ≠ none) → Completes (.keyProgram .spi slot hash) s fun m => m = s.m.done)) ∧
    (s.m.pwr.supply = true → s.m.heard who = true → (s.m.accessOf who false).secure = false → ∀ slot hash addr w, ∀ c ∈ [Instr.imageVerify who, .keyProgram who slot hash, .keyRevoke who slot, .nvmWindowWrite who addr w],
      Completes c s fun m => m.get F.SYS_VIOL_CNT_COUNT = min (s.m.get F.SYS_VIOL_CNT_COUNT + 1) F.SYS_VIOL_CNT_COUNT.max ∧
        Eventful [F.SYS_VIOL_CNT_COUNT, F.SYS_VIOL_LAST_WRITE, F.SYS_VIOL_LAST_CLASS, F.SYS_VIOL_LAST_ADDR] { s.m.done with free := s.m.free + 1 } m) ∧
    (s.m.fabricUp = true → Completes .attestPeriodic s fun m =>
      let w := s.m.reachNs (s.m.pwr.tS + ((s.m.now - s.m.pwr.tS) / 3600000000000 + 1) * 3600000000000)
      m.clk = w.clk ∧ m.clk.coarse = (s.m.clk.coarse + s.m.cyclesUntil (s.m.pwr.tS + ((s.m.now - s.m.pwr.tS) / 3600000000000 + 1) * 3600000000000)) % 2 ^ 48 ∧
      m.recs = { s.m.recs with ready := s.m.recs.ready ++
        ((List.range 64).filter fun n => s.m.producing n && (s.m.slot n).streams.any fun t => t.typ == 10).map fun n =>
          { typ := 10, port := 2, flags := bit (s.m.epochOf 4).2, epoch := (s.m.epochOf 4).1, lsb := w.lsbNow, slot := some n,
            bodies := [w.attestPayload n s.nv.otp.secVer s.nv.serial.toNat 0] } } ∧
      m = { s.m with regs := { s.m.regs with act := m.regs.act }, clk := m.clk, free := m.free, recs := m.recs } ∧ Keeps [F.TIS_STATUS_OVF] s.m m) ∧
    (∀ (n nonce otp serial : Nat), let b := s.m.attestPayload n otp serial nonce; let img := s.m.boot.image
      ∀ r ∈ ([(0, leBytes 4 1), (4, leBytes 4 (s.m.get F.SYS_BOOT_EPOCH)), (8, leBytes 4 (s.m.get F.CFG_EPOCH)), (12, leBytes 4 (s.m.get F.CFG_CRC_LAST_CRC)),
          (16, leBytes 8 ((img.map (·.imgSeq)).getD 0)), (24, beBytes 32 ((img.map (·.digest.toNat)).getD 0)), (56, leBytes 2 ((img.map (·.secVer)).getD 0)),
          (58, leBytes 2 otp), (60, leBytes 4 (s.m.get F.SYS_FW_VER)), (64, leBytes 8 s.m.now),
          (84, leBytes 4 (s.m.get F.SYS_STATE_IMAGE_FALLBACK + 2 * s.m.get F.SYS_STATE_HOLDUP_SHORT + 4 * bit s.m.commit.crcFault + 8 * s.m.get F.CAL_USER_SEL_EN)), (88, leBytes 16 nonce), (104, leBytes 8 serial),
          (112, Config.deviceSign (Config.sha256 (b.take 112)))] : List (Nat × List Byte)), (b.drop r.1).take r.2.length = r.2)

/-- MGMT_IRQ_N (R88), as the STATUS frame shows it. -/
def Obligations.InterruptLine : Prop :=
  ∀ s : State, (s.m.irq = true ↔ s.m.get F.EVT_PEND &&& s.m.get F.EVT_IRQ_EN ≠ 0) ∧
    (s.m.mgmt.serving = true → Completes (.mgmtStatus 0x80) s fun m =>
      m = { s.m with mgmt := { s.m.mgmt with sdo := [0x80, 0, 0, (if s.m.get F.EVT_PEND &&& s.m.get F.EVT_IRQ_EN = 0 then 0 else 1), s.m.mgmt.result] } })

/-- The frames of the management SPI (R84 to R87, R435). That a frame not of a command's OP changes nothing is log entry 3's; that a word's access completes before
its first poll byte, so that one poll byte stands before each word, is log entry 72's. -/
def Obligations.MgmtFrames : Prop :=
  ∀ (s : State) (cmd : Byte) (addr : Word), s.m.mgmt.serving = true →
    let words := cmd.toNat % 16 + 1
    let prot : Byte := 0x90
    -- a frame that addresses the core begins a wake from NAP and SLEEP
    let wakes := 3 ≤ s.m.get F.SYS_PWR_STATE_PSTATE ∧ s.m.pwr.waking = none ∧ ∃ i < words, addressesCore (frameAddr cmd addr i) = true
    let w := if wakes then { s.m with pwr := { s.m.pwr with waking := some s.m.now } } else s.m
    (opOf cmd = 0 → protError cmd addr = true → Completes (.mgmtRead cmd addr) s fun m =>
      m = { s.m with mgmt := { s.m.mgmt with result := prot, sdo := [prot] } }) ∧
    (opOf cmd = 3 → Completes (.mgmtRead cmd addr) s fun m => m = { s.m with mgmt := { s.m.mgmt with sdo := [prot] } }) ∧
    (opOf cmd = 0 → protError cmd addr = false →
      (words = 1 → Completes (.mgmtRead cmd addr) s fun m =>
        let b := w.busRead ⟨1, true, bitOf cmd.toNat 5, 0⟩ addr.toNat
        m = { b with mgmt := { b.mgmt with
          result := resultByte b.bus.err false false,
          sdo := resultByte b.bus.err false false :: beBytes 4 b.bus.data.toNat ++ (if w.on F.SYS_MGMT_CTRL_CRC_EN then [BitVec.ofNat 8 (crc8 (beBytes 4 b.bus.data.toNat))] else []) } }) ∧
      (Completes (.mgmtRead cmd addr) s fun m =>
        m.mgmt.sdo.length = 5 * words + bit (s.m.on F.SYS_MGMT_CTRL_CRC_EN) ∧
        (∀ i < words, ∃ e : Bool, m.mgmt.sdo[5 * i]? = some (resultByte e false false)) ∧ ∃ e : Bool, m.mgmt.result = resultByte e false false) ∧
      ∀ cut : FrameCut, Completes (.mgmtFrameCut cmd addr cut) s fun m =>
        m.mgmt.sdo.length = min cut.bytes (5 * min cut.accessed words) ∧ m.mgmt.result = s.m.mgmt.result ∧
        (cut.accessed = 0 → m = { w with mgmt := m.mgmt })) ∧
    (∀ cut : FrameCut, 0 < cut.bytes → opOf cmd < 2 → protError cmd addr = true → Completes (.mgmtFrameCut cmd addr cut) s fun m =>
      m = { s.m with mgmt := { s.m.mgmt with result := prot, sdo := List.replicate cut.bytes prot } }) ∧
    (∀ cut : FrameCut, opOf cmd = 1 → cut.bytes = 0 ∨ protError cmd addr = false → Completes (.mgmtFrameCut cmd addr cut) s fun m =>
      m = { s.m with mgmt := { s.m.mgmt with sdo := [] } }) ∧
    (cmd = 0x80 → Completes (.mgmtStatus cmd) s fun m =>
      let status : List Byte := resultByte false false false :: beBytes 4 (s.m.mgmt.result.toNat + (if s.m.irq = true then 256 else 0))
      m = { s.m with mgmt := { s.m.mgmt with sdo := status } }) ∧
    (∀ (data : List Word) (crc : Option Byte), opOf cmd = 1 →
      (protError cmd addr = true → Completes (.mgmtWrite cmd addr data crc) s fun m =>
        m = { s.m with mgmt := { s.m.mgmt with result := prot, sdo := [prot] } }) ∧
      (protError cmd addr = false →
        (data.length < words ∨ (s.m.on F.SYS_MGMT_CTRL_CRC_EN = true ∧ crc = none) → Completes (.mgmtWrite cmd addr data crc) s fun m =>
          m = { s.m with mgmt := { s.m.mgmt with sdo := [] } }) ∧
        (∀ c, crc = some c → words ≤ data.length → s.m.on F.SYS_MGMT_CTRL_CRC_EN = true →
          c ≠ BitVec.ofNat 8 (crc8 (cmd :: beBytes 4 addr.toNat ++ (data.take words).flatMap fun w => beBytes 4 w.toNat)) →
          Completes (.mgmtWrite cmd addr data crc) s fun m =>
            m = { s.m with mgmt := { s.m.mgmt with result := 0xA0, sdo := [0xA0] } }) ∧
        (∀ d, data = [d] → words = 1 → s.m.on F.SYS_MGMT_CTRL_CRC_EN = false → CompletesNv (.mgmtWrite cmd addr data crc) s fun nv m =>
          let b := w.busWrite ⟨1, true, false, 0⟩ addr.toNat d.toNat
          nv = { s.nv with boot0 := nv.boot0, boot1 := nv.boot1 } ∧
          m = { b with mgmt := { b.mgmt with result := resultByte b.bus.err false false, sdo := [resultByte b.bus.err false false] } })))

/-- REGISTER_WRITE, BIT_ALIAS_ACCESS, LOG_POP and EVT_OUT_PULSE_END (R4, R77, R78, R81, R82, R95). -/
def Obligations.RegisterWrites : Prop :=
  ∀ (s : State) (who : Master),
    (∀ addr w, CompletesNv (.registerWrite who addr w) s fun nv _ => nv = { s.nv with boot0 := nv.boot0, boot1 := nv.boot1 }) ∧
    (∀ (a : Nat) (r : RegRow) (w : Word), MayAccess s.m who a → targetOf a = .reg a → unifyMc a = a → findRow a = some r → (∀ f ∈ r.fields, f.acc = .rws) →
      (Completes (.registerWrite who a w) s fun m =>
        m = { s.m.done with regs := { s.m.regs with shd := m.regs.shd } } ∧
        (∀ f ∈ r.fields, m.shadow (fieldAt a f) = bitsOf w.toNat f.msb f.lsb) ∧
        ∀ k, k ∉ r.fields.map (fun f => (fieldAt a f).key) → mapGet 0 m.regs.shd k = mapGet 0 s.m.regs.shd k) ∧
      (a < 0x40000 → ∀ n < 32, ∀ f ∈ r.fields, f.lsb ≤ n → n ≤ f.msb → Completes (.bitAliasAccess who (0x1000000 + 32 * a + 4 * n) false (some w)) s fun m =>
        m = { s.m.done with regs := { s.m.regs with shd := m.regs.shd } } ∧
        m.shadow (fieldAt a f) = setBit (s.m.shadow (fieldAt a f) % 2 ^ (f.msb - f.lsb + 1)) (n - f.lsb) (bitOf w.toNat 0) ∧
        ∀ k, k ≠ (fieldAt a f).key → mapGet 0 m.regs.shd k = mapGet 0 s.m.regs.shd k)) ∧
    (∀ (a : Nat) (w : Word), s.m.fabricUp = true → s.m.pwr.supply = true → (∀ e, who ≠ .jewel e) → a % 4 = 0 → isTable a = true → tableWritable a = true →
      ((s.m.accessOf who false).secure = true ∨ a < 0x0E00000 ∨ 0x0E40000 ≤ a) → Completes (.registerWrite who a w) s fun m =>
        bankWord m.regs.shd a = w.toNat ∧ m = { s.m.done with regs := { s.m.regs with shd := m.regs.shd } } ∧
        ∀ k, k ≠ 32 * a → mapGet 0 m.regs.shd k = mapGet 0 s.m.regs.shd k) ∧
    (∀ w : Word, MayAccess s.m who F.EVT_PEND.addr → s.m.get F.EVT_PEND < 2 ^ 32 → Completes (.registerWrite who F.EVT_PEND.addr w) s fun m =>
        (∀ n < 32, bitOf (m.get F.EVT_PEND) n = (bitOf (s.m.get F.EVT_PEND) n && !bitOf w.toNat n)) ∧
        m = { s.m.done with regs := { s.m.regs with act := m.regs.act }, evt := { s.m.evt with out := m.evt.out } } ∧ Keeps [F.EVT_PEND] s.m m) ∧
    (∀ w : Word, MayAccess s.m who F.EVT_LOG_POP_POP.addr → bitOf w.toNat 0 = true → Completes (.logPop who w) s fun m =>
        m = { s.m.done with evt := { s.m.evt with log := s.m.evt.log.drop 1 } }) ∧
    (∀ k < 4, s.m.pwr.supply = true → bitOf s.m.evt.pulsing k = true → Completes (.evtOutPulseEnd k) s fun m =>
        bitOf m.evt.pulsing k = false ∧ (∀ j, j ≠ k → bitOf m.evt.pulsing j = bitOf s.m.evt.pulsing j) ∧
        (bitOf (s.m.get F.EVT_OUT_CTRL_LEVEL) k = false → bitOf m.evt.out k = false) ∧
        m = { s.m with regs := { s.m.regs with act := m.regs.act }, clk := m.clk, free := m.free,
                       evt := { s.m.evt with pulsing := m.evt.pulsing, out := m.evt.out } } ∧
        Keeps [F.TIS_STATUS_OVF] s.m m ∧
        m.clk.coarse = (s.m.clk.coarse + s.m.cyclesUntil (mapGet 0 s.m.evt.pulseAt k + s.m.get F.EVT_OUT_CTRL_PULSE_US * 1000)) % 2 ^ 48)

/-- RC_READ, LATCHING_READ and reads through BIT_ALIAS_ACCESS (R77, R78, R81, R82, R91, R92). Which registers answer while the core is in reset, NAP or SLEEP is log
entry 72's. -/
def Obligations.RegisterReads : Prop :=
  ∀ (s : State) (who : Master),
    (∀ (a : Nat) (r : RegRow), MayAccess s.m who a → targetOf a = .reg a → unifyMc a = a → findRow a = some r → s.m.latched a = none →
      Completes (.rcRead who a) s fun m =>
        m.bus = ⟨BitVec.ofNat 32 (s.m.regWord (s.m.accessOf who false) r a &&& (2 ^ 32 - 1)), false⟩ ∧
        (∀ f ∈ r.fields, f.acc = .rc → m.get (fieldAt a f) = 0) ∧
        m = { s.m with regs := { s.m.regs with act := m.regs.act }, bus := m.bus } ∧
        Keeps ((r.fields.filter fun f => f.acc == .rc).map (fieldAt a)) s.m m) ∧
    (∀ low high : Fld, ∀ v : Nat,
      ((low = F.SYS_DEVTIME_LO_DEVTIME ∧ high = F.SYS_DEVTIME_HI_DEVTIME ∧ v = s.m.now) ∨
       (low = F.TIS_COARSE_LO_COARSE ∧ high = F.TIS_COARSE_HI_COARSE ∧ v = s.m.clk.coarse ∧ v < 2 ^ 48)) →
      MayAccess s.m who low.addr →
      (Completes (.latchingRead who low.addr) s fun m =>
        m.bus = ⟨BitVec.ofNat 32 v, false⟩ ∧ m.latchOf (s.m.accessOf who false) low.addr = v / 2 ^ 32 ∧
        m = { s.m with latch := m.latch, bus := m.bus }) ∧
      (s.m.latchOf (s.m.accessOf who false) low.addr < 2 ^ high.width → Completes (.latchingRead who high.addr) s fun m =>
        m.bus.err = false ∧ m.bus.data.toNat = s.m.latchOf (s.m.accessOf who false) low.addr ∧ m = { s.m with bus := m.bus })) ∧
    (∀ (a n : Nat) (r : RegRow) (f : FieldSpec) (view : Bool), MayAccess s.m who a → targetOf a = .reg a → unifyMc a = a → findRow a = some r →
      (∀ f ∈ r.fields, f.acc = .rws) → (∀ f ∈ r.fields, s.m.get (fieldAt a f) < 2 ^ (f.msb - f.lsb + 1) ∧ s.m.shadow (fieldAt a f) < 2 ^ (f.msb - f.lsb + 1)) →
      a < 0x40000 → n < 32 → f ∈ r.fields → f.lsb ≤ n → n ≤ f.msb → Completes (.bitAliasAccess who (0x1000000 + 32 * a + 4 * n) view none) s fun m =>
        m = { s.m with bus := ⟨BitVec.ofNat 32 (bit (bitOf (if view then s.m.get (fieldAt a f) else s.m.shadow (fieldAt a f)) (n - f.lsb))), false⟩ })

/-- Access errors and violations (R71, R75, R76, R90): what they count, and that they change nothing else. That a guarded field read by a non-secure master is a
violation is log entry 72's. -/
def Obligations.AccessesRefused : Prop :=
  ∀ (s : State) (who : Master) (addr : Nat) (w : Word), s.m.pwr.supply = true →
    let accErr := [F.SYS_ACC_ERR_CNT_COUNT, F.SYS_ACC_ERR_LAST_WRITE, F.SYS_ACC_ERR_LAST_CLASS, F.SYS_ACC_ERR_LAST_ADDR]
    let viol := [F.SYS_VIOL_CNT_COUNT, F.SYS_VIOL_LAST_WRITE, F.SYS_VIOL_LAST_CLASS, F.SYS_VIOL_LAST_ADDR]
    (s.m.heard who = false → Completes (.registerWrite who addr w) s (fun m => m = s.m) ∧ Completes (.rcRead who addr) s fun m => m = s.m) ∧
    (targetOf addr = .unmapped → (∀ e, who ≠ .jewel e) → s.m.heard who = true →
      (Completes (.registerWrite who addr w) s fun m =>
        m.get F.SYS_ACC_ERR_CNT_COUNT = min (s.m.get F.SYS_ACC_ERR_CNT_COUNT + 1) F.SYS_ACC_ERR_CNT_COUNT.max ∧ m.get F.SYS_ACC_ERR_LAST_WRITE = 1 ∧
        m.get F.SYS_ACC_ERR_LAST_CLASS = (s.m.accessOf who false).cls ∧ m.get F.SYS_ACC_ERR_LAST_ADDR = addr % 2 ^ F.SYS_ACC_ERR_LAST_ADDR.width ∧
        (s.m.get F.SYS_ACC_ERR_CNT_COUNT = 0 → Issues 4 1 0 0 s.m m) ∧ Eventful accErr { s.m with bus := ⟨0, true⟩ } m) ∧
      Completes (.rcRead who addr) s fun m =>
        m.get F.SYS_ACC_ERR_CNT_COUNT = min (s.m.get F.SYS_ACC_ERR_CNT_COUNT + 1) F.SYS_ACC_ERR_CNT_COUNT.max ∧ m.get F.SYS_ACC_ERR_LAST_WRITE = 0 ∧
        Eventful accErr { s.m with bus := ⟨0, true⟩ } m) ∧
    (∀ a, targetOf addr = .reg a → guardedAt a = true → (∃ n, who = .session n) → s.m.heard who = true → (s.m.accessOf who false).secure = false →
      Completes (.registerWrite who addr w) s fun m =>
        m.get F.SYS_VIOL_CNT_COUNT = min (s.m.get F.SYS_VIOL_CNT_COUNT + 1) F.SYS_VIOL_CNT_COUNT.max ∧ m.get F.SYS_VIOL_LAST_WRITE = 1 ∧
        m.get F.SYS_VIOL_LAST_CLASS = 2 ∧ m.get F.SYS_VIOL_LAST_ADDR = addr % 2 ^ F.SYS_VIOL_LAST_ADDR.width ∧
        (s.m.get F.SYS_VIOL_CNT_COUNT = 0 → Issues 4 0 0 0 s.m m) ∧ Eventful viol s.m.done m) ∧
    (∀ e, Completes (.registerWrite (.jewel e) addr w) s fun m =>
        m.get F.SYS_VIOL_CNT_COUNT = min (s.m.get F.SYS_VIOL_CNT_COUNT + 1) F.SYS_VIOL_CNT_COUNT.max ∧ m.get F.SYS_VIOL_LAST_CLASS = 3 ∧
        Eventful viol s.m.done m)

/-- The crystals (R98, R99). That every later TRIM keeps the shift of a change of crystal, with the temperature term of the crystal left, and when a failed crystal
is good again are the model's choice (log entry 82); that XO_DISAGREE is issued once, at the second window in a row, is log entry 75's. -/
def Obligations.Crystals : Prop :=
  ∀ s : State,
    let fields := [F.CLK_XO_STATUS_XO0_OK, F.CLK_XO_STATUS_XO1_OK, F.CLK_XO_STATUS_ACTIVE, F.CLK_XO_STATUS_SWITCH_CNT, F.CLK_TRIM]
    let trimTo (x : Int) : Nat := codeOf 32 (clampInt (-trimMax) trimMax (s.m.trim + x))
    let now := s.m.pwr.dieMk
    let term : Int := if s.m.tableTerm = true then s.m.freqTemp now - s.m.freqTemp s.m.tempRef else 0
    let base (x : Int) (m : Mach) : Mach := { m with clk := { m.clk with reg := { m.clk.reg with shift := m.clk.reg.shift + x + term, t0 := now, th := now } } }
    (s.m.pwr.supply = true → s.m.on F.CLK_XO_STATUS_XO0_OK = true → s.m.on F.CLK_XO_STATUS_XO1_OK = true →
      (s.m.get F.CLK_XO_STATUS_ACTIVE = 0 → Completes .crystalFail s fun m =>
        m.get F.CLK_XO_STATUS_XO0_OK = 0 ∧ m.get F.CLK_XO_STATUS_ACTIVE = 1 ∧ m.get F.CLK_TRIM = trimTo (-s.m.deltaTrim) ∧
        m.get F.CLK_XO_STATUS_SWITCH_CNT = min (s.m.get F.CLK_XO_STATUS_SWITCH_CNT + 1) F.CLK_XO_STATUS_SWITCH_CNT.max ∧
        Eventful fields (base (-s.m.deltaTrim) s.m) m) ∧
      (s.m.get F.CLK_XO_STATUS_ACTIVE = 1 → Completes .crystalFail s fun m =>
        m.get F.CLK_XO_STATUS_XO1_OK = 0 ∧ m.get F.CLK_XO_STATUS_ACTIVE = 0 ∧ m.get F.CLK_TRIM = trimTo s.m.deltaTrim ∧
        Eventful fields (base s.m.deltaTrim s.m) m) ∧
      (s.m.get F.CLK_XO_STATUS_ACTIVE = 0 → Completes .standbyCrystalFail s fun m =>
        m.get F.CLK_XO_STATUS_XO1_OK = 0 ∧ Issues 5 1 0 1 s.m m ∧ Eventful [F.CLK_XO_STATUS_XO1_OK] s.m m) ∧
      (s.m.get F.CLK_XO_STATUS_ACTIVE = 1 → Completes .standbyCrystalFail s fun m =>
        m.get F.CLK_XO_STATUS_XO0_OK = 0 ∧ Issues 5 1 0 0 s.m m ∧ Eventful [F.CLK_XO_STATUS_XO0_OK] s.m m) ∧
      (s.m.fabricUp = true → ∀ (delta : Int) (far1 : Bool),
        (delta.natAbs ≤ 20000000 → Completes (.xoCompareWindow delta far1) s fun m =>
          m = { s.m with clk := { s.m.clk with delta := delta, disagree := 0 } }) ∧
        (20000000 < delta.natAbs → s.m.clk.disagree = 0 → Completes (.xoCompareWindow delta far1) s fun m =>
          m = { s.m with clk := { s.m.clk with delta := delta, disagree := 1 } }) ∧
        (20000000 < delta.natAbs → s.m.clk.disagree = 1 → s.m.get F.CLK_REG_STATUS_STATE ≠ 2 → Completes (.xoCompareWindow delta far1) s fun m =>
          Issues 5 2 0 0 s.m m ∧ Eventful [] { s.m with clk := { s.m.clk with delta := delta, disagree := 2 } } m) ∧
        (20000000 < delta.natAbs → 1 ≤ s.m.clk.disagree → s.m.get F.CLK_REG_STATUS_STATE = 2 → Completes (.xoCompareWindow delta far1) s fun m =>
          m.get (if far1 then F.CLK_XO_STATUS_XO1_OK else F.CLK_XO_STATUS_XO0_OK) = 0 ∧ m.on F.CLK_XO_STATUS_ACTIVE = !far1 ∧
          m.clk = { s.m.clk with delta := delta, disagree := 0, reg := m.clk.reg } ∧
          (m.get F.CLK_XO_STATUS_SWITCH_CNT = s.m.get F.CLK_XO_STATUS_SWITCH_CNT → m.clk.reg = s.m.clk.reg) ∧
          Eventful fields { s.m with clk := m.clk } m))) ∧
    (s.m.alive = true → s.m.pwr.supply = true → Hold.crystals ∉ s.m.pwr.holds → CompletesNv .bothCrystalsFail s fun nv m =>
      m.pwr.phase = .held ∧ .crystals ∈ m.pwr.holds ∧ ∃ k : Marker, k.cause = 0x0501 ∧ nv = { s.nv with markers := writeMarker s.nv.markers k }) ∧
    (∀ (who : Master) (w : Word), MayAccess s.m who F.CLK_XO_CTRL_RETURN.addr → bitOf w.toNat 0 = true →
      (s.m.on F.CLK_XO_STATUS_XO0_OK = true → s.m.get F.CLK_XO_STATUS_ACTIVE = 1 → Completes (.xoReturn who w) s fun m =>
        m.get F.CLK_XO_STATUS_ACTIVE = 0 ∧ m.get F.CLK_TRIM = trimTo s.m.deltaTrim ∧
        Eventful fields (base s.m.deltaTrim s.m.done) m) ∧
      (s.m.on F.CLK_XO_STATUS_XO0_OK = false ∨ s.m.get F.CLK_XO_STATUS_ACTIVE = 0 → Completes (.xoReturn who w) s fun m => m = s.m.done))

/-- The Regulator (R98, R100 to R105, Table 05-3). In every state the TRIM an update aims at keeps the shift of a change of crystal (R98), as far as SLEW lets it move;
a PTP source moves the rate at each update, also while its servo has no offset (R102). That TRIM in FREE keeps that shift, T_0 before lock and the interval of updates
in HOLDOVER are the model's choice (log entry 82); that an update whose row does not hold changes nothing is log entry 3's. -/
def Obligations.Regulator : Prop :=
  ∀ s : State, let st := s.m.get F.CLK_REG_STATUS_STATE; let src := s.m.get F.CLK_REG_STATUS_SRC; let r := s.m.clk.reg
    let cap := fun ms : Nat => s.m.get F.CLK_REG_CTRL_SLEW * ms * 2 ^ 40 / (1000 * 10 ^ 9)
    (s.m.fabricUp = true →
      (st = 0 → s.m.get F.CAL_XO_TRIM_TRIM = 0 → Completes (.regulatorUpdate src) s fun m =>
        m.trim = clampInt (-trimMax) trimMax (signedOf 32 (s.m.get F.CLK_TRIM_MAN) + r.shift) ∧ Eventful [F.CLK_TRIM] s.m m) ∧
      (∀ (a n t : Nat), (st = 1 ∨ st = 2) → (src = 4 ∨ src = 5) → r.edge0 = some a → r.edge = some (n, t) → -trimMax ≤ s.m.trim → s.m.trim ≤ trimMax →
        Completes (.regulatorUpdate src) s fun m =>
          let tu : Rat := if src = 4 then 1 else 1 / 100
          let x : Rat := (n : Rat) * tu - ((t - a : Nat) : Rat) * fineSec
          let en := x - r.off.getD x
          let tau : Rat := (2 ^ s.m.get F.CLK_REG_CTRL_TAU : Nat)
          let good := if en ≤ 1 / (10 ^ 7 : Nat) ∧ -(1 / (10 ^ 7 : Nat) : Rat) ≤ en then r.good + 1 else 0
          m.clk.reg.off = some (r.off.getD x) ∧ m.clk.reg.good = good ∧ m.get F.CLK_REG_STATUS_STATE = (if 10 ≤ good then 2 else 1) ∧
          (r.off = none → m.get F.CLK_PHASE_ERR_E = 0) ∧
          m.clk.reg.i = r.i + en * tu / (tau * tau) ∧ m.clk.reg.y = m.clk.reg.i + 2 * en / tau ∧
          -trimMax ≤ m.trim ∧ m.trim ≤ trimMax ∧
          (m.trim - s.m.trim).natAbs ≤ cap (srcTu src) ∧
          (let aim := roundRat (m.clk.reg.y * (2 ^ 40 : Nat)) + s.m.freqTemp s.m.pwr.dieMk - s.m.freqTemp m.clk.reg.t0 + r.shift; aim.natAbs ≤ trimMax.natAbs → (aim - s.m.trim).natAbs ≤ cap (srcTu src) → m.trim = aim) ∧
          Eventful [F.CLK_TRIM, F.CLK_PHASE_ERR_E, F.CLK_REG_STATUS_STATE] { s.m with clk := { s.m.clk with reg := m.clk.reg } } m) ∧
      ((st = 1 ∨ st = 2) → src ≤ 3 → -trimMax ≤ s.m.trim → s.m.trim ≤ trimMax → Completes (.regulatorUpdate src) s fun m =>
          m.get (F.CLK_DOM_RATE_RATE src) = codeOf 32 (s.m.domRate src - (m.trim - s.m.trim)) ∧
          (let d := roundRat ((s.m.domRate src : Rat) * ((srcTu src : Rat) / 1000) / (2 ^ s.m.get F.CLK_REG_CTRL_TAU : Nat)); (s.m.trim + d).natAbs ≤ trimMax.natAbs → d.natAbs ≤ cap 10 → m.trim = s.m.trim + d) ∧
          (m.trim - s.m.trim).natAbs ≤ cap 10 ∧
          Eventful [F.CLK_TRIM, F.CLK_DOM_RATE_RATE src, F.CLK_REG_STATUS_STATE] { s.m with clk := { s.m.clk with reg := m.clk.reg } } m) ∧
      ((st = 1 ∨ st = 2) → 4 ≤ src → s.m.phaseErr = none → Completes (.regulatorUpdate src) s fun m => m = s.m) ∧
      (∀ n, n ≠ src → Completes (.regulatorUpdate n) s fun m => m = s.m) ∧
      (st = 3 → -trimMax ≤ s.m.trim → s.m.trim ≤ trimMax → Completes (.regulatorUpdate src) s fun m =>
          let t : Rat := ((s.m.now - r.tHold : Nat) : Rat) / (10 ^ 9 : Nat)
          let aim := roundRat ((r.yh + s.m.ageSlope * t) * (2 ^ 40 : Nat)) + s.m.freqTemp s.m.pwr.dieMk - s.m.freqTemp r.th + r.shift
          (m.trim - s.m.trim).natAbs ≤ cap 10 ∧ (aim.natAbs ≤ trimMax.natAbs → (aim - s.m.trim).natAbs ≤ cap 10 → m.trim = aim) ∧ Eventful [F.CLK_TRIM] s.m m) ∧
      ((st = 1 ∨ st = 2) → src < 7 → (∀ n ∈ s.m.regSources, n = src ∨ s.m.qualified n = false) → Completes (.sourceLost src) s fun m =>
        let ys := (r.hist.filter fun h => decide (h.1 + 70000000000 ≥ s.m.now) && decide (h.1 + 10000000000 ≤ s.m.now)).map (·.2)
        m.get F.CLK_REG_STATUS_STATE = 3 ∧ m.get F.CLK_REG_STATUS_SRC = 7 ∧ m.clk.reg.tHold = s.m.now ∧ m.clk.reg.th = s.m.pwr.dieMk ∧ m.qualified src = false ∧
        (ys ≠ [] → m.clk.reg.yh = ys.foldl (· + ·) 0 / (ys.length : Nat)) ∧
        (s.m.evt.log.length < 15 → m.evt.log = s.m.evt.log ++ [⟨5, 0x504, 0, 0, s.m.now⟩, ⟨5, 0x505, 0, evArg 7 0 0, s.m.now⟩]) ∧
        Eventful [F.CLK_REG_STATUS_STATE, F.CLK_REG_STATUS_SRC] { s.m with clk := m.clk, free := s.m.free + 1 } m) ∧
      (∀ n, (st = 1 ∨ st = 2) → (s.m.regSources.filter fun k => k != src && s.m.qualified k).head? = some n → Completes (.sourceLost src) s fun m =>
        m.get F.CLK_REG_STATUS_STATE = 1 ∧ m.get F.CLK_REG_STATUS_SRC = n % 8 ∧ Issues 5 5 0 (evArg n 0 0) s.m m) ∧
      (∀ n, n ≠ src → Completes (.sourceLost n) s fun m => m = { s.m with clk := { s.m.clk with qual := s.m.clk.qual.filter fun q => q.1 != n } }) ∧
      (∀ n < 8, ∀ q, s.m.on F.CLK_REG_CTRL_AUTO = true → (s.m.clk.qual.find? fun k => k.1 == n) = some q → s.m.sourceRank n < s.m.sourceRank src →
        let w := s.m.reachNs (q.2 + 60000000000)
        w.regSources.find? w.proven = some n → Completes (.sourceTake n) s fun m =>
        m.get F.CLK_REG_STATUS_STATE = 1 ∧ m.get F.CLK_REG_STATUS_SRC = n ∧ Issues 5 5 0 (evArg n 0 0) w m ∧
        Eventful [F.CLK_REG_STATUS_STATE, F.CLK_REG_STATUS_SRC]
          { w with clk := { w.clk with reg := { w.clk.reg with off := none, good := 0, t0 := s.m.pwr.dieMk, edge0 := none, edges := 0, edge := none } } } m) ∧
      (∀ n, s.m.on F.CLK_REG_CTRL_AUTO = false ∨ s.m.qualified n = false ∨ s.m.sourceRank src ≤ s.m.sourceRank n → Completes (.sourceTake n) s fun m => m = s.m) ∧
      (∀ x : Int, x.natAbs ≤ 20000 →
        (s.m.clk.refGood < 9 → Completes (.refInMeasurement (some x)) s fun m => m = { s.m with clk := { s.m.clk with refGood := s.m.clk.refGood + 1 } }) ∧
        (9 ≤ s.m.clk.refGood → Completes (.refInMeasurement (some x)) s fun m => m.clk.refGood = 10 ∧ m.qualified 5 = true)) ∧
      (src ≠ 5 → Completes (.refInMeasurement none) s fun m => m.clk.refGood = 0 ∧ m.qualified 5 = false ∧ m = { s.m with clk := m.clk }) ∧
      (st = 2 → Completes .ageingSample s fun m =>
        m.clk.reg.ageN = r.ageN + 1 ∧ m.get F.CLK_AGE_HOURS_HOURS = min ((r.ageN + 1) / 60) 0xFFFF ∧
        m = { s.m with regs := { s.m.regs with act := m.regs.act }, clk := { s.m.clk with reg := { r with ageing := m.clk.reg.ageing, ageN := r.ageN + 1 } } } ∧
        Keeps [F.CLK_AGE_RATE_A, F.CLK_AGE_HOURS_HOURS] s.m m) ∧
      (st ≠ 2 → Completes .ageingSample s fun m => m = s.m)) ∧
    (∀ (who : Master) (w : Word), MayAccess s.m who F.CLK_AGE_CLEAR_CLEAR.addr → bitOf w.toNat 0 = true → Completes (.ageClear who w) s fun m =>
      m.get F.CLK_AGE_RATE_A = 0 ∧ m.get F.CLK_AGE_HOURS_HOURS = 0 ∧
      m = { s.m.done with regs := { s.m.regs with act := m.regs.act }, clk := { s.m.clk with reg := { r with ageing := [], ageN := 0 } } } ∧
      Keeps [F.CLK_AGE_RATE_A, F.CLK_AGE_HOURS_HOURS] s.m m)

/-- DOM_STEP, DOM_SET_SEC, PPS_OUT_EDGE and PPS_OUT_PULSE_END (R108, R111, R365). That the PPS rows bring device time to their edge is log entry 1's, to within the
cycle that holds it log entry 10's; an edge that is not due changes nothing (log entry 3). -/
def Obligations.DomainClocks : Prop :=
  ∀ s : State,
    (∀ (who : Master) (d : Nat) (w : Word) (c : Dom), d < 4 → s.m.clk.doms[d]? = some c →
      let keeps (m : Mach) : Prop := (∀ k, k ≠ d → m.clk.doms[k]? = s.m.clk.doms[k]?) ∧ m.ocState d = (if s.m.ocState d = 2 then 1 else s.m.ocState d) ∧
        (s.m.ocState d ≠ 2 → m = { s.m.done with clk := { s.m.clk with doms := m.clk.doms }, pwr := { s.m.pwr with ppsLast := m.pwr.ppsLast } }) ∧
        (s.m.pwr.ppsSrc ≠ d + 1 → m.pwr = s.m.pwr)
      (MayAccess s.m who (F.CLK_DOM_STEP_STEP d).addr → Completes (.domStep who d w) s fun m => keeps m ∧
        ∃ c', m.clk.doms[d]? = some c' ∧ c'.t = (((c.t : Int) + signedOf 32 w.toNat * 2 ^ 48) % (10 ^ 9 * 2 ^ 96)).toNat ∧ c'.set = c.set ∧ c'.run = c.run ∧
          c'.hist.head? = some ⟨s.m.count, c'.t, s.m.domRate d, c.run⟩) ∧
      (MayAccess s.m who (F.CLK_DOM_SET_SEC_SEC d).addr → Completes (.domSetSec who d w) s fun m => keeps m ∧
        ∃ c', m.clk.doms[d]? = some c' ∧ c'.t = w.toNat * (10 ^ 9 * 2 ^ 48) ∧ c'.set = true ∧ c'.run = c.run ∧
          c'.hist.head? = some ⟨s.m.count, c'.t, s.m.domRate d, c.run⟩)) ∧
    (s.m.fabricUp = true →
      (s.m.ppsRuns = true → Completes .ppsOutEdge s fun m =>
        let w := s.m.advance s.m.ppsWait
        m = { w with pwr := { s.m.pwr with ppsOut := true, ppsLast := some s.m.ppsNext, ppsEnd := w.now + s.m.get F.CLK_PPS_OUT_CTRL_WIDTH * 1000000 } } ∧
        (s.m.pwr.ppsSrc = 5 → s.m.get F.CLK_PPS_OUT_DELAY_DELAY = 0 → -trimMax ≤ s.m.trim → s.m.trim ≤ trimMax → s.m.clk.frac < 2 ^ 32 →
          s.m.ppsNext * 10 ^ 9 + 2 < 2 ^ 64 → s.m.now ≤ s.m.ppsNext * 10 ^ 9 ∧ s.m.ppsNext * 10 ^ 9 ≤ m.now + 1 ∧ m.now ≤ s.m.ppsNext * 10 ^ 9 + 2)) ∧
      (s.m.ppsRuns = false → Completes .ppsOutEdge s fun m => m = s.m) ∧
      (s.m.pwr.ppsOut = true → Completes .ppsOutPulseEnd s fun m => m = { s.m.reachNs s.m.pwr.ppsEnd with pwr := { s.m.pwr with ppsOut := false } }) ∧
      (s.m.pwr.ppsOut = false → Completes .ppsOutPulseEnd s fun m => m = s.m))

/-- Stamps and the wrap count (R114), with the FIFO and the dead time of R112 and R113. The stamp's counts are the command's operands (log entry 2); an edge of an
input that is not enabled, or of the other polarity, changes nothing (log entry 3). -/
def Obligations.Stamps : Prop :=
  ∀ s : State,
    (s.m.fabricUp = true → ∀ (i : Nat) (falling : Bool) (coarse : BitVec 48) (fine : BitVec 10), i < 8 →
      let x := mapGet {} s.m.tis.inputs i
      let t : Stamp := ⟨s.m.clk.wraps * 2 ^ 48 + coarse.toNat, fine.toNat, match x.last with | some l => decide (l.coarse / 2 ^ 48 < s.m.clk.wraps) | none => false⟩
      (s.m.tisEnabled i = false ∨ falling ≠ s.m.tisFalls i → Completes (.tisStamp ⟨i, falling⟩ coarse fine) s fun m => m = s.m) ∧
      (s.m.tisEnabled i = true → falling = s.m.tisFalls i →
        ((∃ l, x.last = some l ∧ t.lsb < l.lsb + 3072) → Completes (.tisStamp ⟨i, falling⟩ coarse fine) s fun m =>
          OnlyFields [F.TIS_DEAD_LO_DEAD, F.TIS_DEAD_HI_DEAD] s.m m) ∧
        ((∀ l, x.last = some l → l.lsb + 3072 ≤ t.lsb) → Completes (.tisStamp ⟨i, falling⟩ coarse fine) s fun m =>
          mapGet {} m.tis.inputs i = { fifo := if 16 ≤ x.fifo.length then x.fifo else x.fifo ++ [t], last := some t } ∧
          (∀ k, k ≠ i → mapGet {} m.tis.inputs k = mapGet {} s.m.tis.inputs k) ∧
          (3 ≤ i → m = { s.m with regs := { s.m.regs with act := m.regs.act }, tis := m.tis, clk := { s.m.clk with reg := m.clk.reg } } ∧ KeepsOutside [4] s.m m ∧
            (i ≠ 5 → m.clk = s.m.clk))))) ∧
    (∀ (who : Master) (i : Nat) (w : Word), i < 8 → MayAccess s.m who (F.TIS_POP i).addr → bitOf w.toNat 0 = true → Completes (.tisPop who i w) s fun m =>
      mapGet {} m.tis.inputs i = { mapGet {} s.m.tis.inputs i with fifo := (mapGet {} s.m.tis.inputs i).fifo.drop 1 } ∧
      (∀ k, k ≠ i → mapGet {} m.tis.inputs k = mapGet {} s.m.tis.inputs k) ∧
      m = { s.m.done with tis := { s.m.tis with inputs := m.tis.inputs } }) ∧
    (s.m.fabricUp = true → s.m.clk.coarse < 2 ^ 48 → Completes .coarseWrap s fun m =>
      m.clk.coarse = 0 ∧ m.clk.wraps = s.m.clk.wraps + 1 ∧ m.get F.TIS_STATUS_OVF = 1 ∧
      m = { s.m with regs := { s.m.regs with act := m.regs.act }, clk := m.clk, free := m.free } ∧ Keeps [F.TIS_STATUS_OVF] s.m m)

/-- The interval and frequency units (R115 to R117). That a timeout and a gate's end bring device time to their instant is log entry 1's; a unit that does not wait
for one changes nothing (log entry 3). -/
def Obligations.IntervalAndFrequency : Prop :=
  ∀ s : State,
    (∀ (who : Master) (u : Nat) (w : Word), u < 4 → MayAccess s.m who (F.TIS_IU_CTRL_ARM u).addr → bitOf w.toNat 11 = true → Completes (.iuArm who u w) s fun m =>
      m.get (F.TIS_IU_CTRL_ARM u) = 1 ∧ m.get (F.TIS_IU_STATUS_DONE u) = 0 ∧ m.get (F.TIS_IU_STATUS_TIMEOUT u) = 0 ∧
      mapGet {} m.tis.iu u = { armAt := s.m.now } ∧ (∀ k, k ≠ u → mapGet {} m.tis.iu k = mapGet {} s.m.tis.iu k) ∧
      m = { s.m.done with regs := { s.m.regs with act := m.regs.act }, tis := { s.m.tis with iu := m.tis.iu } } ∧ KeepsOutside [4] s.m m) ∧
    (∀ (who : Master) (f : Nat) (w : Word), f < 2 → MayAccess s.m who (F.TIS_FU_CTRL_START f).addr → bitOf w.toNat 21 = true → Completes (.fuStart who f w) s fun m =>
      m.get (F.TIS_FU_CTRL_START f) = 1 ∧ mapGet {} m.tis.fu f = { from_ := s.m.now } ∧
      m = { s.m.done with regs := { s.m.regs with act := m.regs.act }, tis := { s.m.tis with fu := m.tis.fu } } ∧ KeepsOutside [4] s.m m) ∧
    (s.m.fabricUp = true → ∀ u < 4, let w := s.m.reachNs ((mapGet {} s.m.tis.iu u).armAt + s.m.get (F.TIS_IU_CTRL_TIMEOUT u) * 1000000)
      (s.m.on (F.TIS_IU_CTRL_ARM u) = true → s.m.get (F.TIS_IU_CTRL_TIMEOUT u) ≠ 0 → Completes (.iuTimeout u) s fun m =>
        m.get (F.TIS_IU_STATUS_DONE u) = 1 ∧ m.get (F.TIS_IU_STATUS_TIMEOUT u) = 1 ∧ m.get (F.TIS_IU_RES_LO_RES u) = 0 ∧ m.get (F.TIS_IU_RES_HI_RES u) = 0 ∧
        m.on (F.TIS_IU_CTRL_ARM u) = s.m.on (F.TIS_IU_CTRL_CONT u) ∧ mapGet {} m.tis.iu u = { armAt := w.now } ∧
        m = { w with regs := { s.m.regs with act := m.regs.act }, tis := { s.m.tis with iu := m.tis.iu } } ∧ KeepsOutside [4] s.m m) ∧
      (s.m.on (F.TIS_IU_CTRL_ARM u) = false ∨ s.m.get (F.TIS_IU_CTRL_TIMEOUT u) = 0 → Completes (.iuTimeout u) s fun m => m = s.m)) ∧
    (s.m.fabricUp = true → ∀ f < 2, let x := mapGet {} s.m.tis.fu f; let w := s.m.reachNs (x.from_ + s.m.get (F.TIS_FU_CTRL_GATE_MS f) * 1000000)
      (s.m.on (F.TIS_FU_CTRL_START f) = false → Completes (.fuGateEnd f) s fun m => m = s.m) ∧
      (s.m.on (F.TIS_FU_CTRL_START f) = true → Completes (.fuGateEnd f) s fun m =>
        m.get (F.TIS_FU_STATUS_DONE f) = 1 ∧ m.on (F.TIS_FU_CTRL_START f) = s.m.on (F.TIS_FU_CTRL_CONT f) ∧ mapGet {} m.tis.fu f = { from_ := w.now } ∧
        (x.m < 3 → m.get (F.TIS_FU_FREQ_LO_FREQ f) = 0 ∧ m.get (F.TIS_FU_FREQ_HI_FREQ f) = 0 ∧ m.get (F.TIS_FU_STATUS_NO_EDGES f) = 1) ∧
        (∀ b : Nat, 0 < b → 3 ≤ x.m → 2 * x.st = b * (x.m * (x.m - 1) : Int) → 6 * x.skt = b * ((x.m - 1) * x.m * (2 * x.m - 1) : Int) →
          6 * x.stt = b * b * ((x.m - 1) * x.m * (2 * x.m - 1) : Int) →
          let freq := min (roundAway (2 ^ s.m.get (F.TIS_FU_CTRL_PRESCALE f) * 1200000000 * 1024 * 2 ^ 32) b).toNat (2 ^ 64 - 1)
          m.get (F.TIS_FU_FREQ_LO_FREQ f) = freq % 2 ^ 32 ∧ m.get (F.TIS_FU_FREQ_HI_FREQ f) = freq / 2 ^ 32 ∧ m.get (F.TIS_FU_STATUS_RMS f) = 0 ∧
          m.get (F.TIS_FU_STATUS_NO_EDGES f) = 0) ∧
        m = { w with regs := { s.m.regs with act := m.regs.act }, tis := { s.m.tis with fu := m.tis.fu } } ∧ KeepsOutside [4] s.m m))

/-- BEAT_BOUNDARY, PLAN_RESTART_END and ACQUISITION_START (R1, R63, R107, R122, R124, R135), and how a port's end takes the drain of a warm reset on (R425). What a drain
does at the boundary is log entry 40's, a first t_B waits as log entry 69 has it, and a command out of its time changes nothing (log entry 3). -/
def Obligations.Beats : Prop :=
  ∀ (s : State) (p : Port), s.m.fabricUp = true →
    let kept (m : Mach) : Prop := m.pwr = s.m.pwr ∧ m.boot = s.m.boot ∧ m.net = s.m.net ∧ m.mgmt = s.m.mgmt
    -- the drain of a warm reset ends once both ports have stopped and the backscatter of their last beats is processed, or 5 ms have passed
    let drains (c : Instr) : Prop := ∀ t, s.m.pwr.drain = some t → s.m.pwr.holds = [] →
      (s.m.forming .A = false → s.m.forming .B = false → Completes c s (CoreReset 2)) ∧
      (s.m.forming .A = true ∨ s.m.forming .B = true → Completes c s fun m =>
        (m.now < t + 5000000 ∧ m.running .A = false ∧ m.running .B = false ∧ kept m) ∨ (t + 5000000 ≤ m.now ∧ CoreReset 2 m))
    let goesOn := s.m.pwr.drain = none ∨ s.m.running .A = true ∨ s.m.running .B = true
    (s.m.blocksRun p = true → (s.m.acqOf p).set.n ≤ (s.m.acqOf p).k → (s.m.acqOf p).resetWrite = none → s.m.get F.SYS_STATE_MODE ≠ 2 →
      s.m.pendingIn (portIx p) = false → s.m.pwr.drain = none →
      (s.m.on (F.ESC_CTRL_RUN (portIx p)) = true → Completes (.beatBoundary p) s fun m =>
        (m.acqOf p).beat = (s.m.acqOf p).beat + 1 ∧ (m.acqOf p).k = 0 ∧ (m.acqOf p).edge0 = (s.m.acqOf p).edge0 + (s.m.acqOf p).set.tl * (s.m.acqOf p).set.n ∧
        (m.acqOf p).edge0 ≤ m.count ∧
        m.running p = true ∧ m.get (F.ESC_BEAT_LO_BEAT (portIx p)) = ((s.m.acqOf p).beat + 1) % 2 ^ 32 ∧ kept m) ∧
      (s.m.on (F.ESC_CTRL_RUN (portIx p)) = false → Completes (.beatBoundary p) s fun m =>
        m.running p = false ∧ (m.acqOf p).ended = true ∧ (m.acqOf p).drive = none ∧ (m.acqOf p).beat = (s.m.acqOf p).beat ∧ kept m)) ∧
    -- a commit that waits for the beat applies there
    (s.m.blocksRun p = true → (s.m.acqOf p).set.n ≤ (s.m.acqOf p).k → (s.m.acqOf p).resetWrite = none → s.m.get F.SYS_STATE_MODE ≠ 2 →
      s.m.pendingIn (portIx p) = true → s.m.pwr.drain = none → s.m.get F.CFG_COMMIT_STATUS_APPLIED = 0 → s.m.commit.mask = 2 ^ portIx p → s.m.commit.wantReload = 0 →
      (mapGet 0 s.m.regs.staged (F.ESC_CTRL_RUN (portIx p)).key ≠ 1 → Completes (.beatBoundary p) s fun m =>
        m.running p = false ∧ (m.acqOf p).ended = true ∧ m.get F.CFG_EPOCH = s.m.get F.CFG_EPOCH_PEND_EPOCH ∧ m.get F.CFG_COMMIT_STATUS_STATE = 0 ∧
        bitOf (m.get F.EVT_PEND) 2 = true) ∧
      (mapGet 0 s.m.regs.staged (F.ESC_CTRL_RUN (portIx p)).key = 1 → Completes (.beatBoundary p) s fun m =>
        m.running p = true ∧ m.get F.CFG_EPOCH = s.m.get F.CFG_EPOCH_PEND_EPOCH ∧ m.get F.CFG_COMMIT_STATUS_STATE = 0 ∧
        ((m.acqOf p).restarting.isSome = true ∧ (m.acqOf p).ended = true ∨ (m.acqOf p).beat = (s.m.acqOf p).beat + 1 ∧ (m.acqOf p).set = m.planSet p))) ∧
    (∀ c, (c = .beatBoundary p ∧ s.m.blocksRun p = true ∧ (s.m.acqOf p).set.n ≤ (s.m.acqOf p).k) ∨ (c = .planRestartEnd p ∧ (s.m.acqOf p).restarting.isSome = true) →
      s.m.pwr.drain.isSome = true →
      (s.m.running (otherPort p) = true → Completes c s fun m => m.running p = false ∧ (m.acqOf p).ended = true ∧ m.running (otherPort p) = true ∧ kept m) ∧
      (s.m.running (otherPort p) = false → drains c)) ∧
    (¬ goesOn → s.m.blocksRun p = false → (s.m.acqOf p).restarting = none → drains (.beatBoundary p) ∧ drains (.planRestartEnd p)) ∧
    (goesOn → s.m.blocksRun p = false ∨ (s.m.acqOf p).k < (s.m.acqOf p).set.n → Completes (.beatBoundary p) s fun m => m = s.m) ∧
    (∀ edge, (s.m.acqOf p).restarting = some edge → (s.m.acqOf p).resetWrite = none → s.m.get F.SYS_STATE_MODE ≠ 2 → s.m.pwr.drain = none →
      s.m.pendingIn (portIx p) = false → s.m.on (F.ESC_CTRL_RUN (portIx p)) = true → Completes (.planRestartEnd p) s fun m =>
      m.running p = true ∧ m.on (F.ESC_STATUS_RESTARTING (portIx p)) = false ∧ (m.acqOf p).beat = 0 ∧ (m.acqOf p).restarting = none ∧
      (m.acqOf p).edge0 = edge ∧ edge ≤ m.count ∧ (m.acqOf p).acqNo = (s.m.acqOf p).acqNo + 1 ∧ kept m) ∧
    ((s.m.acqOf p).restarting = none → goesOn → Completes (.planRestartEnd p) s fun m => m = s.m) ∧
    (s.m.pwr.phase = .running → ∀ t, s.m.firstAt p = some t → s.m.running p = false → s.m.pwr.drain = none → s.m.pendingIn (portIx p) = false →
      s.m.get F.SYS_STATE_MODE ≠ 2 → s.m.on (F.ESC_CTRL_RUN (portIx p)) = true → CompletesNv (.acquisitionStart ⟨p, true⟩) s fun nv m =>
      m.running p = true ∧ (m.acqOf p).beat = 0 ∧ (m.acqOf p).startAt = none ∧ (m.acqOf p).ended = false ∧ (m.acqOf p).acqNo = (s.m.acqOf p).acqNo + 1 ∧
      (m.acqOf p).t0 = s.m.count + s.m.cyclesUntil t ∧ m.pwr = s.m.pwr ∧ m.net = s.m.net ∧ m.mgmt = s.m.mgmt ∧ m.boot = { s.m.boot with burned := true } ∧
      nv = if s.m.boot.burned then s.nv else s.nv.burn s.m.boot.image) ∧
    (s.m.pwr.phase = .running → s.m.firstAt p = none → s.m.boot.burned = true → Completes (.acquisitionStart ⟨p, true⟩) s fun m => m = s.m) ∧
    Completes (.acquisitionStart ⟨p, false⟩) s fun m => m = s.m

/-- SUBBAND_LAUNCH and LMON_WINDOW_CLOSE (R122, R133, R137), with their frames: a launch closes the window before it, and takes the stamps that came early. That a
launch and a window's end bring device time to their instant is log entry 1's; that the runs of missed and seen launches go on over a stop is log entry 69's; a
launch out of turn changes nothing (log entry 3). -/
def Obligations.Launches : Prop :=
  ∀ (s : State) (p : Port), s.m.fabricUp = true → let a := s.m.acqOf p
    let overs := !s.m.pwr.intlkN && s.m.on (F.ESC_INTLK_OVR_OVR (portIx p)) && !s.m.tripped p && !s.m.on F.SYS_POWER_PFAIL
    (∀ k, s.m.blocksRun p = true → k = a.k → k < a.set.n → Completes (.subbandLaunch p k) s fun m =>
      let c := s.m.lmonClose p
      (∃ l : Launch, (m.acqOf p).launches = (c.acqOf p).launches ++ [l] ∧ l.k = k ∧ l.beat = a.beat ∧ l.m = a.m ∧ l.acq = a.acqNo ∧
        l.edge = a.edge0 + k * a.set.tl ∧ l.dark = (a.cut || overs)) ∧
      (m.acqOf p).k = k + 1 ∧ (m.acqOf p).m = a.m + 1 ∧ (m.acqOf p).early = [] ∧ a.edge0 + k * a.set.tl ≤ m.count ∧
      (a.cut = true → overs = false → (m.acqOf p).drive = none) ∧ (a.cut = false → (m.acqOf p).drive.isSome = true) ∧
      m.get (F.ESC_STATUS_DARK (portIx p)) = bit (a.cut || overs) ∧
      m.get (F.ESC_DARK_CNT_COUNT (portIx p)) =
        (if a.cut || overs then min (s.m.get (F.ESC_DARK_CNT_COUNT (portIx p)) + 1) (F.ESC_DARK_CNT_COUNT (portIx p)).max else s.m.get (F.ESC_DARK_CNT_COUNT (portIx p))) ∧
      m.acqOf (otherPort p) = s.m.acqOf (otherPort p) ∧
      m = { c with regs := { c.regs with act := m.regs.act }, clk := m.clk, acq := m.acq, adc := m.adc, free := m.free, evt := m.evt, recs := m.recs } ∧
      (a.early = [] → m.evt = c.evt ∧ m.recs = c.recs) ∧
      Keeps [F.ESC_DARK_CNT_COUNT (portIx p), F.ESC_STATUS_DARK (portIx p), F.CPP_STATUS_ACTIVE (portIx p), F.CPP_STATUS_RESYNCING (portIx p), F.TIS_STATUS_OVF,
        F.ESC_LMON_DELAY_DELAY (portIx p), F.ESC_LMON_STRAY_CNT_COUNT (portIx p), F.EVT_PEND, F.EVT_LOG_COUNT_LOST] c m) ∧
    (∀ k, s.m.blocksRun p = false ∨ k ≠ a.k ∨ a.set.n ≤ k → Completes (.subbandLaunch p k) s fun m => m = s.m) ∧
    (a.window = none → Completes (.lmonWindowClose p) s fun m => m = s.m) ∧
    (∀ w, a.window = some w → let c := s.m.reach (w.edge + 1200)
      (w.live = false ∨ w.stamp = true → Completes (.lmonWindowClose p) s fun m => m = { c with acq := s.m.acq.put p { a with window := none } }) ∧
      (w.live = true → w.stamp = false → Completes (.lmonWindowClose p) s fun m =>
        (m.acqOf p).window = none ∧ (m.acqOf p).missRun = a.missRun + 1 ∧ (m.acqOf p).hitRun = 0 ∧
        m.get (F.ESC_LMON_MISS_CNT_COUNT (portIx p)) = min (s.m.get (F.ESC_LMON_MISS_CNT_COUNT (portIx p)) + 1) (F.ESC_LMON_MISS_CNT_COUNT (portIx p)).max ∧
        (a.lmonBad = false → a.missRun = 15 → Issues (6 + portIx p) 6 (evPort p) 0 c m) ∧
        Eventful [F.ESC_LMON_MISS_CNT_COUNT (portIx p)] { c with acq := m.acq, adc := m.adc } m))

/-- The interlock and the energy trip (R131, R136 to R138, R140). A low between 50 ns and 100 ns is left open (log entry 15); how long INTLK_N is low and what a
faulty gate path adds are operands (log entry 2), and an edge to the level that the pin has changes nothing (log entry 3). The integral of R140 is Mach.beatEnergy:
the launches of the beat, that in progress up to now, and the pre-charge of the next, code squared times steps. -/
def Obligations.Interlock : Prop :=
  ∀ s : State,
    (s.m.pwr.supply = true →
      (s.m.pwr.intlkN = true → ∀ ns,
        (100 ≤ ns → Completes (.intlkNLow ns) s fun m =>
          m.pwr = { s.m.pwr with intlkN := false, intlkCut := true, lightAt := none } ∧ Issues 18 0 0 0 s.m m ∧
          (∀ p : Port, let overs := s.m.on (F.ESC_INTLK_OVR_OVR (portIx p)) && !s.m.tripped p && !s.m.on F.SYS_POWER_PFAIL
            m.get (F.ESC_STATUS_INTLK_LOW (portIx p)) = 1 ∧ (m.acqOf p).cut = true ∧ (m.acqOf p).clearAt = none ∧ (m.dts.at p).trigEnd = none ∧
            (m.acqOf p).drive = if overs then (s.m.acqOf p).drive.map fun d => { d with gate := false } else none) ∧
          Eventful [F.ESC_STATUS_INTLK_LOW 0, F.ESC_STATUS_INTLK_LOW 1, F.ESC_STATUS_DARK 0, F.ESC_STATUS_DARK 1]
            { s.m with pwr := m.pwr, acq := m.acq, dts := m.dts, adc := m.adc, free := s.m.free + 1 } m) ∧
        (ns < 50 → Completes (.intlkNLow ns) s fun m =>
          (∀ p : Port, m.get (F.ESC_STATUS_INTLK_LOW (portIx p)) = 1 ∧ (m.acqOf p).cut = (s.m.acqOf p).cut ∧ (m.acqOf p).drive = (s.m.acqOf p).drive) ∧
          m = { s.m with regs := { s.m.regs with act := m.regs.act }, pwr := { s.m.pwr with intlkN := false, intlkCut := false, lightAt := none }, acq := m.acq,
                         free := s.m.free + 1 } ∧
          Keeps [F.ESC_STATUS_INTLK_LOW 0, F.ESC_STATUS_INTLK_LOW 1] s.m m)) ∧
      (s.m.pwr.intlkN = false → ∀ ns, Completes (.intlkNLow ns) s fun m => m = s.m) ∧
      (s.m.pwr.intlkN = false → Completes .intlkNHigh s fun m =>
        (∀ p : Port, m.get (F.ESC_STATUS_INTLK_LOW (portIx p)) = 0 ∧ (m.acqOf p).cut = (s.m.acqOf p).cut ∧
          (m.acqOf p).drive = if (s.m.acqOf p).cut then none else (s.m.acqOf p).drive) ∧
        (s.m.pwr.intlkCut = true → Issues 18 1 0 0 s.m m) ∧ (s.m.pwr.intlkCut = false → m.evt = s.m.evt ∧ m.recs = s.m.recs) ∧
        Eventful [F.ESC_STATUS_INTLK_LOW 0, F.ESC_STATUS_INTLK_LOW 1]
          { s.m with pwr := { s.m.pwr with intlkN := true, intlkCut := false,
                                           lightAt := if s.m.on F.SYS_POWER_PFAIL then none else some (s.m.pwr.lightAt.getD s.m.now) }, acq := m.acq } m) ∧
      (s.m.pwr.intlkN = true → Completes .intlkNHigh s fun m => m = s.m)) ∧
    (∀ (p : Port) (extra : Nat), s.m.fabricUp = true → let a := s.m.acqOf p
      let past := 65 * (s.m.get (F.ESC_LIM_DUTY_DUTY_MAX (portIx p)) * 255 ^ 2 * 2 * (a.set.tl * a.set.n)) < 64 * 4096 * (s.m.beatEnergy p + extra)
      (s.m.running p = true → s.m.tripped p = false → past → Completes (.energyTrip ⟨p, extra⟩) s fun m =>
        m.get (F.ESC_STATUS_TRIPPED (portIx p)) = 1 ∧ m.get (F.ESC_TRIP_TRIPPED (portIx p)) = 1 ∧ (m.acqOf p).cut = true ∧ (m.acqOf p).drive = none ∧
        (m.dts.at p).trigEnd = none ∧
        (m.acqOf (otherPort p)).cut = (s.m.acqOf (otherPort p)).cut ∧ (m.acqOf (otherPort p)).drive = (s.m.acqOf (otherPort p)).drive ∧
        m.tripped (otherPort p) = s.m.tripped (otherPort p) ∧ bitOf (m.get F.EVT_PEND) (6 + portIx p) = true ∧
        m.pwr = { s.m.pwr with lightAt := m.pwr.lightAt } ∧ m.clk = s.m.clk) ∧
      (s.m.running p = false ∨ s.m.tripped p = true ∨ ¬ past → Completes (.energyTrip ⟨p, extra⟩) s fun m =>
        m = { s.m with acq := s.m.acq.put p { a with energy := a.energy + extra } })) ∧
    (∀ (who : Master) (p : Port) (w : Word), MayAccess s.m who (F.ESC_TRIP_TRIPPED (portIx p)).addr → bitOf w.toNat 0 = true →
      (s.m.tripped p = true → Completes (.tripClear who p w) s fun m =>
        m.get (F.ESC_STATUS_TRIPPED (portIx p)) = 0 ∧ m.get (F.ESC_TRIP_TRIPPED (portIx p)) = 0 ∧
        m = { s.m.done with regs := { s.m.regs with act := m.regs.act }, pwr := { s.m.pwr with lightAt := m.pwr.lightAt }, acq := m.acq, dts := m.dts } ∧
        KeepsOutside [5, 10] s.m m) ∧
      (s.m.tripped p = false → Completes (.tripClear who p w) s fun m => m = s.m.done))

/-- RAMAN_SHOT and SWITCH_SETTLE_END (R131, R132, R156, R158, R161, R220, R223, R227): a shot falls at the next instant of the schedule, to which RAMAN_SHOT brings
device time, as SWITCH_SETTLE_END does to the end of the settle (log entry 1). What shots wait for is as log entry 67 reads R223 to R225; a shot or an end that
cannot come changes nothing (log entry 3). -/
def Obligations.RamanShots : Prop :=
  ∀ s : State, s.m.fabricUp = true →
    (∀ p : Port,
      (s.m.get (F.ESC_SW_STATUS_SETTLING (portIx p)) = 1 → Completes (.switchSettleEnd p) s fun m => let w := s.m.reachNs (s.m.dts.at p).settleEnd
        m.get (F.ESC_SW_STATUS_SETTLING (portIx p)) = 0 ∧ OnlyFields [F.ESC_SW_STATUS_SETTLING (portIx p)] w m) ∧
      (s.m.get (F.ESC_SW_STATUS_SETTLING (portIx p)) = 0 → Completes (.switchSettleEnd p) s fun m => m = s.m)) ∧
    (∀ st0 as0 st1 as1 : List Half,
      let bins (p : Port) : List Half × List Half := match p with | .A => (st0, as0) | .B => (st1, as1)
      let ps := [Port.A, Port.B].filter s.m.inFrame
      (ps = [] ∨ s.m.shotNext = none → Completes (.ramanShot st0 as0 st1 as1) s fun m => m = s.m) ∧
      (∀ e, s.m.shotNext = some e → s.m.pwr.phase = .running → s.m.get F.SYS_STATE_MODE ≠ 2 → ps ≠ [] → s.m.on F.DTS_STATUS_IDLING = false →
        (∀ p ∈ ps, s.m.on (F.ESC_SW_STATUS_SETTLING (portIx p)) = false ∧ (s.m.ramanOf p).frame.shots < s.m.get F.DTS_FRAME_SHOTS ∧
          (bins p).1.length = s.m.get (F.AFE_RFE_NBIN_N_BIN (portIx p)) ∧ (bins p).2.length = s.m.get (F.AFE_RFE_NBIN_N_BIN (portIx p))) →
        let w := s.m.reach e
        (s.m.shotPermitted ps = false → Completes (.ramanShot st0 as0 st1 as1) s fun m =>
          m.get F.DTS_STATUS_SUPPRESSING = 1 ∧ m.get F.DTS_SUPP_CNT_COUNT = min (s.m.get F.DTS_SUPP_CNT_COUNT + 1) F.DTS_SUPP_CNT_COUNT.max ∧
          (∀ p ∈ ps, (m.ramanOf p).frame.shots = (s.m.ramanOf p).frame.shots ∧ (m.ramanOf p).frame.sums = (s.m.ramanOf p).frame.sums ∧
            (m.ramanOf p).frame.supp = (s.m.ramanOf p).frame.supp + 1) ∧
          m = { w with regs := { s.m.regs with act := m.regs.act }, dts := m.dts, grid := m.grid, inst := some e } ∧ KeepsOutside [10] w m) ∧
        (s.m.shotPermitted ps = true → w.apdSettling e = true → Completes (.ramanShot st0 as0 st1 as1) s fun m =>
          m.get F.DTS_EXCL_CNT_COUNT = min (s.m.get F.DTS_EXCL_CNT_COUNT + 1) F.DTS_EXCL_CNT_COUNT.max ∧
          (∀ p ∈ ps, (m.ramanOf p).frame.shots = (s.m.ramanOf p).frame.shots ∧ (m.ramanOf p).frame.sums = (s.m.ramanOf p).frame.sums ∧
            (m.ramanOf p).frame.excl = (s.m.ramanOf p).frame.excl + 1)) ∧
        (s.m.shotPermitted ps = true → w.apdSettling e = false → Completes (.ramanShot st0 as0 st1 as1) s fun m =>
          m.get F.DTS_STATUS_SUPPRESSING = 0 ∧
          (∀ p ∈ ps, (m.ramanOf p).frame.shots = (s.m.ramanOf p).frame.shots + 1 ∧
            (m.ramanOf p).trigEnd = some (e + 6 * s.m.get (F.ESC_RTRIG_CTRL_WIDTH (portIx p))) ∧
            ∀ (j : Nat) (w : Half), (bins p).1[j]? = some w → bitOf w.toNat 12 = false → s.m.apdDown p 0 = false →
              bitOf (s.m.get F.ADC_RAMAN_MAP_FAIL) (4 * portIx p + j % 2) = false →
              (m.ramanOf p).frame.sum 0 j = (((s.m.ramanOf p).frame.sum 0 j).1 + rfeOut s.m.regs.act (0x0FC4000 + 0x80 * (2 * portIx p)) (binU w),
                ((s.m.ramanOf p).frame.sum 0 j).2 + 1)) ∧
          (∀ p ∉ ps, m.ramanOf p = s.m.ramanOf p) ∧
          m = { w with regs := { s.m.regs with act := m.regs.act }, dts := m.dts, grid := m.grid, inst := some e, shotAt := some e } ∧
          ∀ k, k / 0x200000 ∉ [6, 10] → k ≠ F.SYS_PWR_STATE_PSTATE.key → mapGet 0 m.regs.act k = mapGet 0 w.regs.act k)))

/-- RAMAN_FRAME_BOUNDARY, RAMAN_IDLE_END and DTS_PROFILE_COMPLETE (R225, R226, R229 to R235, R238, Table 10-4). The values of a profile are those of the model's
functions for R229 (`dark`, `valid`), R230 (`z`), R231 (`refTemp`, `ratioOf`), R232 and R233 (`fitSingle`), R234 (`dualD`, `fitDual`). That a boundary brings device time to
the end of its last shot's span and RAMAN_IDLE_END to the end of the interval is log entry 1's; the clauses in which nothing changes are log entry 3's. -/
def Obligations.RamanFrames : Prop :=
  ∀ (s : State) (p : Port), s.m.fabricUp = true → let r := s.m.ramanOf p
    (s.m.inFrame p = false ∨ r.frame.shots < s.m.get F.DTS_FRAME_SHOTS ∨ r.frame.shots = 0 → Completes (.ramanFrameBoundary p) s fun m => m = s.m) ∧
    (s.m.inFrame p = true → s.m.get F.DTS_FRAME_SHOTS ≤ r.frame.shots → 0 < r.frame.shots → s.m.pendingIn (2 + portIx p) = false → r.closed = none →
      Completes (.ramanFrameBoundary p) s fun m => let w := match s.m.shotAt with | some e => s.m.reach (e + s.m.shotSpan) | none => s.m
        (∃ f, (m.ramanOf p).closed = some f ∧ f.sums = r.frame.sums ∧ f.shots = r.frame.shots ∧ f.tEnd = w.now ∧ f.fibre = r.frame.fibre ∧
          f.refs = [22, 23].map fun c => if s.m.on (F.HKC_RAW_VALID c) then some (signedOf 32 (s.m.get (F.HKC_VAL c))) else none) ∧
        (m.ramanOf p).frame.shots = 0 ∧ (m.ramanOf p).frame.sums = [] ∧ (m.ramanOf p).idle = (s.m.get F.DTS_IDLE != 0) ∧
        (m.ramanOf p).pos = some (s.m.nextPos p) ∧ m.pwr = w.pwr ∧ m.acq = w.acq ∧ m.clk = w.clk) ∧
    (r.idle = true → Completes (.ramanIdleEnd p) s fun m => let w := s.m.reachNs r.idleEnd
      (m.ramanOf p).idle = false ∧ m.get F.DTS_STATUS_IDLING = bit (s.m.ramanOf (otherPort p)).idle ∧
      m = { w with regs := { s.m.regs with act := m.regs.act }, dts := s.m.dts.put p { r with idle := false } } ∧ KeepsOutside [10] w m) ∧
    (r.idle = false → Completes (.ramanIdleEnd p) s fun m => m = s.m) ∧
    (r.closed = none → Completes (.dtsProfileComplete p) s fun m => m = s.m) ∧
    (∀ f, r.closed = some f →
      let mode := f.set.fld 0 1;
      let last := (r.consts.find? fun e => e.1 == f.fibre).map (·.2)
      let mK (t : Option Int) : Nat := match t with | some v => codeOf 32 v | none => 0x80000000
      -- The one record of a profile: `a` is the single or forward frame, `z` the frame whose boundary completes it, `d` the dark levels of `a`, `den` what the
      -- temperature of an output bin is divided by, none for an invalid bin.
      let profile (a z : RFrame) (dual : Bool) (d : Rat × Rat) (fit : Option Fit) (den : Nat → Option Rat) (m : Mach) : Prop :=
        let both (h : RFrame → Nat) : Nat := if dual then h a + h z else h a
        let prof := F.DTS_PROF_CNT_COUNT (portIx p)
        (∃ (x : Draft) (body : List Byte), m.recs = { s.m.recs with ready := s.m.recs.ready ++ [x] } ∧ x.bodies = [body] ∧ x.typ = 4 ∧ x.port = portIx p ∧
          x.epoch = a.epoch ∧ x.lsb = a.lsb ∧ x.first = a.set.fld 4 4 ∧ x.count = a.set.fld 8 4 ∧
          (let field (at' n : Nat) : Nat := leNat ((body.drop at').take n); let n := a.set.fld 8 4
          body.length = 64 + (if a.set.raw then 3 else 1) * 4 * n ∧ field 0 4 = 1 ∧ field 4 1 = a.fibre % 256 ∧ field 5 1 = a.set.fld 0 1 ∧
          field 6 2 = bit (a.stale || (dual && z.stale)) + 2 * bit (fit.any (·.stale)) + 4 * bit fit.isNone + 8 * bit (a.suspect || (dual && z.suspect)) +
            16 * bit dual + 32 * bit a.set.raw ∧
          field 8 4 = both (·.shots) % 2 ^ 32 ∧ field 12 4 = both (·.excl) % 2 ^ 32 ∧ field 16 4 = both (·.supp) % 2 ^ 32 ∧ field 20 4 = r.lost % 2 ^ 32 ∧
          field 24 8 = a.tStart.getD 0 % 2 ^ 64 ∧ field 32 8 = z.tEnd % 2 ^ 64 ∧
          field 40 4 = mK (fit.bind (·.t0)) ∧ field 44 4 = mK (fit.bind (·.t1)) ∧
          (∀ c, fit = some c → field 48 4 = codeOf 32 (clampInt (-(2 ^ 31)) (2 ^ 31 - 1) (roundRat (c.da / dalphaUnit))) ∧
            field 52 4 = codeOf 32 (clampInt (-(2 ^ 31)) (2 ^ 31 - 1) (roundRat (c.const * ((2 ^ 24 : Nat) : Rat))))) ∧
          field 56 4 = (clampInt 0 (2 ^ 32 - 1) (roundRat (d.1 * 256))).toNat ∧ field 60 4 = (clampInt 0 (2 ^ 32 - 1) (roundRat (d.2 * 256))).toNat ∧
          (∀ k, k < n → let t := signedOf 32 (field (64 + 4 * k) 4)
            let kelvin (y : Rat) : Rat := (((if dual then 2 else 1) * a.set.gamma : Nat) : Rat) / y
            (den (a.set.fld 4 4 + k) = none → t = -(2 ^ 31)) ∧
            (∀ y, den (a.set.fld 4 4 + k) = some y →
              (y ≤ 0 ∨ kelvin y < 173150 ∨ 873150 < kelvin y → t = -(2 ^ 31)) ∧
              (0 < y → 173150 ≤ kelvin y → kelvin y ≤ 873150 → (let off := signedOf 32 (a.set.fld 44 4)
                off.natAbs < 2 ^ 30 → (t - (roundRat (kelvin y) + off)).natAbs ≤ 1))))))  ∧
        ((m.ramanOf p).consts.find? fun e => e.1 == a.fibre).map (·.2) = fit.map (fun c => (keep40 c.const, keep40 c.da)) ∧
        (m.ramanOf p).closed = none ∧ (m.ramanOf p).fwd = (if dual then none else r.fwd) ∧ (m.ramanOf p).lost = 0 ∧ (m.ramanOf p).frame = r.frame ∧
        m.get prof = min (s.m.get prof + 1) prof.max ∧ m.get (F.DTS_LAST_FIBRE (portIx p)) = a.fibre % 2 ^ (F.DTS_LAST_FIBRE (portIx p)).width ∧
        m = { s.m with regs := { s.m.regs with act := m.regs.act }, dts := m.dts, recs := m.recs, free := m.free } ∧ KeepsOutside [10] s.m m
      let unpaired (m : Mach) : Prop :=
        m.get F.DTS_ABANDON_CNT_COUNT = min (s.m.get F.DTS_ABANDON_CNT_COUNT + 1) F.DTS_ABANDON_CNT_COUNT.max ∧
        m = { s.m with regs := { s.m.regs with act := m.regs.act }, dts := s.m.dts.put p { r with closed := none, fwd := none, lost := r.lost + 1 } } ∧
        Keeps [F.DTS_ABANDON_CNT_COUNT] s.m m
      -- R233 and R232: a reference is good with a temperature and half of its bins valid.
      let good (d : Rat × Rat) (k : Nat) (t : Int) (l : Rat) : Prop := k < f.set.fld 2 1 ∧ f.refTemp k = some t ∧ t ≠ 0 ∧
        ratioOf (f.set.refBins k) (f.valid d) = some l
      (mode = 0 ∨ 5 ≤ mode → Completes (.dtsProfileComplete p) s fun m => m = { s.m with dts := s.m.dts.put p { r with closed := none } }) ∧
      (mode = 1 ∨ mode = 2 → ∀ a b, f.dark 0 = some a → f.dark 1 = some b → let fit := fitSingle f mode (a, b) last
        Completes (.dtsProfileComplete p) s (profile f f false (a, b) fit fun j => fit.bind fun c =>
          (f.lnR (a, b) j).map fun l => c.const - c.da * f.set.z j - l) ∧
        (mode = 1 → ∀ t l, good (a, b) 0 t l → let da := ((signedOf 32 (f.set.fld 12 4) : Int) : Rat) * dalphaUnit
          fit = some ⟨l + gammaOver f.set t + da * f.set.zRef 0, da, false, some t, none⟩) ∧
        (mode = 2 → ∀ t0 l0 t1 l1, good (a, b) 0 t0 l0 → good (a, b) 1 t1 l1 → f.set.zRef 1 ≠ f.set.zRef 0 →
          let da := (l0 + gammaOver f.set t0 - (l1 + gammaOver f.set t1)) / (f.set.zRef 1 - f.set.zRef 0)
          fit = some ⟨l0 + gammaOver f.set t0 + da * f.set.zRef 0, da, false, some t0, some t1⟩)) ∧
      (mode = 3 → Completes (.dtsProfileComplete p) s fun m => m = { s.m with dts := s.m.dts.put p { r with closed := none, fwd := some f } }) ∧
      (mode = 4 → r.fwd = none → Completes (.dtsProfileComplete p) s unpaired) ∧
      (∀ g, mode = 4 → r.fwd = some g →
        (g.epoch ≠ f.epoch ∨ g.part ≠ f.part ∨ g.set.fld 1 1 ≠ f.fibre → Completes (.dtsProfileComplete p) s unpaired) ∧
        (g.epoch = f.epoch → g.part = f.part → g.set.fld 1 1 = f.fibre → ∀ a b a' b', g.dark 0 = some a → g.dark 1 = some b → f.dark 0 = some a' → f.dark 1 = some b' →
          let loop := g.set.fld 16 4; let fit := fitDual g f (a, b) (a', b') ((r.consts.find? fun e => e.1 == g.fibre).map (·.2))
          Completes (.dtsProfileComplete p) s (profile g f true (a, b) fit fun j => fit.bind fun c =>
            (dualD g f (a, b) (a', b') loop j).map fun d => c.const - d) ∧
          (∀ j x y, j ≤ loop → g.lnR (a, b) j = some x → f.lnR (a', b') (loop - j) = some y → dualD g f (a, b) (a', b') loop j = some (x + y)) ∧
          (∀ j, loop < j ∨ g.valid (a, b) j = none ∨ f.valid (a', b') (loop - j) = none → dualD g f (a, b) (a', b') loop j = none))))

/-- The rangers (R144 to R148, R186), with the clamp flags of R150. A step of one code counts as a step down like one to code 0 (Table 07-9). RANGER_BLOCK_EVAL brings time to
the end of its block (log entry 1); a command for a port that takes no blocks, for the idle Y ranger, or for a step up that is not due changes nothing (log entry 3). -/
def Obligations.Rangers : Prop :=
  ∀ (s : State) (p : Port) (y : Pol), s.m.fabricUp = true → let i := portIx p; let r := s.m.ranger p y
    let idle := s.m.blocksRun p = false ∨ (y = .Y ∧ s.m.wideband p = true)
    let w := s.m.reach ((s.m.blockPos p (r.blk + 1) + 1) / 2)
    let spans (m : Mach) : List GainSpan := match y with | .X => (m.acqOf p).log.gx | .Y => (m.acqOf p).log.gy
    let h := max (s.m.get (F.AFE_CFE_CTRL_H i)) 1; let clamp := F.AFE_CFE_CLAMP_CNT_BYTES i; let down := F.AFE_CFE_RANGE_CNT_DOWN i; let up := F.AFE_CFE_RANGE_CNT_UP i
    (∀ l : List Half, idle → Completes (.rangerBlockEval p y l) s fun m => m = s.m) ∧
    (∀ l : List Half, ¬ idle →
      let cl := clampBlock r l; let r1 : Ranger := { cl.2 with blk := r.blk + 1 }
      let sat := blockSaturated l = true ∨ cl.1.1.any id = true ∨ cl.1.2.any id = true
      -- what every block does: time passes, and each input whose samples carry a clamp flag is counted
      let shared (k : Ranger) (m : Mach) : Prop := m.ranger p y = k ∧ (∀ y', y' ≠ y → m.ranger p y' = s.m.ranger p y') ∧ (m.cfe.at p).since = (s.m.cfe.at p).since ∧
        (s.m.get clamp < 2 ^ 32 → ∀ j < 4, let byte (m : Mach) : Nat := m.get clamp / 2 ^ (8 * j) % 256
          byte m = if (y = .X ∧ (j = 0 ∧ cl.1.1.any id = true ∨ j = 1 ∧ cl.1.2.any id = true)) ∨ (y = .Y ∧ (j = 2 ∧ cl.1.1.any id = true ∨ j = 3 ∧ cl.1.2.any id = true))
            then min (byte s.m + 1) 255 else byte s.m) ∧
        m.cfe.at (otherPort p) = s.m.cfe.at (otherPort p) ∧ m = { w with regs := { s.m.regs with act := m.regs.act }, cfe := m.cfe, acq := m.acq }
      let keeps (k : Ranger) (g : Nat) (m : Mach) : Prop := shared k m ∧ m.get (gainFld p y) = g % 2 ^ (gainFld p y).width ∧ m.acq = w.acq ∧ Keeps [clamp, gainFld p y] w m
      let decides (k : Ranger) (g code : Nat) (m : Mach) : Prop := shared { k with low := 0, hold := 5, next := some code } m ∧ m.get (gainFld p y) = g % 2 ^ (gainFld p y).width ∧
        spans m = ⟨s.m.blockPos p (r.blk + 2), code, s.m.blockPos p (r.blk + 6)⟩ :: spans s.m ∧
        m.get down = min (s.m.get down + 1) down.max ∧ Keeps [clamp, gainFld p y, down] w m
      (s.m.on (F.AFE_CFE_CTRL_FIXED i) = true → Completes (.rangerBlockEval p y l) s (keeps r1 (s.m.get (gainFld p y)))) ∧
      (s.m.on (F.AFE_CFE_CTRL_FIXED i) = false →
        let g := (r.next.getD (s.m.get (gainFld p y))) % 2 ^ (gainFld p y).width; let k : Ranger := { r1 with next := none }
        (r.hold ≠ 0 → Completes (.rangerBlockEval p y l) s (keeps { k with hold := r.hold - 1 } g)) ∧
        (r.hold = 0 → s.m.blockDown p r.blk = true → Completes (.rangerBlockEval p y l) s (keeps k g)) ∧
        (r.hold = 0 → s.m.blockDown p r.blk = false →
          (sat → g ≠ 0 → Completes (.rangerBlockEval p y l) s (decides k g 0)) ∧
          (¬ sat → 1792 < blockPeak l → g ≠ 0 → Completes (.rangerBlockEval p y l) s (decides k g (g - 1))) ∧
          ((g = 0 ∨ ¬ sat) → blockPeak l < 768 → Completes (.rangerBlockEval p y l) s (keeps { k with low := min (r.low + 1) h } g)) ∧
          ((g = 0 ∨ ¬ sat ∧ blockPeak l ≤ 1792) → 768 ≤ blockPeak l → Completes (.rangerBlockEval p y l) s (keeps { k with low := 0 } g))))) ∧
    (let g := s.m.get (gainFld p y); let due := ¬ idle ∧ s.m.on (F.AFE_CFE_CTRL_FIXED i) = false ∧ r.hold = 0 ∧ g < 3 ∧ h ≤ r.low
      (due → Completes (.rangerStepUp p y) s fun m =>
        m.ranger p y = { r with low := 0, hold := 5, next := some (g + 1) } ∧
        spans m = ⟨s.m.blockPos p (r.blk - 1 + 2), g + 1, s.m.blockPos p (r.blk - 1 + 6)⟩ :: spans s.m ∧
        m.get up = min (s.m.get up + 1) up.max ∧ m.cfe.at (otherPort p) = s.m.cfe.at (otherPort p) ∧
        m = { s.m with regs := { s.m.regs with act := m.regs.act }, cfe := m.cfe, acq := m.acq } ∧ Keeps [up] s.m m) ∧
      (¬ due → Completes (.rangerStepUp p y) s fun m => m = s.m))

/-- Faults of the analogue inputs and of the bias outputs (R151, R152, R156, R161, R163). That a run of 64 SAT bins stands until RFE_FAULT reports it, and that an
output in MODE 0 has no limit, is log entry 66's; the ends bring device time to their instant (log entry 1), and what is not due changes nothing (log entry 3). -/
def Obligations.InputFaults : Prop :=
  ∀ s : State,
    (s.m.fabricUp = true →
      (∀ (p : Port) (i : Nat), s.m.blocksRun p = true → let f := F.AFE_CFE_STATUS_CM_FAULT (portIx p)
        let outs (x : Int) : Prop := x < 10 * s.m.get (F.AFE_CFE_CM_CM_LO (portIx p)) ∨ (10 * s.m.get (F.AFE_CFE_CM_CM_HI (portIx p)) : Int) < x
        (∀ avg0 avg1 : Int, i < (if s.m.wideband p then 2 else 4) → bitOf (s.m.get (F.AFE_CFE_CM_MON_EN (portIx p))) i = true → bitOf (s.m.get f) i = false →
          (outs avg0 → outs avg1 → s.m.get f < 16 → Completes (.cmFaultDeclare p ⟨i, avg0, avg1⟩) s fun m =>
            bitOf (m.get f) i = true ∧ (∀ j < 4, j ≠ i → bitOf (m.get f) j = bitOf (s.m.get f) j) ∧
            (m.acqOf p).log.cmf = ⟨i, s.m.blockPos p (blockOf (s.m.acqOf p).t0 (s.m.acqOf p).set.wide s.m.half - 2), none⟩ :: (s.m.acqOf p).log.cmf ∧
            ((s.m.cfe.at p).since.length = 4 → (m.cfe.at p).since[i]? = some s.m.now) ∧ Issues (6 + portIx p) 0 (evPort p) (evArg i 0 0) s.m m ∧
            Eventful [f, F.AFE_CFE_FAULT_CNT_BYTES (portIx p)] { s.m with acq := m.acq, cfe := m.cfe } m) ∧
          (¬ outs avg0 ∨ ¬ outs avg1 → Completes (.cmFaultDeclare p ⟨i, avg0, avg1⟩) s fun m => m = s.m)) ∧
        (∀ avg0 avg1 : Int, bitOf (s.m.get (F.AFE_CFE_CM_MON_EN (portIx p))) i = false ∨ bitOf (s.m.get f) i = true ∧ ¬ outs avg0 ∧ ¬ outs avg1 →
          Completes (.cmFaultDeclare p ⟨i, avg0, avg1⟩) s fun m => m = s.m) ∧
        (bitOf (s.m.get f) i = true → s.m.get f < 16 → Completes (.cmRecovery p i) s fun m => let w := s.m.reachNs ((s.m.cfe.at p).since.getD i 0 + 1000000)
          bitOf (m.get f) i = false ∧ (∀ j < 4, j ≠ i → bitOf (m.get f) j = bitOf (s.m.get f) j) ∧ Issues (6 + portIx p) 1 (evPort p) (evArg i 0 0) w m ∧
          Eventful [f] { w with acq := m.acq } m) ∧
        (bitOf (s.m.get f) i = false → Completes (.cmRecovery p i) s fun m => m = s.m)) ∧
      (∀ ch < 4, let p := ixPort (ch / 2); let r := s.m.ramanOf p
        (64 ≤ (if ch % 2 = 0 then r.satST else r.satAS) → Completes (.rfeFault ch) s fun m =>
          Issues (6 + portIx p) 2 (evPort p) (evArg ch 0 0) s.m m ∧
          Eventful [] { s.m with dts := s.m.dts.put p (if ch % 2 = 0 then { r with satST := 0 } else { r with satAS := 0 }) } m) ∧
        ((if ch % 2 = 0 then r.satST else r.satAS) < 64 → Completes (.rfeFault ch) s fun m => m = s.m)) ∧
      (∀ o < 4, s.m.on (F.AFE_APD_STATUS_LIMIT o) = false →
        (s.m.get (F.AFE_APD_CTRL_MODE o) ≠ 0 → Completes (.apdLimit o) s fun m =>
          m.get (F.AFE_APD_STATUS_LIMIT o) = 1 ∧ m.get (F.AFE_APD_STATUS_V_NOW o) = 0 ∧ Issues (6 + o / 2) 3 (o / 2 + 1) (evArg o 0 0) s.m m ∧
          Eventful [F.AFE_APD_STATUS_LIMIT o, F.AFE_APD_STATUS_V_NOW o] s.m m) ∧
        (s.m.get (F.AFE_APD_CTRL_MODE o) = 0 → Completes (.apdLimit o) s fun m => m = s.m)) ∧
      (∀ p : Port, let fs := [F.AFE_APD_STATUS_SETTLING (2 * portIx p), F.AFE_APD_STATUS_SETTLING (2 * portIx p + 1)]
        (s.m.biasSettling p = true → Completes (.apdSettleEnd p) s fun m => (∀ f ∈ fs, m.get f = 0) ∧ OnlyFields fs (s.m.reachNs (s.m.ramanOf p).biasEnd) m) ∧
        (s.m.biasSettling p = false → Completes (.apdSettleEnd p) s fun m => m = s.m))) ∧
    (∀ (who : Master) (o : Nat) (w : Word), o < 4 → MayAccess s.m who (F.AFE_APD_STATUS_LIMIT o).addr → bitOf w.toNat 17 = true →
      (s.m.on (F.AFE_APD_STATUS_LIMIT o) = true → Completes (.apdLimitClear who o w) s fun m =>
        m.get (F.AFE_APD_STATUS_LIMIT o) = 0 ∧ (m.ramanOf (apdPort o)).rstFor = (s.m.ramanOf (apdPort o)).rstFor ++ [o] ∧
        m = { s.m.done with regs := { s.m.regs with act := m.regs.act }, dts := m.dts } ∧ Keeps [F.AFE_APD_STATUS_LIMIT o] s.m m) ∧
      (s.m.on (F.AFE_APD_STATUS_LIMIT o) = false → Completes (.apdLimitClear who o w) s fun m => m = s.m.done))

/-- The housekeeping converter (R164, R166 to R170). A channel's calibration enters as log entry 71 has it, C of IEC 60751 is log entry 22's, scans count from the one
before (log entry 1), and a scan or a slot that finds nothing to do changes nothing (log entry 3); the first conversion after a wake is that of the die (R435). -/
def Obligations.Housekeeping : Prop :=
  ∀ s : State,
    (bankLe s.m.regs.act forceBase 2 ≠ 1 → ∀ c raw, s.m.hkcVal c raw = raw) ∧
    (s.m.fabricUp = true →
      (s.m.get F.HKC_HKC_CTRL_SCAN_LEN = 0 ∨ s.m.on F.HKC_STATUS_CAL = true ∨ s.m.hkc.first = true → Completes .hkcScanStart s fun m => m = s.m) ∧
      (∀ x, s.m.on F.HKC_STATUS_CAL = true ∨ s.m.hkc.first = true → Completes (.hkcSlot x) s fun m => m = s.m) ∧
      (s.m.get F.HKC_HKC_CTRL_SCAN_LEN ≠ 0 → s.m.on F.HKC_STATUS_CAL = false → s.m.hkc.first = false →
        let w := match s.m.hkc.scanAt with | some t => s.m.reachNs (t + s.m.get F.HKC_HKC_CTRL_SCAN_PERIOD * 1000) | none => s.m
        (s.m.hkc.pos = none → Completes .hkcScanStart s fun m =>
          m.get F.HKC_STATUS_SCANNING = 1 ∧ OnlyFields [F.HKC_STATUS_SCANNING] { w with hkc := { s.m.hkc with pos := some 0, scanAt := some w.now } } m) ∧
        (s.m.hkc.pos ≠ none → Completes .hkcScanStart s fun m =>
          m.get F.HKC_STATUS_OVERRUN_CNT = min (s.m.get F.HKC_STATUS_OVERRUN_CNT + 1) F.HKC_STATUS_OVERRUN_CNT.max ∧
          OnlyFields [F.HKC_STATUS_OVERRUN_CNT] { w with hkc := { s.m.hkc with due := true, scanAt := some w.now } } m)) ∧
      (∀ x : HkcConv, s.m.on F.HKC_STATUS_CAL = false → s.m.hkc.first = false →
        (∀ c rest, s.m.hkc.inj = c :: rest → c < 32 → s.m.get F.HKC_INJ_DONE_DONE < 2 ^ 32 → Completes (.hkcSlot x) s fun m =>
          m.get (F.HKC_VAL c) = codeOf 32 (s.m.hkcVal c x.val) ∧ m.get (F.HKC_RAW_VALID c) = 1 ∧ m.get (F.HKC_RAW_INJ c) = 1 ∧
          m.get (F.HKC_RAW_OVR c) = bit (x.code == 0 || x.code == 4095) ∧ bitOf (m.get F.HKC_INJ_DONE_DONE) c = true ∧
          m.hkc = { s.m.hkc with inj := rest, before := s.m.hkc.before - 1, calAt := m.hkc.calAt } ∧
          (s.m.on F.HKC_STATUS_CAL_WAIT = true → s.m.hkc.before ≤ 1 → m.hkc.calAt = s.m.now ∧ m.get F.HKC_STATUS_CAL = 1) ∧
          (s.m.on F.HKC_STATUS_CAL_WAIT = false → m.hkc.calAt = s.m.hkc.calAt) ∧
          m = { s.m with regs := { s.m.regs with act := m.regs.act }, hkc := m.hkc } ∧ KeepsOutside [7, 19] s.m m) ∧
        (∀ i, s.m.hkc.inj = [] → s.m.hkc.pos = some i →
          let next (m : Mach) : Prop := m.get (F.HKC_RAW_VALID (s.m.scanEntry i)) = 1 ∧ m.get (F.HKC_RAW_INJ (s.m.scanEntry i)) = 0 ∧
            (i + 1 < s.m.get F.HKC_HKC_CTRL_SCAN_LEN → m.hkc = { s.m.hkc with pos := some (i + 1) }) ∧
            (s.m.get F.HKC_HKC_CTRL_SCAN_LEN ≤ i + 1 → s.m.hkc.due = false → m.hkc = { s.m.hkc with pos := none } ∧ m.get F.HKC_STATUS_SCANNING = 0) ∧
            m = { s.m with regs := { s.m.regs with act := m.regs.act }, hkc := m.hkc } ∧ KeepsOutside [7, 19] s.m m
          (s.m.scanEntry i ≠ 22 → s.m.scanEntry i ≠ 23 → Completes (.hkcSlot x) s fun m =>
            m.get (F.HKC_VAL (s.m.scanEntry i)) = codeOf 32 (s.m.hkcVal (s.m.scanEntry i) x.val) ∧ next m) ∧
          (∀ n < 2, ∀ t, s.m.scanEntry i = 22 + n → s.m.rtdEnabled n = true → s.m.on (F.HKC_RAW_BREAK (22 + n)) = false → x.broke = false → s.m.rtdTemp n x = some t →
            Completes (.hkcSlot x) s fun m => m.get (F.HKC_VAL (22 + n)) = codeOf 32 t ∧ next m) ∧
          (∀ n < 2, s.m.scanEntry i = 22 + n → s.m.rtdEnabled n = true → x.broke = true → Completes (.hkcSlot x) s fun m =>
            m.get (F.HKC_RAW_BREAK (22 + n)) = 1 ∧ m.get (F.HKC_RAW_VALID (22 + n)) = 0 ∧ m.get (F.HKC_VAL (22 + n)) = s.m.get (F.HKC_VAL (22 + n)) ∧
            (s.m.on (F.HKC_RAW_BREAK (22 + n)) = false → bitOf (m.get F.EVT_PEND) (6 + n) = true))))) ∧
    (∀ (who : Master) (w : Word), MayAccess s.m who F.HKC_INJ_REQ_CH.addr → let c := w.toNat % 32
      (c ≠ 22 → c ≠ 23 → s.m.hkc.inj.length < 4 → Completes (.injReq who w) s fun m =>
        m.hkc = { s.m.hkc with inj := s.m.hkc.inj ++ [c] } ∧ m.get F.HKC_INJ_STATUS_LEVEL = s.m.hkc.inj.length + 1 ∧
        OnlyFields [F.HKC_INJ_STATUS_LEVEL] { s.m.done with hkc := m.hkc } m) ∧
      ((c = 22 ∨ c = 23) → Completes (.injReq who w) s fun m =>
        m.get F.HKC_INJ_STATUS_REJ = 1 ∧ m.hkc = s.m.hkc ∧ OnlyFields [F.HKC_INJ_STATUS_REJ, F.HKC_INJ_STATUS_OVF] s.m.done m) ∧
      (4 ≤ s.m.hkc.inj.length → Completes (.injReq who w) s fun m =>
        m.get F.HKC_INJ_STATUS_OVF = 1 ∧ m.hkc = s.m.hkc ∧ OnlyFields [F.HKC_INJ_STATUS_REJ, F.HKC_INJ_STATUS_OVF] s.m.done m))

/-- Lending and background measurement (R122, R181, R183, R410 to R412). The commands that wait for the gap, the end of a lending and the end of a Raman measurement bring
device time there (log entry 1); the clauses in which nothing changes are log entry 3's. -/
def Obligations.Lending : Prop :=
  ∀ s : State, s.m.fabricUp = true →
    -- R411: B ← B + round(e / 2^BG_SH), limited to ±256, for the kinds that were measured of slice `n` (0 OFS, 1 GAIN, 2 SKEW).
    let updated (n : Nat) (xs : List Int) (m : Mach) : Prop :=
      let active (k : Nat) : Int := (coef16 (0x40 + 8 * n + 2 * k) 1 0).read s.m.regs.act forceBase
      m.get F.CAL_BG_LAST_SLICE = n % 2 ^ F.CAL_BG_LAST_SLICE.width ∧ m.get F.CAL_BG_LAST_OFS = codeOf 16 (xs.headD 0) ∧
      m.get F.CAL_BG_CNT_COUNT = min (s.m.get F.CAL_BG_CNT_COUNT + 1) F.CAL_BG_CNT_COUNT.max ∧
      (∀ k x, xs[k]? = some x → mapGet 0 m.cal.bg (3 * n + k) =
        clampInt (-256) 256 (mapGet 0 s.m.cal.bg (3 * n + k) + roundAway (x - active k) (2 ^ s.m.get F.CAL_CTRL_BG_SH))) ∧
      (∀ k, k / 3 ≠ n ∨ xs.length ≤ k % 3 → mapGet 0 m.cal.bg k = mapGet 0 s.m.cal.bg k)
    (∀ p : Port, let a := s.m.acqOf p; let rot := match p with | .A => F.ADC_ROT_ROT_A | .B => F.ADC_ROT_ROT_B
      (s.m.blocksRun p = false ∨ a.lent = true → Completes (.gapLendingStart p) s fun m => m = s.m) ∧
      (s.m.blocksRun p = true → a.lent = false → Completes (.gapLendingStart p) s fun m =>
        let busy := s.m.on F.CAL_STATUS_DAC_BUSY; let r := a.gaps % 17
        ∃ x : LendSpan, x.sub = (if busy then 31 else r) ∧ 2 * a.gapEdge ≤ x.from_ ∧ x.from_ < 2 * a.gapEdge + 32 ∧
          (2 * a.t0 ≤ 2 * a.nextEdge → x.to_ ≤ 2 * a.nextEdge ∧ 2 * a.nextEdge < x.to_ + 32) ∧
          (∀ g < 4, x.groups[g]? = some (!busy && decide (r < 16) && s.m.spareFree (4 * portIx p + g))) ∧
          m.get rot = r ∧ a.gapEdge ≤ m.count ∧
          OnlyFields [rot, F.SYS_PWR_STATE_PSTATE] { s.m.reach a.gapEdge with acq := s.m.acq.put p { a with lent := true, lending := !busy, log := { a.log with gaps := x :: a.log.gaps } } } m) ∧
      (∀ x rest, a.lending = true → a.log.gaps = x :: rest → Completes (.lendingEnd p) s fun m =>
        OnlyFields [F.SYS_PWR_STATE_PSTATE] { s.m.reach (x.to_ / 2) with acq := s.m.acq.put p { a with lending := false } } m) ∧
      (a.lending = false → Completes (.lendingEnd p) s fun m => m = s.m)) ∧
    (∀ (n : Nat) (x : SliceMeas) (stuck : Bool), let c := measCause x.ofs x.gain x.skew stuck
      (s.m.measuring n = false → Completes (.backgroundMeasurement n x stuck) s fun m => m = s.m) ∧
      (s.m.measuring n = true → c = 0 →
        (s.m.on F.CAL_CTRL_BG_EN = false → Completes (.backgroundMeasurement n x stuck) s fun m => m = s.m) ∧
        (s.m.on F.CAL_CTRL_BG_EN = true → Completes (.backgroundMeasurement n x stuck) s fun m =>
          updated n [x.ofs, x.gain, x.skew] m ∧
          m = { s.m with regs := { s.m.regs with act := m.regs.act, ret := m.regs.act }, cal := { s.m.cal with bg := m.cal.bg } } ∧
          Keeps [F.CAL_BG_CNT_COUNT, F.CAL_BG_LAST_SLICE, F.CAL_BG_LAST_OFS] s.m m)) ∧
      (s.m.measuring n = true → c ≠ 0 → s.m.sliceRetired n = false → (∀ f ∈ s.m.adc.pend, f.slice ≠ n) → Completes (.backgroundMeasurement n x stuck) s fun m =>
        m.get F.ADC_LAST_FAIL_SLICE = n ∧ m.get F.ADC_LAST_FAIL_CAUSE = c ∧ (s.m.on F.CAL_CTRL_BG_EN = true → updated n [x.ofs, x.gain, x.skew] m) ∧
        (s.m.on F.CAL_CTRL_BG_EN = false → m.cal = s.m.cal))) ∧
    (∀ (ofs gain : Int) (stuck : Bool),
      (s.m.on F.CAL_CTRL_RBG_EN = false ∨ s.m.on F.CAL_STATUS_DAC_BUSY = true ∨ s.m.shotGap = none → Completes (.ramanBackgroundMeasure ofs gain stuck) s fun m => m = s.m) ∧
      (∀ e n, s.m.shotGap = some (e, n) → n < 1200 ∨ s.m.adc.rdone = s.m.shotAt → Completes (.ramanBackgroundMeasure ofs gain stuck) s fun m => m = s.m) ∧
      (∀ e n, s.m.on F.CAL_CTRL_RBG_EN = true → s.m.on F.CAL_STATUS_DAC_BUSY = false → s.m.shotGap = some (e, n) → 1200 ≤ n → s.m.adc.rdone ≠ s.m.shotAt →
        Completes (.ramanBackgroundMeasure ofs gain stuck) s fun m =>
        let w := s.m.reach (e + 1024); let n' := s.m.adc.rturn; let c := measCause ofs gain 0 stuck
        let moved := { s.m.adc with rturn := if n' = 145 then 136 else n' + 1, rdone := s.m.shotAt }
        m.adc.rturn = moved.rturn ∧ m.adc.rdone = moved.rdone ∧
        (s.m.sliceRetired n' = true → m = { w with adc := moved }) ∧
        (s.m.sliceRetired n' = false → updated n' [ofs, gain] m ∧
          (c = 0 → m = { w with regs := { s.m.regs with act := m.regs.act, ret := m.regs.act }, cal := { s.m.cal with bg := m.cal.bg }, adc := moved } ∧
            Keeps [F.CAL_BG_CNT_COUNT, F.CAL_BG_LAST_SLICE, F.CAL_BG_LAST_OFS] w m) ∧
          (c ≠ 0 → (∀ f ∈ s.m.adc.pend, f.slice ≠ n') → 136 ≤ n' → n' < 146 → m.get F.ADC_LAST_FAIL_SLICE = n' ∧ m.get F.ADC_LAST_FAIL_CAUSE = c))))

/-- CONVERSION_WATCHDOG and SLICE_RETIRE (R183 to R185). A slice that has failed or is retired, or that is off, changes nothing when it is found idle (log entry 3).
-/
def Obligations.SliceFailures : Prop :=
  ∀ (s : State) (n : Nat), n < 146 →
    let fresh := s.m.sliceRetired n = false ∧ ∀ f ∈ s.m.adc.pend, f.slice ≠ n
    let lone := n < 136 → s.m.sparePos (n / 17) = 31 ∧ (n % 17 = 16 ∨ s.m.spareFree (n / 17) = true) ∧ ∀ f ∈ s.m.adc.pend, f.slice / 17 ≠ n / 17
    let failed (c : Nat) (m : Mach) : Prop := m.get F.ADC_LAST_FAIL_SLICE = n ∧ m.get F.ADC_LAST_FAIL_CAUSE = c ∧
      m.get F.ADC_FAIL_CNT_COUNT = min (s.m.get F.ADC_FAIL_CNT_COUNT + 1) F.ADC_FAIL_CNT_COUNT.max
    let fields := [F.ADC_LAST_FAIL_SLICE, F.ADC_LAST_FAIL_CAUSE, F.ADC_FAIL_CNT_COUNT]
    (s.m.fabricUp = true →
      (¬ fresh ∨ s.m.sliceOff n = true → Completes (.conversionWatchdog n) s fun m => m = s.m) ∧
      (fresh → s.m.sliceOff n = false → s.m.on F.ADC_SPARE_POLICY_AUTO = false → Completes (.conversionWatchdog n) s fun m =>
        failed 5 m ∧ Issues 8 0 0 (evArg n 5 0) s.m m ∧ Eventful fields { s.m with acq := m.acq } m) ∧
      (fresh → s.m.sliceOff n = false → s.m.on F.ADC_SPARE_POLICY_AUTO = true → lone → Completes (.conversionWatchdog n) s fun m =>
        failed 5 m ∧ m.adc = { s.m.adc with pend := s.m.adc.pend ++ [⟨n, 5⟩] } ∧
        m = { s.m with regs := { s.m.regs with act := m.regs.act }, adc := m.adc, acq := m.acq, dts := m.dts } ∧ Keeps fields s.m m)) ∧
    (∀ (who : Master) (w : Word), MayAccess s.m who F.ADC_SPARE_CTRL_KEY.addr → w.toNat % 256 = n →
      (bitsOf w.toNat 31 16 = 0x5AFE → bitOf w.toNat 8 = true → fresh → lone → Completes (.sliceRetire who w) s fun m =>
        failed 6 m ∧ m.adc = { s.m.adc with pend := s.m.adc.pend ++ [⟨n, 6⟩] } ∧
        m = { s.m.done with regs := { s.m.regs with act := m.regs.act }, adc := m.adc, acq := m.acq, dts := m.dts } ∧ Keeps fields s.m m) ∧
      (bitsOf w.toNat 31 16 ≠ 0x5AFE ∨ ¬ fresh → Completes (.sliceRetire who w) s fun m => m = s.m.done))

/-- Raw windows (R188 to R190, R344, R388). RAW_WINDOW_DONE brings time to the end of the window's last block (log entry 1), forms a record of every beat from the raw area, a
GAP record of a beat with a lost burst, and writes them to the journal before DONE is set; before the window's launches have all been made, or with other data than its
blocks', it changes nothing (log entry 3). -/
def Obligations.RawWindows : Prop :=
  ∀ s : State,
    (∀ (who : Master) (w : Word), MayAccess s.m who F.ADC_RAW_CTRL_GO.addr → bitOf w.toNat 0 = true →
      let p := ixPort (bitsOf w.toNat 1 1); let beats := bitsOf w.toNat 15 8; let blocks := s.m.get F.ADC_RAW_LEN_BLOCKS
      let r := s.m.rawRefusal p (s.m.get F.ADC_RAW_START_START) blocks beats
      let win : RawWin := { port := p, start := s.m.get F.ADC_RAW_START_START, blocks := blocks, beats := beats + 1, from_ := s.m.now + 10000 }
      (r ≠ 0 → Completes (.rawWindowGo who w) s fun m =>
        m.get F.ADC_RAW_STATUS_REJ = 1 ∧ m.get F.ADC_RAW_STATUS_REJ_CODE = r ∧
        OnlyFields [F.ADC_RAW_CTRL_BEATS, F.ADC_RAW_CTRL_PORT, F.ADC_RAW_STATUS_REJ, F.ADC_RAW_STATUS_REJ_CODE] s.m.done m) ∧
      (r = 0 → Completes (.rawWindowGo who w) s fun m =>
        m.get F.ADC_RAW_STATUS_BUSY = 1 ∧ m.get F.ADC_RAW_STATUS_CUT = 0 ∧ m.get F.ADC_RAW_STATUS_BEATS_DONE = 0 ∧
        OnlyFields [F.ADC_RAW_CTRL_BEATS, F.ADC_RAW_CTRL_PORT, F.ADC_RAW_STATUS_BUSY, F.ADC_RAW_STATUS_CUT, F.ADC_RAW_STATUS_BEATS_DONE]
          { s.m.done with adc := { s.m.adc with raw := some win } } m)) ∧
    (s.m.fabricUp = true → ∀ data : List (List RawEntry),
      (s.m.adc.raw = none → Completes (.rawWindowDone data) s fun m => m = s.m) ∧
      (∀ w, s.m.adc.raw = some w →
        (s.m.rawMade w = false ∨ data.length ≠ w.taken.length ∨ (∃ x ∈ w.taken.zip data, rawFits w x.1 x.2 = false) →
          Completes (.rawWindowDone data) s fun m => m = s.m) ∧
        (s.m.rawMade w = true → data.length = w.taken.length → (∀ x ∈ w.taken.zip data, rawFits w x.1 x.2 = true) →
          let r := s.m.rawTaken w; let taken := (r.adc.raw.map (·.taken)).getD []; let f := r.rawForm w.port taken data
          taken.length = w.taken.length ∧ (w.ended = true → r = s.m) ∧ (∀ b ∈ w.taken.getLast?, w.ended = false → (s.m.acqOf w.port).acqNo = b.acq →
            (s.m.acqOf w.port).beat = b.beat → blockAt b.t0 b.wide (b.block + w.blocks) ≤ 2 * r.count) ∧
          (∃ lost : List Bool, lost.length = data.length ∧ (MemorySound s.m → ∀ x ∈ lost, x = false) ∧
            f.recs.ready = r.recs.ready ++ ((taken.zip data).zip lost).map fun y => let b := y.1.1
              { typ := 8, port := portIx w.port, flags := bit b.part + (if y.2 then 0 else b.flags), epoch := b.epoch, beat := b.beat, lsb := if y.2 then r.lsbNow else b.lsb, gap := y.2,
                bodies := [if y.2 then gapPayload 4 0 1 0 b.beat 0 b.beat (b.ticks - 1) 0 0 else rawPayload (r.acqOf w.port).log w.port b y.1.2] }) ∧
          OnlyRecords r f ∧
          Completes (.rawWindowDone data) s fun m => m.recs = f.flush.recs ∧ m.adc = { f.flush.adc with raw := none } ∧
            m.get F.ADC_RAW_STATUS_BEATS_DONE = w.taken.length % 2 ^ F.ADC_RAW_STATUS_BEATS_DONE.width ∧
            m.get F.ADC_RAW_STATUS_BUSY = 0 ∧ m.get F.ADC_RAW_STATUS_DONE = 1 ∧ OnlyRecords r { m with regs := { m.regs with act := r.regs.act }, adc := r.adc } ∧
            KeepsOutside [0, 2, 8, 15, 16, 17] r m)))

/-- PIPE_TICK_EMIT, and what the stages compute for the tick (R193 to R214): the samples of a cell's two supports become compressed words within 2^-18 of full scale of the
exact correlation (`Launch.correlate` over stages 1 to 3, R193 to R200), their product a phase within one unit and a magnitude (`Mach.gauge`, `phaseOf`, `logMag`: R203,
R204), unless a mark, the blank limit, a dark launch or an end of the range makes the cell invalid (`PipeSet.marks`, R201, R202, R203); the cell's stage 8 takes it
(`Cell.take`, R205 to R208) and the tick FILL_MAX before leaves as a value word and a quality byte of its tile (`HeldTick.words`, R209 to R214). That a cell comes with its
samples in one command is the model's choice (log entries 1 and 13); that one out of turn changes nothing is log entry 3's. -/
def Obligations.PipeTicks : Prop :=
  ∀ (s : State) (p : Port) (cell : Nat) (lo hi : List PipeSample) (ecc : Bool), s.m.fabricUp = true → let a := s.m.acqOf p
    let next := a.launches.find? fun l => decide (l.formed < l.set.range)
    -- the drain of a warm reset ends with the last tick, or 5 ms after its request
    let goesOn := s.m.pwr.drain = none ∨ s.m.running .A = true ∨ s.m.running .B = true
    (¬ goesOn → s.m.pwr.holds = [] → Completes (.pipeTickEmit p cell lo hi ecc) s fun m =>
      CoreReset 2 m ∨ (m.pwr = s.m.pwr ∧ (m.forming .A = true ∨ m.forming .B = true) ∧ ∀ t, s.m.pwr.drain = some t → m.now < t + 5000000)) ∧
    (goesOn → next = none → Completes (.pipeTickEmit p cell lo hi ecc) s fun m => m = s.m) ∧
    (∀ l, goesOn → next = some l → let u := l.set; let noLo := cell < (u.g + 1) / 2; let noHi := u.range ≤ cell + u.g / 2
      (cell ≠ l.formed → Completes (.pipeTickEmit p cell lo hi ecc) s fun m => m = s.m) ∧
      (cell = l.formed → (lo.length = (if noLo then 0 else u.support l.k + 24) ∧ hi.length = (if noHi then 0 else u.support l.k + 24)) →
        let w := s.m.reach (l.taken cell); let f := (w.formCell p l cell lo hi).1
        let sl := (w.acqOf p).log.samples p l (cell - (u.g + 1) / 2) lo; let sh := (w.acqOf p).log.samples p l (cell + u.g / 2) hi
        let ml := u.marks l.k sl; let mh := u.marks l.k sh
        let c0 := a.cell l.gen cell; let c := (if ecc then ({ held := c0.held, out := c0.out } : Cell) else c0).take u l f
        ((l.dark = true ∨ noLo ∨ noHi) → f = .invalid false (ml.blank || mh.blank)) ∧
        (l.dark = false → ¬ noLo → ¬ noHi →
          (ml.fault = true ∨ mh.fault = true → f = .invalid true (ml.blank || mh.blank)) ∧
          (ml.fault = false → mh.fault = false → ml.overs = true ∨ mh.overs = true → f = .invalid false (ml.blank || mh.blank)) ∧
          (ml.fault = false → mh.fault = false → ml.overs = false → mh.overs = false →
            let z := (w.gauge p l (cell - (u.g + 1) / 2) (cell + u.g / 2) sl sh).1
            (z = (0, 0) → f = .invalid false (ml.blank || mh.blank)) ∧
            (z ≠ (0, 0) → ∃ e ∈ ([-1, 0, 1] : List Int), f = .valid (codeOf 16 ((phaseOf z : Int) + e)) (logMag z) (ml.blank || mh.blank)))) ∧
        Completes (.pipeTickEmit p cell lo hi ecc) s fun m =>
          (cell + 1 < u.range → ∃ l' ∈ (m.acqOf p).launches, l' = { l with formed := cell + 1 }) ∧
          (cell + 1 < u.range → c.held.length ≤ u.fill → (m.acqOf p).cell l.gen cell = c) ∧
          (cell + 1 < u.range → c.held.length = u.fill + 1 → ∀ h ∈ c.held.head?,
            (m.acqOf p).cell l.gen cell = { c with held := c.held.tail, out := h.phi } ∧
            (∀ l1 ∈ a.launches.find? (fun x => x.acq == h.acq && x.m == h.m), ∀ r ∈ a.rowOf l1, (∀ x ∈ a.rows, x.closed = false) → cell < l1.set.range →
              ∃ o ∈ (m.acqOf p).tiles, o.restart = l1.restart ∧ o.trow = l1.trow ∧ o.tcol = cell / 512 ∧
                mapGet 0x8000 o.vals (512 * (h.m - r.m0) + cell % 512) = codeOf 16 (h.words l1.set c.out).1 ∧
                mapGet 0xC0 o.quals (512 * (h.m - r.m0) + cell % 512) = (h.words l1.set c.out).2)) ∧
          m.acqOf (otherPort p) = s.m.acqOf (otherPort p) ∧ m.clk = w.clk ∧ m.pwr = s.m.pwr ∧ m.net = s.m.net ∧ m.mcs = s.m.mcs ∧ m.evt = s.m.evt)) ∧
    (∀ (k : Nat) (x : Rat), 32 - 2 ^ 23 ≤ x → x ≤ 2 ^ 23 - 33 → x - 32 ≤ compWord k x ∧ compWord k x ≤ x + 32) ∧
    (∀ h, Config.decFilter = some h → ∀ (l : Launch) (sl : List Sample) (pol : Nat), let z := l.correlate h p cell sl pol
      (s.m.compressed p l cell sl pol).1 = (compWord s.m.free z.1, compWord (s.m.free + 1) z.2) ∧ ∀ r, 0 < r → DecimationMeets (h.tap r) r)

/-- The MAC operations (Table 11-4, R248, R255), each issued alone in its bundle (log entry 20). -/
def Obligations.JewelMac : Prop :=
  ∀ (s : State) (e : Nat) (o : MacOps), s.m.fabricUp = true → e < 64 → (s.m.jewel e).openB = none → (s.m.jewel e).rdreg = none →
    let j := s.m.jewel e; let lL := j.accAt o.acc 0; let lH := j.accAt o.acc 1
    let aL := lo16 (j.rd o.a); let aH := hi16 (j.rd o.a); let bL := lo16 (j.rd o.b); let bH := hi16 (j.rd o.b)
    ∀ (c : Instr) (l h : Int), (c, l, h) ∈ ([(.mac2 e o false, lL + aL * bL, lH + aH * bH), (.msu2 e o false, lL - aL * bL, lH - aH * bH), (.mpy2 e o false, aL * bL, aH * bH),
       (.dot2 e o false, lL + aL * bL + aH * bH, lH), (.cmac e o false, lL + aL * bL - aH * bH, lH + aL * bH + aH * bL),
       (.cmacj e o false, lL + aL * bL + aH * bH, lH + aH * bL - aL * bH), (.cmpy e o false, aL * bL - aH * bH, aL * bH + aH * bL),
       (.cmpyj e o false, aL * bL + aH * bH, aH * bL - aL * bH)] : List (Instr × Int × Int)) →
      Completes c s fun m => ∃ acc, OnlyJewel e ({ j.idle with acc := acc, ovf := j.ovf || (lane40 o.sat l).2 || (lane40 o.sat h).2, openB := none }).advancePc s.m m ∧
        mapGet 0 acc (2 * o.acc) = (lane40 o.sat l).1 ∧ mapGet 0 acc (2 * o.acc + 1) = (lane40 o.sat h).1 ∧
        ∀ n, n ≠ 2 * o.acc → n ≠ 2 * o.acc + 1 → mapGet 0 acc n = mapGet 0 j.acc n

/-- The ALU operations on d registers (Table 11-5, R249, R251, R255), each issued alone in its bundle; and every slot operation: with a further slot to follow it joins the
engine's open bundle; without one that bundle issues, all its slots together, each on the registers as they stood before it, or traps (that the slots of a bundle come one
command at a time is the model's choice, log entry 20). While an RDREG waits nothing issues (R257); that the command is then dropped is log entry 3's. -/
def Obligations.JewelAlu : Prop :=
  ∀ (s : State) (e : Nat) (o : AluOps), s.m.fabricUp = true → e < 64 →
    let j := s.m.jewel e; let a := j.rd o.a; let b := j.rd o.b
    let both (f : Int → Int → Int) : Word := pack16 (f (lo16 a) (lo16 b)) (f (hi16 a) (hi16 b))
    (j.openB = none → j.rdreg = none → ∀ (c : Instr) (v : Word), (c, v) ∈ ([
        (.add2 e o false, both fun x y => x + y), (.adds2 e o false, both fun x y => sat16 (x + y)), (.sub2 e o false, both fun x y => x - y),
        (.subs2 e o false, both fun x y => sat16 (x - y)), (.and e o false, a &&& b), (.or e o false, a ||| b), (.xor e o false, a ^^^ b),
        (.max2 e o false, both max), (.min2 e o false, both min), (.abs2 e o.dst o.a false, pack16 (sat16 (lo16 a).natAbs) (sat16 (hi16 a).natAbs)),
        (.cmpeq2 e o false, both fun x y => if x = y then -1 else 0), (.pack e o false, pack16 (lo16 a) (lo16 b)), (.mov e o.dst o.a false, a),
        (.qz2 e o false false, pack16 (if bitOf b.toNat 7 then 0 else lo16 a) (if bitOf b.toNat 15 then 0 else hi16 a)),
        (.qz2 e o true false, pack16 (if bitOf b.toNat 23 then 0 else lo16 a) (if bitOf b.toNat 31 then 0 else hi16 a))] : List (Instr × Word)) →
      Completes c s fun m => OnlyJewel e ({ j.idle with d := mapPut 0 j.idle.d (physReg j.rb o.dst) v, openB := none }).advancePc s.m m) ∧
    (j.openB = none → j.rdreg = none → ∀ (c : Instr) (v : Word) (k : Nat), (c, v) ∈ ([
        (.shl2 e o.dst o.a (k % 16) false, pack16 (sat16 (lo16 a * 2 ^ (k % 16))) (sat16 (hi16 a * 2 ^ (k % 16)))),
        (.asr2 e o.dst o.a (k % 16) false, pack16 (lo16 a / 2 ^ (k % 16)) (hi16 a / 2 ^ (k % 16))),
        (.lsr e o.dst o.a (k % 32) false, a >>> (k % 32)),
        (.byte e o.dst o.a (k % 4) false, BitVec.ofNat 32 (a.toNat / 2 ^ (8 * (k % 4)) % 256)),
        (.dnrm e o.dst o.a (k % 256 - 128 : Int) false, dnrm a (k % 256 - 128 : Int)),
        (.movs e o.dst (k % 19) false false, BitVec.ofNat 32 (j.special (k % 19)))] : List (Instr × Word)) →
      Completes c s fun m => OnlyJewel e ({ j.idle with d := mapPut 0 j.idle.d (physReg j.rb o.dst) v, openB := none }).advancePc s.m m) ∧
    (j.openB = none → j.rdreg = none → ∀ k < 19, Completes (.movs e k o.a true false) s fun m =>
      OnlyJewel e ({ j.idle.putSpecial k a.toNat with openB := none }).advancePc s.m m) ∧
    (∀ x : MacOps, x.acc < 8 → j.openB = some (setMac 1 x nopBundle) → j.rdreg = none → Completes (.add2 e o false) s fun m => ∃ acc,
      let l := j.accAt x.acc 0 + lo16 (j.rd x.a) * lo16 (j.rd x.b); let h := j.accAt x.acc 1 + hi16 (j.rd x.a) * hi16 (j.rd x.b)
      OnlyJewel e ({ j.idle with acc := acc, ovf := j.ovf || (lane40 x.sat l).2 || (lane40 x.sat h).2, openB := none
                                 d := mapPut 0 j.idle.d (physReg j.rb o.dst) (both fun u v => u + v) }).advancePc s.m m ∧
      mapGet 0 acc (2 * x.acc) = (lane40 x.sat l).1 ∧ mapGet 0 acc (2 * x.acc + 1) = (lane40 x.sat h).1 ∧
      ∀ n, n ≠ 2 * x.acc → n ≠ 2 * x.acc + 1 → mapGet 0 acc n = mapGet 0 j.acc n) ∧
    (∀ (more : Bool) (k : Nat) (x : MacOps) (y : MemOps) (ac : AccLane) (c : Instr) (f : Bundle → Bundle), (c, f) ∈ ([
        (.nop e more, fun b => b), (.rot e more, setRot), (.mac2 e x more, setMac 1 x), (.msu2 e x more, setMac 2 x), (.mpy2 e x more, setMac 3 x),
        (.dot2 e x more, setMac 4 x), (.cmac e x more, setMac 5 x), (.cmacj e x more, setMac 6 x), (.cmpy e x more, setMac 7 x), (.cmpyj e x more, setMac 8 x),
        (.add2 e o more, setAlu ⟨0x01, o.dst, o.a, o.b, 0⟩), (.adds2 e o more, setAlu ⟨0x02, o.dst, o.a, o.b, 0⟩), (.sub2 e o more, setAlu ⟨0x03, o.dst, o.a, o.b, 0⟩),
        (.subs2 e o more, setAlu ⟨0x04, o.dst, o.a, o.b, 0⟩), (.and e o more, setAlu ⟨0x05, o.dst, o.a, o.b, 0⟩), (.or e o more, setAlu ⟨0x06, o.dst, o.a, o.b, 0⟩),
        (.xor e o more, setAlu ⟨0x07, o.dst, o.a, o.b, 0⟩), (.shl2 e o.dst o.a k more, setAlu (immSlot 0x08 o.dst o.a k)), (.asr2 e o.dst o.a k more, setAlu (immSlot 0x09 o.dst o.a k)),
        (.lsr e o.dst o.a k more, setAlu (immSlot 0x0A o.dst o.a k)), (.max2 e o more, setAlu ⟨0x0B, o.dst, o.a, o.b, 0⟩), (.min2 e o more, setAlu ⟨0x0C, o.dst, o.a, o.b, 0⟩),
        (.abs2 e o.dst o.a more, setAlu ⟨0x0D, o.dst, o.a, 0, 0⟩), (.cmpeq2 e o more, setAlu ⟨0x0E, o.dst, o.a, o.b, 0⟩), (.qz2 e o false more, setAlu ⟨0x0F, o.dst, o.a, o.b, 0⟩),
        (.qz2 e o true more, setAlu ⟨0x0F, o.dst, o.a, o.b, 1⟩), (.byte e o.dst o.a k more, setAlu ⟨0x10, o.dst, o.a, 0, k⟩), (.pack e o more, setAlu ⟨0x11, o.dst, o.a, o.b, 0⟩),
        (.mov e o.dst o.a more, setAlu ⟨0x12, o.dst, o.a, 0, 0⟩), (.movs e o.dst o.a false more, setAlu ⟨0x13, o.dst, o.a, 0, 0⟩),
        (.movs e o.dst o.a true more, setAlu ⟨0x13, o.dst, o.a, 0, 1⟩), (.extr2 e o.dst o.a k more, setAlu (immSlot 0x14 o.dst o.a k)),
        (.extr e o.dst ac k more, setAlu (immSlot 0x15 o.dst (accCode ac) k)), (.exp e o.dst ac more, setAlu ⟨0x16, o.dst, accCode ac, 0, 0⟩),
        (.norm e o.dst ac more, setAlu ⟨0x17, o.dst, accCode ac, 0, 0⟩), (.dnrm e o.dst o.a k more, setAlu (immSlot 0x18 o.dst o.a (codeOf 8 k))),
        (.clra e k more, setAlu ⟨0x19, k, 0, 0, 0⟩), (.fold e k more, setAlu ⟨0x1A, k, 0, 0, 0⟩), (.ld32 e y more, setMem 1 y), (.st32 e y more, setMem 2 y),
        (.ld16 e y more, setMem 3 y), (.st16 e y more, setMem 4 y)] : List (Instr × (Bundle → Bundle))) → let b := f j.open; let r := j.issue b
      (j.rdreg = none → more = true → Completes c s fun m => OnlyJewel e { j with openB := some b } s.m m) ∧
      (j.rdreg = none → more = false → r.2 = .goOn → Completes c s fun m => OnlyJewel e ({ r.1 with openB := none }).advancePc s.m m) ∧
      (∀ t code soft, j.rdreg = none → more = false → r.2 = .trapped code soft → j.run = some t → Completes c s fun m => Traps e t code soft s.m m) ∧
      (j.rdreg.isSome = true → Completes c s fun m => m = s.m))

/-- The ALU operations on accumulators (Table 11-5, R249, R253, R255), each issued alone in its bundle (log entry 20); that a FOLD wraps at 40 bits and sets OVF is
the model's choice (log entry 79). -/
def Obligations.JewelAccumulators : Prop :=
  ∀ (s : State) (e dst n k : Nat) (up : Bool), s.m.fabricUp = true → e < 64 → n < 8 → k < 40 → (s.m.jewel e).openB = none → (s.m.jewel e).rdreg = none →
    let j := s.m.jewel e; let lane := bit up; let acc : AccLane := { acc := n, lane := if up then .H else .L }
    (∀ (c : Instr) (v : Word), (c, v) ∈ ([
        (.extr2 e dst n k false, pack16 (sat16 (roundShift k (j.accAlu n 0))) (sat16 (roundShift k (j.accAlu n 1)))),
        (.extr e dst acc k false, BitVec.ofInt 32 (sat32 (roundShift k (j.accAlu n lane)))),
        (.exp e dst acc false, BitVec.ofNat 32 (laneExp (j.accAlu n lane))),
        (.norm e dst acc false, normLane (j.accAlu n lane))] : List (Instr × Word)) →
      Completes c s fun m => OnlyJewel e ({ j.idle with d := mapPut 0 j.idle.d (physReg j.rb dst) v, openB := none }).advancePc s.m m) ∧
    (∀ (c : Instr) (r : Int × Bool), (c, r) ∈ ([(.clra e n false, (0, false)), (.fold e n false, lane40 false (j.accAlu n 0 + j.accAlu n 1))] : List (Instr × Int × Bool)) →
      Completes c s fun m => ∃ v, OnlyJewel e ({ j.idle with acc := v, accVis := v, ovf := j.ovf || r.2, openB := none }).advancePc s.m m ∧
        mapGet 0 v (2 * n) = r.1 ∧ mapGet 0 v (2 * n + 1) = 0 ∧ ∀ i, i ≠ 2 * n → i ≠ 2 * n + 1 → mapGet 0 v i = mapGet 0 j.acc i)

/-- NOP, ROT and the memory operations (R243, R245, R250, R255, R258), each issued alone in its bundle (log entry 20). A trap leaves the engine's memories as they
were. -/
def Obligations.JewelMemory : Prop :=
  ∀ (s : State) (e : Nat) (o : MemOps), s.m.fabricUp = true → e < 64 → (s.m.jewel e).openB = none → (s.m.jewel e).rdreg = none → o.mode ≤ 4 →
    let j := s.m.jewel e; let p := mapGet 0 j.p o.ptr; let md := mapGet 0 j.m o.mod; let y := o.mem == .Y
    let a := if o.mode = 4 then (p + md) % 65536 else p
    let next (size : Nat) : List (Nat × Nat) := mapPut 0 j.p o.ptr
      (if o.mode = 1 then (p + size) % 65536 else if o.mode = 2 then (p + md) % 65536 else if o.mode = 3 then (p + 65536 - md) % 65536 else p)
    Completes (.nop e false) s (fun m => OnlyJewel e ({ j.idle with openB := none }).advancePc s.m m) ∧
    Completes (.rot e false) s (fun m => OnlyJewel e ({ j.idle with rb := (j.rb + 23) % 24, openB := none }).advancePc s.m m) ∧
    (∀ (c : Instr) (n : Nat), (c, n) ∈ ([(.ld32 e o false, 4), (.ld16 e o false, 2)] : List (Instr × Nat)) →
      (a % n = 0 → memReserved y a = false → Completes c s fun m =>
        OnlyJewel e ({ j.idle with landing := [(physReg j.rb o.d, BitVec.ofNat 32 (j.leAt y a n))], p := next n, openB := none }).advancePc s.m m) ∧
      (∀ t, j.run = some t → a % n ≠ 0 → Completes c s fun m => Traps e t 2 0 s.m m) ∧
      (∀ t, j.run = some t → a % n = 0 → memReserved y a = true → Completes c s fun m => Traps e t 3 0 s.m m)) ∧
    (∀ (c : Instr) (n : Nat), (c, n) ∈ ([(.st32 e o false, 4), (.st16 e o false, 2)] : List (Instr × Nat)) →
      (a % n = 0 → memReserved y a = false → memReadOnly y a = false → Completes c s fun m => ∃ mem,
        OnlyJewel e ({ j.idle with x := if y then j.x else mem, y := if y then mem else j.y, p := next n, openB := none }).advancePc s.m m ∧
        memLe 0 mem a n = (j.rd o.d).toNat % 256 ^ n ∧ ∀ b, (b < a ∨ a + n ≤ b) → mapGet 0 mem b = mapGet 0 (if y then j.y else j.x) b) ∧
      (∀ t, j.run = some t → a % n ≠ 0 → Completes c s fun m => Traps e t 2 0 s.m m) ∧
      (∀ t, j.run = some t → a % n = 0 → memReserved y a = true → Completes c s fun m => Traps e t 3 0 s.m m) ∧
      (∀ t, j.run = some t → a % n = 0 → memReserved y a = false → memReadOnly y a = true → Completes c s fun m => Traps e t 4 0 s.m m))

/-- The immediate and control bundles (R251, R252, R256 to R258, R262). A tile that ends leaves its engine's registers and memories as they stand. While an RDREG waits
nothing issues (R257); that a bundle given then is dropped is log entry 3's choice, and that a bundle is given to an engine by command log entry 20's. -/
def Obligations.JewelControl : Prop :=
  ∀ (s : State) (e : Nat), s.m.fabricUp = true → e < 64 → let j := s.m.jewel e
    (j.rdreg.isSome = true → ∀ (x y z : Nat) (w : Word) (r : Option Nat),
      ∀ c ∈ ([.ldi e x w, .ldis e x w, .br e x y z, .loop e x y z r, .done e, .trap e x, .rdreg e x y] : List Instr), Completes c s fun m => m = s.m) ∧
    (j.rdreg = none →
      (∀ dst imm, Completes (.ldi e dst imm) s fun m => OnlyJewel e ({ j.idle with d := mapPut 0 j.idle.d (physReg j.rb dst) imm, openB := none }).advancePc s.m m) ∧
      (∀ dst < 19, ∀ imm : Word, Completes (.ldis e dst imm) s fun m => OnlyJewel e ({ j.idle.putSpecial dst (if dst = 17 then imm.toNat % 32 else imm.toNat) with openB := none }).advancePc s.m m) ∧
      (∀ target cond d, cond < 4 →
        let holds := cond = 0 ∨ (cond = 1 ∧ j.rd d = 0) ∨ (cond = 2 ∧ j.rd d ≠ 0) ∨ (cond = 3 ∧ (j.rd d).msb = true)
        (holds → Completes (.br e target cond d) s fun m => OnlyJewel e { j.idle with loop := .none, openB := none, pc := target, stall := 1 } s.m m) ∧
        (¬ holds → Completes (.br e target cond d) s fun m => OnlyJewel e ({ j.idle with openB := none }).advancePc s.m m)) ∧
      (∀ start stop count creg, start ≤ stop → j.loop = .none → Completes (.loop e start stop count creg) s fun m =>
        OnlyJewel e ({ j.idle with loop := .armed start stop (match creg with | some d => (j.rd d).toNat % 65536 | none => count), openB := none }).advancePc s.m m) ∧
      (∀ dst d, Completes (.rdreg e dst d) s fun m =>
        OnlyJewel e { j.idle with rdreg := some (physReg j.rb dst, (j.rd d).toNat), openB := none } s.m m) ∧
      (Completes (.rdregComplete e) s fun m => m = s.m) ∧
      (∀ t, j.run = some t →
        ((j.rd 0).toNat % 1024 ≤ 512 → Completes (.done e) s fun m =>
          m.train.results = s.m.train.results ++ [⟨t, 0, 0, j.idle.outWords ((j.rd 0).toNat % 1024)⟩] ∧
          m.jewel e = { j.idle with run := none, openB := none, stole := false, cycles := 0, idleAt := some s.m.count } ∧
          (∀ i, i ≠ e → m.jewel i = s.m.jewel i) ∧ m = { s.m with train := { s.m.train with jewels := m.train.jewels, results := m.train.results } }) ∧
        (512 < (j.rd 0).toNat % 1024 → Completes (.done e) s fun m => Traps e t 8 0 s.m m) ∧
        (∀ code, Completes (.trap e code) s fun m => Traps e t 6 code s.m m) ∧
        (∀ dst imm, 18 < dst → Completes (.ldis e dst imm) s fun m => Traps e t 1 0 s.m m) ∧
        (∀ target cond d, 4 ≤ cond → Completes (.br e target cond d) s fun m => Traps e t 1 0 s.m m) ∧
        (∀ start stop count creg, stop < start → Completes (.loop e start stop count creg) s fun m => Traps e t 1 0 s.m m) ∧
        (∀ start stop count creg, start ≤ stop → j.loop ≠ .none → Completes (.loop e start stop count creg) s fun m => Traps e t 9 0 s.m m))) ∧
    (∀ d a, j.rdreg = some (d, a) → (∀ i < 64, i ≠ e → (s.m.jewel i).rdreg = none) → Completes (.rdregComplete e) s fun m =>
      let b := s.m.busRead ⟨3, false, false, e⟩ a
      mapGet 0 (m.jewel e).d d = b.bus.data ∧ (m.jewel e).berr = b.bus.err ∧ (m.jewel e).rdreg = none ∧ (m.jewel e).pc = j.advancePc.pc ∧ m.train.bridge = e ∧
      (∀ i, i ≠ e → m.jewel i = s.m.jewel i) ∧ m = { b with train := m.train })

/-- The arrival queue, local queues and stealing (R244, R263 to R265, R268). A tile starts 300 cycles after the engine's last one ended (R264); that TILE_START
brings device time to that instant is log entry 1's. The clauses in which nothing changes are log entry 3's. -/
def Obligations.TileQueues : Prop :=
  ∀ s : State, s.m.fabricUp = true →
    (∀ p : Port,
      let en := match p with | .A => F.TRAIN_CTRL_EN_A | .B => F.TRAIN_CTRL_EN_B
      (s.m.train.ready.at p = [] → Completes (.tileArrival p) s fun m => m = s.m) ∧
      (s.m.arrivalTurn p = false → Completes (.tileArrival p) s fun m => m = s.m) ∧
      (∀ t rest, s.m.train.ready.at p = t :: rest → s.m.arrivalTurn p = true →
        let t' : Tile := { t with
          pool := s.m.livePool
          entry := s.m.get (match p with | .A => F.TRAIN_ENTRY_ENTRY_A | .B => F.TRAIN_ENTRY_ENTRY_B)
          cycMax := s.m.get (match p with | .A => F.TRAIN_CYC_MAX_A_CYCLES | .B => F.TRAIN_CYC_MAX_B_CYCLES)
          seq := s.m.train.seq }
        let queued (m : Mach) : Prop := m.train.ready = s.m.train.ready.put p rest ∧ m.train.seq = s.m.train.seq + 1 ∧
          m.train.order = s.m.train.order.put p (insertId t.id (s.m.train.order.at p))
        (s.m.on en = false → Completes (.tileArrival p) s fun m =>
          m = { s.m with train := { s.m.train with ready := s.m.train.ready.put p rest } }) ∧
        (s.m.on en = true → 768 ≤ s.m.bufUsed → Completes (.tileArrival p) s fun m =>
          queued m ∧ m.train.results = s.m.train.results ++ [⟨t', 2, 0, []⟩] ∧ m.train.arrival = s.m.train.arrival ∧ m.train.jewels = s.m.train.jewels ∧
          m.train.overload = true ∧ m.get F.TRAIN_SKIP_CNT_COUNT = min (s.m.get F.TRAIN_SKIP_CNT_COUNT + 1) F.TRAIN_SKIP_CNT_COUNT.max ∧
          (s.m.train.overload = true → m.evt = s.m.evt ∧ m.recs = s.m.recs) ∧ (s.m.train.overload = false → Issues 9 2 (evPort p) 0 s.m m) ∧
          Eventful [F.TRAIN_SKIP_CNT_COUNT] { s.m with train := m.train } m) ∧
        (s.m.on en = true → s.m.bufUsed < 768 → Completes (.tileArrival p) s fun m =>
          queued m ∧ m.train.results = s.m.train.results ∧ (∀ e, (m.jewel e).run = (s.m.jewel e).run) ∧
          (∀ e, e = s.m.train.rr % 64 → s.m.train.arrival = [] → (∀ i, (s.m.jewel i).wait = []) → s.m.mayRun e t' = true →
            m.train.arrival = [] ∧ m.train.rr = (e + 1) % 64 ∧ (∀ i, i ≠ e → m.jewel i = s.m.jewel i) ∧
            ((s.m.jewel e).next = none → m.jewel e = { s.m.jewel e with next := some t' }) ∧
            ((s.m.jewel e).next.isSome = true → m.jewel e = { s.m.jewel e with wait := [t'] })) ∧
          m.get F.TRAIN_STATUS_BUF_USED = m.bufUsed % 2 ^ F.TRAIN_STATUS_BUF_USED.width ∧
          m = { s.m with regs := { s.m.regs with act := m.regs.act }, train := m.train } ∧
          Keeps [F.TRAIN_STATUS_ACTIVE, F.TRAIN_STATUS_BUF_USED] s.m m))) ∧
    (∀ e, e < 64 → let j := s.m.jewel e
      (∀ t, j.run = none → j.next = some t → Completes (.tileStart e) s fun m =>
        let w := match j.idleAt with | some c => s.m.reach (c + 300) | none => s.m
        m.jewel e = { j.begin t with next := (m.jewel e).next, wait := (m.jewel e).wait } ∧ (m.jewel e).run = some t ∧ (m.jewel e).pc = t.entry ∧
        (m.jewel e).d = [] ∧ (m.jewel e).acc = [] ∧ (m.jewel e).p = [] ∧ (m.jewel e).m = [] ∧ (m.jewel e).imem = j.imem ∧ (m.jewel e).cycles = 0 ∧
        (∀ t1 rest, j.wait = t1 :: rest → (m.jewel e).next = some t1) ∧ (∀ i, i ≠ e → (m.jewel i).run = (s.m.jewel i).run) ∧
        m.train.order = s.m.train.order ∧ m.train.results = s.m.train.results ∧
        m = { w with regs := { s.m.regs with act := m.regs.act }, train := m.train } ∧ Keeps [F.TRAIN_STATUS_ACTIVE, F.TRAIN_STATUS_BUF_USED] w m) ∧
      (j.run.isSome = true ∨ j.next = none → Completes (.tileStart e) s fun m => m = s.m) ∧
      (j.run.isSome = true ∨ j.next.isSome = true ∨ j.wait ≠ [] ∨ j.stole = true → Completes (.tileSteal e) s fun m => m = s.m) ∧
      ((∀ i < 64, i ≠ e → (s.m.jewel i).wait = []) → Completes (.tileSteal e) s fun m => m = s.m) ∧
      (∀ b t rest, b < 64 → b ≠ e → (s.m.jewel b).wait = t :: rest →
        (∀ i < 64, i ≠ e → (s.m.jewel i).wait.length ≤ (s.m.jewel b).wait.length) → (∀ i < b, i ≠ e → (s.m.jewel i).wait.length < (s.m.jewel b).wait.length) →
        j.run = none → j.next = none → j.wait = [] → j.stole = false →
        (t.moved = false → s.m.mayRun e t = true → Completes (.tileSteal e) s fun m =>
          (m.jewel e).next = some { t with moved := true } ∧ (m.jewel e).stole = true ∧ (∀ i, (m.jewel i).run = (s.m.jewel i).run) ∧
          (s.m.train.arrival = [] → (s.m.jewel b).next.isSome = true → (m.jewel b).wait = rest) ∧
          m.get F.TRAIN_STEAL_CNT_COUNT = min (s.m.get F.TRAIN_STEAL_CNT_COUNT + 1) F.TRAIN_STEAL_CNT_COUNT.max ∧
          m.train.order = s.m.train.order ∧ m.train.results = s.m.train.results ∧
          m = { s.m with regs := { s.m.regs with act := m.regs.act }, train := m.train } ∧
          Keeps [F.TRAIN_STEAL_CNT_COUNT, F.TRAIN_STATUS_ACTIVE, F.TRAIN_STATUS_BUF_USED] s.m m) ∧
        (t.moved = true ∨ s.m.mayRun e t = false → Completes (.tileSteal e) s fun m => m = s.m)))

/-- Retirement of an engine (R259, R266); the cause 0 of ENGINE_RETIRED is the model's choice (log entry 15). What is found is an operand (log entry 2); a fault of
an engine that is retired, or that does not run, changes nothing (log entry 3). -/
def Obligations.EngineRetirement : Prop :=
  ∀ s : State,
    let gone (e : Nat) (m : Mach) : Prop := let j := s.m.jewel e
      let ts := j.run.toList ++ j.next.toList ++ j.wait
      let consts (x : Mem) : Mem := mapKeep (fun a => decide (0x4000 ≤ a) && decide (a < 0x6000)) x
      bitOf (m.get (if e < 32 then F.TRAIN_RETIRED_LO_RETIRED else F.TRAIN_RETIRED_HI_RETIRED)) (e % 32) = true ∧
      m.jewel e = { imem := j.imem, x := consts j.x, y := consts j.y } ∧ (∀ i, i ≠ e → (m.jewel i).run = (s.m.jewel i).run) ∧
      m.get F.TRAIN_RERUN_CNT_COUNT = min (s.m.get F.TRAIN_RERUN_CNT_COUNT + ts.length) F.TRAIN_RERUN_CNT_COUNT.max ∧
      (∀ t, ts = [t] → (∀ i < 64, i ≠ e → bitOf t.pool i = false) → m.train.arrival = t :: s.m.train.arrival) ∧
      m.train.order = s.m.train.order ∧ m.train.results = s.m.train.results ∧ Issues 9 1 0 (evArg e 0 0) s.m m
    let fields (e : Nat) := [F.TRAIN_RERUN_CNT_COUNT, if e < 32 then F.TRAIN_RETIRED_LO_RETIRED else F.TRAIN_RETIRED_HI_RETIRED, F.TRAIN_STATUS_ACTIVE, F.TRAIN_STATUS_BUF_USED]
    (∀ e, e < 64 → s.m.fabricUp = true →
      (∀ found, found = .double ∨ (found = .noIssue ∧ (s.m.jewel e).run.isSome = true ∧ (s.m.jewel e).rdreg = none) → bitOf s.m.retired e = false →
        Completes (.engineFault ⟨e, found⟩) s fun m => gone e m ∧ Eventful (fields e) { s.m with train := m.train } m) ∧
      (Completes (.engineFault ⟨e, .single⟩) s fun m =>
        m.get F.TRAIN_ECC_CORR_COUNT = min (s.m.get F.TRAIN_ECC_CORR_COUNT + 1) F.TRAIN_ECC_CORR_COUNT.max ∧ OnlyFields [F.TRAIN_ECC_CORR_COUNT] s.m m) ∧
      (∀ found, found ≠ .single → bitOf s.m.retired e = true ∨ (found = .noIssue ∧ ((s.m.jewel e).run = none ∨ (s.m.jewel e).rdreg.isSome = true)) →
        Completes (.engineFault ⟨e, found⟩) s fun m => m = s.m)) ∧
    (∀ (who : Master) (w : Word), MayAccess s.m who F.TRAIN_RETIRE_KEY.addr → let e := w.toNat % 64
      (bitsOf w.toNat 31 16 = 0x5AFE → bitOf w.toNat 6 = true → bitOf s.m.retired e = false → Completes (.engineRetire who w) s fun m =>
        gone e m ∧ Eventful (fields e) { s.m.done with train := m.train } m) ∧
      (bitsOf w.toNat 31 16 ≠ 0x5AFE ∨ bitOf w.toNat 6 = false ∨ bitOf s.m.retired e = true → Completes (.engineRetire who w) s fun m => m = s.m.done))

/-- Hand-off of results, in order and only when no earlier tile is still to come (R267), a row counted once all its columns have come (R275 to R277), and the ends of
intervals (R279, R280). That a hand-off or an end that is not due changes nothing is log entry 3's choice. -/
def Obligations.ResultsAndIntervals : Prop :=
  ∀ (s : State) (p : Port), s.m.fabricUp = true → let u := s.m.zone p
    (s.m.train.order.at p = [] → Completes (.resultHandoff p) s fun m => m = s.m) ∧
    (∀ id rest, s.m.train.order.at p = id :: rest →
      (((∀ r ∈ s.m.train.results, r.tile.id ≠ id) ∨ s.m.earlierComing p id = true) → Completes (.resultHandoff p) s fun m => m = s.m) ∧
      (∀ r, s.m.train.results.find? (fun r => r.tile.id == id) = some r → s.m.earlierComing p id = false → let t := r.tile
        let cols := t.id.tcol :: (if u.cur = some (t.id.restart, t.id.trow) then u.cols else [])
        let tiles := match p with | .A => F.TRAIN_TILES_A_COUNT | .B => F.TRAIN_TILES_B_COUNT
        Completes (.resultHandoff p) s fun m =>
          m.train = { s.m.train with order := s.m.train.order.put p rest, results := s.m.train.results.filter fun x => x.tile.id != id } ∧
          m.get tiles = min (s.m.get tiles + 1) tiles.max ∧
          (t.set.range ≤ 512 * (t.id.tcol + 1) → (∀ c ≤ t.id.tcol, c ∈ cols) →
            m.get (F.ZONE_ROW_CNT_COUNT (portIx p)) = min (s.m.get (F.ZONE_ROW_CNT_COUNT (portIx p)) + 1) (F.ZONE_ROW_CNT_COUNT (portIx p)).max) ∧
          ((512 * (t.id.tcol + 1) < t.set.range ∨ ∃ c ≤ t.id.tcol, c ∉ cols) → m.get (F.ZONE_ROW_CNT_COUNT (portIx p)) = s.m.get (F.ZONE_ROW_CNT_COUNT (portIx p))) ∧
          (∀ g, t.segs = [g] → u.cur = some (t.id.restart, t.id.trow) →
            (∀ x, r.status = 0 → r.words.length = 4 + t.nb → segAcc t.nb r.words = some x → mapGet {} (m.zone p).row g.1 = (mapGet {} u.row g.1).add x) ∧
            (r.status ≠ 0 ∨ r.words.length ≠ 4 + t.nb → mapGet {} (m.zone p).row g.1 = { mapGet {} u.row g.1 with inc := true }) ∧
            (r.status = 0 → r.words.length ≠ 4 + t.nb →
              m.get (F.ZONE_BADLEN_CNT_COUNT (portIx p)) = min (s.m.get (F.ZONE_BADLEN_CNT_COUNT (portIx p)) + 1) (F.ZONE_BADLEN_CNT_COUNT (portIx p)).max)) ∧
          m = { s.m with regs := { s.m.regs with act := m.regs.act }, train := m.train, zones := m.zones, chans := m.chans, recs := m.recs } ∧
          KeepsOutside [11, 12] s.m m)) ∧
    (∀ f, u.first = some f →
      (s.m.zoneDue p f = true → Completes (.zoneIntervalEnd p) s fun m =>
        m.zone p = { u with int := [], rows := 0, first := none, flags := 0 } ∧ m.zone (otherPort p) = s.m.zone (otherPort p) ∧
        (f.set.zEn = false → m.recs = s.m.recs) ∧
        (f.set.zEn = true → ∃ d, m.recs.ready = s.m.recs.ready ++ [d] ∧ m.recs = { s.m.recs with ready := m.recs.ready } ∧
          d.typ = 2 ∧ d.port = portIx f.id.port ∧ d.epoch = f.epoch ∧ d.beat = f.beat ∧ d.count = f.set.range) ∧
        m = { s.m with zones := m.zones, recs := m.recs }) ∧
      (s.m.zoneDue p f = false → Completes (.zoneIntervalEnd p) s fun m => m = s.m)) ∧
    (u.first = none → Completes (.zoneIntervalEnd p) s fun m => m = s.m) ∧
    (∀ f, u.ovFirst = some f →
      (s.m.overDue p f = true → Completes (.overviewIntervalEnd p) s fun m =>
        m.zone p = { u with overs := [], ovRows := 0, ovFirst := none, ovFlags := 0 } ∧ m.zone (otherPort p) = s.m.zone (otherPort p) ∧
        (f.set.ovEn = false → m.recs = s.m.recs) ∧
        (f.set.ovEn = true → ∃ d, m.recs.ready = s.m.recs.ready ++ [d] ∧ m.recs = { s.m.recs with ready := m.recs.ready } ∧
          d.typ = 3 ∧ d.port = portIx f.id.port ∧ d.epoch = f.epoch ∧ d.beat = f.beat ∧ d.count = f.set.range) ∧
        m = { s.m with zones := m.zones, recs := m.recs }) ∧
      (s.m.overDue p f = false → Completes (.overviewIntervalEnd p) s fun m => m = s.m)) ∧
    (u.ovFirst = none → Completes (.overviewIntervalEnd p) s fun m => m = s.m)

/-- Arming of the channels (R284). REARM_END stands for the instant at which a REARM ends (log entry 1); of a channel that is not in REARM it changes nothing (log
entry 3). -/
def Obligations.Arming : Prop :=
  ∀ s : State,
    (∀ (who : Master) (w : Word), MayAccess s.m who F.CHR_ARM.addr → Completes (.chrArm who w) s fun m =>
      (∀ c, c < 32 → let st := s.m.get (F.CHR_CH_STATUS_STATE c)
        (bitOf w.toNat c = true → st = 1 ∨ st = 2 →
          m.get (F.CHR_CH_STATUS_STATE c) = 3 ∧ bitOf (m.get F.CHR_ARM) c = true ∧ mapGet {} m.chans c = (mapGet {} s.m.chans c).clear) ∧
        (bitOf w.toNat c = false ∨ (st ≠ 1 ∧ st ≠ 2) →
          m.get (F.CHR_CH_STATUS_STATE c) = st ∧ bitOf (m.get F.CHR_ARM) c = bitOf (s.m.get F.CHR_ARM) c ∧ mapGet {} m.chans c = mapGet {} s.m.chans c)) ∧
      m = { s.m.done with regs := { s.m.regs with act := m.regs.act }, chans := m.chans } ∧
      Keeps (F.CHR_ARM :: (List.range 32).map F.CHR_CH_STATUS_STATE) s.m m) ∧
    (∀ c, c < 32 → s.m.fabricUp = true →
      (s.m.get (F.CHR_CH_STATUS_STATE c) = 3 → Completes (.rearmEnd c) s fun m =>
        m.get (F.CHR_CH_STATUS_STATE c) = 1 ∧ bitOf (m.get F.CHR_ARM) c = false ∧
        (∀ i, i ≠ c → bitOf (m.get F.CHR_ARM % 2 ^ 32) i = bitOf (s.m.get F.CHR_ARM % 2 ^ 32) i) ∧ OnlyFields [F.CHR_CH_STATUS_STATE c, F.CHR_ARM] s.m m) ∧
      (s.m.get (F.CHR_CH_STATUS_STATE c) ≠ 3 → Completes (.rearmEnd c) s fun m => m = s.m))

/-- A channel and its next row (R281 to R291): the logics of R282, and a mask's tested zones (R287). That a mask violation which takes no capture issues MASK_VIOL with a
slot and a capture number that the specification leaves open is log entry 15's; that a channel with no row changes nothing is log entry 3's. -/
def Obligations.ChannelRows : Prop :=
  ∀ (s : State) (c : Nat), c < 32 → s.m.fabricUp = true →
    let x := mapGet {} s.m.chans c; let st := s.m.get (F.CHR_CH_STATUS_STATE c); let p := ixPort (s.m.get (F.CHR_CH_CTRL_PORT c))
    let src := s.m.get (F.CHR_CH_CTRL_SRC c); let zone := s.m.get (F.CHR_CH_CTRL_ZONE c)
    let chan (m : Mach) : Channel := mapGet {} m.chans c
    let others (m : Mach) : Prop := ∀ i, i ≠ c → mapGet {} m.chans i = mapGet {} s.m.chans i
    let counted (reason : Nat) (m : Mach) : Prop :=
      let n := s.m.get (F.CHR_CH_STATUS_MISSED c)
      let cnt := if reason = 1 then F.CHR_MISS_CNT_REARM else F.CHR_MISS_CNT_NO_SLOT
      m.get (F.CHR_CH_STATUS_MISSED c) = min (n + 1) (F.CHR_CH_STATUS_MISSED c).max ∧ m.get cnt = min (s.m.get cnt + 1) cnt.max ∧
      (n = 0 → m.get (F.CHR_CH_STATUS_REASON c) = reason) ∧
      Eventful [F.CHR_CH_STATUS_MISSED c, F.CHR_CH_STATUS_REASON c, cnt] { s.m with chans := m.chans, free := m.free } m
    let entry : CauseEntry := ⟨c, s.m.get (F.CHR_CH_STATUS_REASON c), s.m.get (F.CHR_CH_STATUS_MISSED c),
      if s.m.get (F.CHR_CH_STATUS_MISSED c) = 0 then 0 else x.missT⟩
    -- A fire that takes slot `k`: `y` is the channel as its logic left it, `mask` says that it is a mask's.
    let taken (y : Channel) (mask : Bool) (k : Nat) (m : Mach) : Prop :=
      chan m = { y with missT := 0 } ∧ m.get (F.CHR_CH_STATUS_MISSED c) = 0 ∧ m.get (F.CHR_CH_STATUS_REASON c) = 0 ∧
      m.get (F.CHR_CH_STATUS_STATE c) = (if s.m.on (F.CHR_CH_CTRL_MODE c) = true ∨ mask = true then 2 else 1) ∧
      Issues (14 + portIx p) (if mask then 1 else 0) (evPort p) (evArg c 0 k) s.m m ∧
      m = { s.m with regs := { s.m.regs with act := m.regs.act }, chans := m.chans, caps := m.caps, evt := m.evt, recs := m.recs } ∧
      KeepsOutside [2, 13] s.m m
    -- … and what that makes of slot `k`: a capture of its own over `cells`, or one cause more of the capture of its row.
    let begun (r : RowProd) (cells : Nat × Nat) (value maskZone : Nat) (mask : Bool) (k : Nat) (m : Mach) : Prop :=
      (∃ cap, m.capture k = some cap ∧ cap.port = p ∧ cap.capId = s.m.get F.CHR_NEXT_ID_CAP_ID ∧ cap.mT = r.mT ∧ cap.causes = [entry] ∧ cap.primary = c ∧
        (cap.preReq, cap.preAvail, cap.post) = s.m.capWindow p r.acq r.mT c ∧ cap.next = r.mT - cap.preAvail ∧ cap.last = r.mT + cap.post ∧
        (cap.c0, cap.c1) = cells ∧ cap.value = value ∧ cap.mask = mask ∧ cap.maskZone = maskZone ∧ cap.total = 0) ∧
      (∀ i, i ≠ k → m.capture i = s.m.capture i) ∧ m.get (F.CHR_SLOT_BUSY k) = 1 ∧
      m.get F.CHR_NEXT_ID_CAP_ID = (s.m.get F.CHR_NEXT_ID_CAP_ID + 1) % 2 ^ F.CHR_NEXT_ID_CAP_ID.width ∧
      m.get F.CHR_CAP_CNT_COUNT = min (s.m.get F.CHR_CAP_CNT_COUNT + 1) F.CHR_CAP_CNT_COUNT.max
    let joined (r : RowProd) (cells : Nat × Nat) (value maskZone : Nat) (mask : Bool) (k : Nat) (cap0 : Capture) (m : Mach) : Prop :=
      (∃ cap, m.capture k = some cap ∧ cap.capId = cap0.capId ∧ cap.primary = min c cap0.primary ∧ entry ∈ cap.causes ∧
        (cap.preReq, cap.preAvail, cap.post) = s.m.capWindow p r.acq r.mT (min c cap0.primary) ∧
        cap.c0 = min cells.1 cap0.c0 ∧ cap.c1 = max cells.2 cap0.c1 ∧
        (c ≤ cap0.primary → cap.value = value ∧ cap.mask = mask ∧ cap.maskZone = maskZone) ∧
        (cap0.primary < c → cap.value = cap0.value ∧ cap.mask = cap0.mask ∧ cap.maskZone = cap0.maskZone)) ∧
      m.get F.CHR_NEXT_ID_CAP_ID = s.m.get F.CHR_NEXT_ID_CAP_ID
    (x.q = [] → Completes (.channelRowEval c) s fun m => m = s.m) ∧
    (∀ r rest, x.q = r :: rest →
      (st = 0 ∨ st = 2 → Completes (.channelRowEval c) s fun m => chan m = { x with q := rest } ∧ others m ∧ m = { s.m with chans := m.chans }) ∧
      (st = 1 ∨ st = 3 → s.m.get (F.CHR_CH_CTRL_TYPE c) ≠ 5 → ∀ z, (r.zones.headD (0, {})).2 = z →
        let evaluated := z.inc = false ∧ (0 < z.n ∨ src = 5)
        let cls? := classOf (s.m.on (F.CHR_CH_CTRL_POL c)) (s.m.get (F.CHR_THR_HI_THR c)) (s.m.get (F.CHR_THR_LO_THR c)) (productVal z src)
        (¬ evaluated → x.prev = none → Completes (.channelRowEval c) s fun m => chan m = { x with q := rest } ∧ others m ∧ m = { s.m with chans := m.chans }) ∧
        (∀ cls, (evaluated ∧ cls = cls?) ∨ (¬ evaluated ∧ x.prev = some cls) →
          let l := chanLogic (s.m.get (F.CHR_CH_CTRL_TYPE c)) (s.m.get (F.CHR_CH_CTRL_COND c)) (s.m.get (F.CHR_WIDTH_W_MIN c))
            (s.m.get (F.CHR_WIDTH_W_MAX c)) { x with q := rest } cls r.no
          let missed (reason : Nat) (m : Mach) : Prop := let n := s.m.get (F.CHR_CH_STATUS_MISSED c)
            counted reason m ∧ m.free = s.m.free ∧
            (n ≠ 0 → chan m = l.1 ∧ m.evt = s.m.evt ∧ m.recs = s.m.recs) ∧
            (n = 0 → chan m = { l.1 with missT := r.time } ∧ Issues (14 + portIx p) 2 (evPort p) (evArg c reason 0) s.m m)
          let cells := s.m.causeCells p c zone zone
          (l.2 = false → Completes (.channelRowEval c) s fun m => chan m = l.1 ∧ others m ∧ m = { s.m with chans := m.chans }) ∧
          (l.2 = true → st = 3 → Completes (.channelRowEval c) s fun m => missed 1 m ∧ others m) ∧
          (l.2 = true → st = 1 → s.m.sameRow p r = none → (∀ i < 16, (s.m.capture i).isSome = true) →
            Completes (.channelRowEval c) s fun m => missed 2 m ∧ others m) ∧
          (l.2 = true → st = 1 → s.m.sameRow p r = none → ∀ k, k < 16 → s.m.capture k = none → (∀ i < k, (s.m.capture i).isSome = true) →
            Completes (.channelRowEval c) s fun m => taken l.1 false k m ∧ others m ∧ begun r cells (productTag z src) 0xFFFF false k m) ∧
          (l.2 = true → st = 1 → ∀ k cap0, s.m.sameRow p r = some (k, cap0) →
            Completes (.channelRowEval c) s fun m => taken l.1 false k m ∧ others m ∧ joined r cells (productTag z src) 0xFFFF false k cap0 m))) ∧
      (st = 1 ∨ st = 3 → s.m.get (F.CHR_CH_CTRL_TYPE c) = 5 →
        let limit (z at' : Nat) : Rat := tagRat (bankWord s.m.regs.act (0x0C20000 + 0x10000 * s.m.get (F.CHR_CH_CTRL_MASK_SEL c) + at' + 8 * z))
        let bad (z : Nat × ZAcc) : Prop := z.2.inc = false ∧ (0 < z.2.n ∨ src = 5) ∧ limit z.1 16 ≤ limit z.1 20 ∧
          (productVal z.2 src < limit z.1 16 ∨ limit z.1 20 < productVal z.2 src)
        ((∀ z ∈ r.zones, ¬ bad z) → Completes (.channelRowEval c) s fun m => chan m = { x with q := rest } ∧ others m ∧ m = { s.m with chans := m.chans }) ∧
        (∀ before lowest after low highest high, r.zones = before ++ lowest :: after → (∀ z ∈ before, ¬ bad z) → bad lowest →
          r.zones = low ++ highest :: high → (∀ z ∈ high, ¬ bad z) → bad highest →
          let n := s.m.get (F.CHR_CH_STATUS_MISSED c); let cells := s.m.causeCells p c lowest.1 highest.1
          -- Every violation issues MASK_VIOL, before the TRIG_MISSED of a first miss.
          let missed (reason : Nat) (m : Mach) : Prop := counted reason m ∧ others m ∧
            chan m = (if n = 0 then { x with q := rest, missT := r.time } else { x with q := rest }) ∧
            bitOf (m.get F.EVT_PEND) (14 + portIx p) = true ∧ m.free = s.m.free + 2 ∧
            (s.m.evt.log.length + 2 ≤ 16 → ∃ slot, m.evt.log = s.m.evt.log ++ [⟨14 + portIx p, 0x100 * (14 + portIx p) + 1, evPort p, evArg c 0 slot, s.m.now⟩] ++
              (if n = 0 then [⟨14 + portIx p, 0x100 * (14 + portIx p) + 2, evPort p, evArg c reason 0, s.m.now⟩] else []))
          (st = 3 → Completes (.channelRowEval c) s (missed 1)) ∧
          (st = 1 → s.m.sameRow p r = none → (∀ i < 16, (s.m.capture i).isSome = true) → Completes (.channelRowEval c) s (missed 2)) ∧
          (st = 1 → s.m.sameRow p r = none → ∀ k, k < 16 → s.m.capture k = none → (∀ i < k, (s.m.capture i).isSome = true) →
            Completes (.channelRowEval c) s fun m => taken { x with q := rest } true k m ∧ others m ∧
              begun r cells (productTag lowest.2 src) lowest.1 true k m) ∧
          (st = 1 → ∀ k cap0, s.m.sameRow p r = some (k, cap0) → Completes (.channelRowEval c) s fun m => taken { x with q := rest } true k m ∧ others m ∧
            joined r cells (productTag lowest.2 src) lowest.1 true k cap0 m))))

/-- Reading of a capture from the Reserve (R289, R292, R293, R320, R389). That no tick is read while a fire may yet join the capture is log entry 83's, and that a
command for a slot without a capture changes nothing is log entry 3's. -/
def Obligations.CaptureReading : Prop :=
  ∀ (s : State) (k : Nat), k < 16 → s.m.fabricUp = true →
    (s.m.capture k = none → Completes (.captureTickRead k) s fun m => m = s.m) ∧
    (∀ c, s.m.capture k = some c →
      let blocks := s.m.portBlocks c.port c.acq
      let tickHeld (t : Nat) : List Held := (colsOf c.c0 c.c1).map fun i => s.m.tickIn c.port c.acq blocks i t
      let waits := s.m.rowWaits c.port c.acq c.restart c.row
      -- the capture ends: its last record leaves in every form, and the slot is free
      let leaves (e : Capture) (m : Mach) : Prop := m.capture k = none ∧ m.get (F.CHR_SLOT_BUSY k) = 0 ∧
        m.recs = { s.m.recs with ready := s.m.recs.ready ++ [0, 1, 2].map fun f => s.m.capDraft k e f true }
      let frame (m : Mach) : Prop := m = { s.m with regs := { s.m.regs with act := m.regs.act }, caps := m.caps, recs := m.recs } ∧
        KeepsOutside [13] s.m m ∧ ∀ i, i ≠ k → m.capture i = s.m.capture i
      let empty : Prop := ∀ f < 3, (c.inForm f).ticks = 0
      (∀ e f last, let d := s.m.capDraft k e f last
        d.typ = 5 ∧ d.port = portIx e.port ∧ d.first = e.c0 ∧ d.count = e.c1 - e.c0 ∧ d.form = some f ∧ (d.codec = 1 ↔ f = 0) ∧
          d.bodies = [e.header k (e.inForm f) last ++ (e.inForm f).body]) ∧
      (waits = true → Completes (.captureTickRead k) s fun m => m = s.m) ∧
      (waits = false → c.last < c.next → c.gapFrom = none → s.m.captureEnd c = none → Completes (.captureTickRead k) s fun m => leaves c m ∧ frame m) ∧
      (∀ e, waits = false → s.m.captureEnd c = some e → e < c.last → e < c.next →
        (c.gapFrom = none → Completes (.captureTickRead k) s fun m => leaves { c with last := e, postShort := true } m ∧ frame m) ∧
        (∀ a, c.gapFrom = some a → Completes (.captureTickRead k) s fun m => m.capture k = none ∧ m.get (F.CHR_SLOT_BUSY k) = 0 ∧
          m.get F.CHR_GAP_CNT_COUNT = min (s.m.get F.CHR_GAP_CNT_COUNT + 1) F.CHR_GAP_CNT_COUNT.max ∧
          bitOf (m.get F.EVT_PEND) (14 + portIx c.port) = true ∧ (m.recs.ready.getD s.m.recs.ready.length { typ := 0, port := 0, bodies := [] }).gap = true)) ∧
      (waits = false → s.m.captureEnd c = none → c.next ≤ c.last →
        (Held.gone ∉ tickHeld c.next → Held.notYet ∈ tickHeld c.next → Completes (.captureTickRead k) s fun m =>
          m.capture k = some c ∧ m.recs = s.m.recs ∧ frame m) ∧
        (Held.gone ∈ tickHeld c.next → empty → c.next < c.last → Completes (.captureTickRead k) s fun m =>
          m.capture k = some { c with gapFrom := some (c.gapFrom.getD c.next), next := c.next + 1 } ∧ m.recs = s.m.recs ∧ frame m) ∧
        (Held.gone ∈ tickHeld c.next → (∀ f < 3, (c.inForm f).ticks ≠ 0) → c.next < c.last → Completes (.captureTickRead k) s fun m =>
          (∃ c', m.capture k = some c' ∧ c'.gapFrom = some (c.gapFrom.getD c.next) ∧ c'.next = c.next + 1 ∧ c'.split = c.split ∧
            ∀ f < 3, c'.inForm f = { part := (c.inForm f).part + 1 }) ∧
          (∃ l, m.recs = { s.m.recs with ready := s.m.recs.ready ++ l } ∧ l.length = 3) ∧ frame m) ∧
        (∀ b, Held.gone ∉ tickHeld c.next → Held.notYet ∉ tickHeld c.next → tickHeld c.next ≠ [] →
          s.m.tickIn c.port c.acq blocks (c.c0 / 512) c.next = .block b → c.gapFrom = none →
          let other := ∃ e, c.epochSeen = some e ∧ e ≠ b.tile.epoch
          let values := s.m.tickValues blocks c c.next
          let fits (f n : Nat) : Prop := alignUp (128 + 16 * c.causes.length + (c.inForm f).body.length + n) 64 ≤ captureMax
          (MemorySound s.m → c.next < c.last → Completes (.captureTickRead k) s fun m =>
            (∀ i, i ≠ k → m.capture i = s.m.capture i) ∧ m.acq = s.m.acq ∧ m.clk = s.m.clk ∧ m.chans = s.m.chans ∧ m.rsv = s.m.rsv ∧
            ∃ c', m.capture k = some c' ∧ c'.next = c.next + 1 ∧ c'.total = c.total + 1 ∧ c'.last = c.last ∧ c'.epochSeen = some b.tile.epoch ∧
              (c'.split = true ↔ c.split = true ∨ other) ∧
              (other → ∀ f < 3, (c'.inForm f).ticks = 1) ∧
              (¬ other → fits 1 values.1.length → c'.form1.ticks = c.form1.ticks + 1 ∧ c'.form1.body = c.form1.body ++ values.1) ∧
              (¬ other → fits 2 (values.1.length + values.2.length) → c'.form1q.body = c.form1q.body ++ values.1 ++ values.2) ∧
              (¬ other → ¬ fits 1 values.1.length → c.form1.ticks ≠ 0 →
                c'.form1.ticks = 1 ∧ c'.form1.part = c.form1.part + 1 ∧ c'.form1.body = values.1 ∧ s.m.capDraft k { c with split := c'.split } 1 false ∈ m.recs.ready)) ∧
          (c.form0.row = some (b.tile.id.restart, b.tile.id.trow) → ¬ other →
            fits 0 0 → fits 1 values.1.length → fits 2 (values.1.length + values.2.length) →
            (c.next = c.last → Completes (.captureTickRead k) s fun m => (∃ e, leaves e m ∧ e.next = c.next + 1 ∧ e.postShort = c.postShort) ∧ frame m) ∧
            (c.next < c.last → Completes (.captureTickRead k) s fun m =>
              (∃ c', m.capture k = some c' ∧ c'.capId = c.capId ∧ c'.causes = c.causes ∧ c'.form0.body = c.form0.body ∧ c'.form0.ticks = c.form0.ticks + 1) ∧
              m.recs = s.m.recs ∧ frame m)))))

/-- The codec's blocks (R299 to R309) and the ring (R342). When a port's tile is coded and when the output buffer is freed is as log entry 78 has it, where in the
channels a ring burst lies is log entry 21's, and a command with nothing to code or to write changes nothing (log entry 3). -/
def Obligations.BlocksAndRing : Prop :=
  ∀ s : State, s.m.fabricUp = true →
    (∀ (p : Port) (vf : Bool),
      (s.m.codec.queue.at p = [] → Completes (.codecBlock p vf) s fun m => m = s.m) ∧
      (∀ t rest, s.m.codec.queue.at p = t :: rest →
        let first := t.code; let fail := vf && t.codecEn; let k := if fail = true then rawCoded t true else first
        let bytes := blockBytes t k.flags k.v k.q
        let room := s.m.codec.fits bytes.length = true ∧ s.m.codec.fits (blockBytes t first.flags first.v first.q).length = true
        let i := portIx p
        let once (said : Bool) (n : Nat) (m : Mach) : Prop :=
          (said = true → m.evt = s.m.evt ∧ m.get F.EVT_PEND = s.m.get F.EVT_PEND) ∧ (said = false → Issues 10 n (evPort p) 0 s.m m)
        (s.m.codecTurn p = false → Completes (.codecBlock p vf) s fun m => m = s.m) ∧
        (s.m.codecTurn p = true → room → Completes (.codecBlock p vf) s fun m =>
          m.codec.queue = s.m.codec.queue.put p rest ∧ m.codec.out = s.m.codec.out ++ [{ tile := t, bytes := bytes }] ∧
          (s.m.codec.rd ≤ s.m.codec.wr → m.codec.wr - m.codec.rd = s.m.codec.wr - s.m.codec.rd + bytes.length) ∧
          cellDraft t bytes (blockBytes t (k.flags - (if bitOf k.flags 1 then 2 else 0) - (if bitOf k.flags 2 then 4 else 0)) k.v []) ∈ m.recs.ready ∧
          m.get (F.CODEC_BLOCKS_COUNT i) = min (s.m.get (F.CODEC_BLOCKS_COUNT i) + 1) (F.CODEC_BLOCKS_COUNT i).max ∧
          m.get (F.CODEC_IN_BYTES_BYTES i) = min (s.m.get (F.CODEC_IN_BYTES_BYTES i) + (2 + bit t.codecQual) * (t.cells * t.ticks)) (F.CODEC_IN_BYTES_BYTES i).max ∧
          m.get (F.CODEC_ROWRAW_CNT_COUNT i) = min (s.m.get (F.CODEC_ROWRAW_CNT_COUNT i) + k.rawRows) (F.CODEC_ROWRAW_CNT_COUNT i).max ∧
          m.get F.CODEC_STATUS_POOL_FREE = (512 - m.codec.used) % 2 ^ F.CODEC_STATUS_POOL_FREE.width ∧
          (fail = true → m.get F.CODEC_VERIFY_CNT_COUNT = min (s.m.get F.CODEC_VERIFY_CNT_COUNT + 1) F.CODEC_VERIFY_CNT_COUNT.max ∧
            m.get F.CODEC_LAST_VFAIL_TROW = t.id.trow % 2 ^ F.CODEC_LAST_VFAIL_TROW.width ∧ bitOf k.flags 4 = true ∧ Issues 10 12 (evPort p) 0 s.m m) ∧
          (fail = false → bitOf k.flags 3 = true → once s.m.codec.incomp 11 m) ∧
          (fail = false → bitOf k.flags 3 = false → once true 0 m) ∧
          Eventful [F.CODEC_BLOCKS_COUNT i, F.CODEC_IN_BYTES_BYTES i, F.CODEC_ROWRAW_CNT_COUNT i, F.CODEC_STATUS_POOL_FREE, F.CODEC_INCOMP_CNT_COUNT i,
            F.CODEC_VERIFY_CNT_COUNT, F.CODEC_LAST_VFAIL_PORT, F.CODEC_LAST_VFAIL_TCOL, F.CODEC_LAST_VFAIL_TROW] { s.m with codec := m.codec } m) ∧
        (s.m.codecTurn p = true → ¬ room → Completes (.codecBlock p vf) s fun m =>
          m.codec = { s.m.codec with queue := s.m.codec.queue.put p rest, dropped := true } ∧
          m.get F.CODEC_DROP_CNT_COUNT = min (s.m.get F.CODEC_DROP_CNT_COUNT + 1) F.CODEC_DROP_CNT_COUNT.max ∧
          (∃ d ∈ m.recs.ready, d.gap = true ∧ d.typ = 1 ∧ d.epoch = t.epoch ∧ d.beat = t.beat ∧ d.first = 512 * t.id.tcol ∧ d.count = t.cells) ∧
          once s.m.codec.dropped 13 m ∧ Eventful [F.CODEC_DROP_CNT_COUNT] { s.m with codec := m.codec } m))) ∧
    (s.m.codec.out = [] → Completes .reserveBlockWrite s fun m => m = s.m) ∧
    (∀ b rest, s.m.codec.out = b :: rest → let r := s.m.rsv; let ring := r.ring0 + r.ring1
      Completes .reserveBlockWrite s fun m =>
        m.codec.out = rest ∧ m.codec.wr - m.codec.rd = s.m.codec.wr - s.m.codec.rd - b.bytes.length ∧ m.codec.queue = s.m.codec.queue ∧
        (ring = 0 → m.rsv = r) ∧
        (0 < ring → m.rsv.wpos = r.wpos + b.bytes.length ∧ m.rsv.secBytes = r.secBytes + b.bytes.length ∧ m.rsv.ring0 = r.ring0 ∧ m.rsv.ring1 = r.ring1 ∧
          { b with pos := r.wpos } ∈ m.rsv.blocks ∧
          ∀ x, x ∈ m.rsv.blocks → x = { b with pos := r.wpos } ∨
            (x ∈ r.blocks ∧ (r.wpos + b.bytes.length - 1) / segBytes < x.pos / segBytes + ring / segBytes)) ∧
        (ring = 0 ∨ (s.m.mcState 0 ≠ 2 ∧ s.m.mcState 1 ≠ 2) → m = { s.m with regs := { s.m.regs with act := m.regs.act }, codec := m.codec, rsv := m.rsv } ∧
          Keeps [F.CODEC_STATUS_POOL_FREE, F.MC_OLDEST_A_BEAT, F.MC_OLDEST_B_BEAT] s.m m) ∧
        (s.m.get (F.MC_STATUS_SR 0) = 0 → s.m.get (F.MC_STATUS_SR 1) = 0 →
          m = { s.m with regs := { s.m.regs with act := m.regs.act }, codec := m.codec, rsv := m.rsv, mcs := m.mcs } ∧ KeepsOutside [14, 15] s.m m ∧
          ∀ ch < 2, m.mc ch = { s.m.mc ch with act := (m.mc ch).act, errs := (m.mc ch).errs, poison := (m.mc ch).poison, written := (m.mc ch).written }))

/-- Refresh, activate counting and errors of a memory channel (R320 to R327). That DRAM_REFRESH, REFRESH_WINDOW_END, PATROL_SCRUB and CE_WINDOW_CLOSE bring device time to
their instant is log entry 1's; that refreshes count from training or the exit of self-refresh, and that a pass of the scrubber is spread evenly over its SCRUB_H hours, are
log entry 70's; where a journal or ring burst lies is log entry 21's; that a command that is not due changes nothing is log entry 3's. -/
def Obligations.DramUpkeep : Prop :=
  ∀ (s : State) (ch : Nat), ch < 2 → s.m.fabricUp = true → let c := s.m.mc ch
    let other (m : Mach) : Prop := m.mc (1 - ch) = s.m.mc (1 - ch)
    (∀ rank hot,
      (s.m.mcRuns ch = true → s.m.rankState ch rank ≠ 0 → Completes (.dramRefresh ch rank hot) s fun m =>
        let t := if hot then 1950 else 3900; let from_ := max (mapGet {} c.refreshed rank).last c.refBase
        let w := s.m.reachNs (from_ + t); let due := (w.now - from_) / t
        mapGet {} (m.mc ch).refreshed rank = { last := from_ + due * t, hot := hot, postponed := min 4 (due - 1) } ∧
        m.mc ch = { c with refreshed := (m.mc ch).refreshed } ∧ other m ∧ m = { w with mcs := m.mcs }) ∧
      (s.m.mcRuns ch = false ∨ s.m.rankState ch rank = 0 → Completes (.dramRefresh ch rank hot) s fun m => m = s.m)) ∧
    (s.m.mcRuns ch = true → Completes (.refreshWindowEnd ch) s fun m => let w := s.m.reachNs (c.winStart + c.windowNs)
      m.mc ch = { c with act := [], winStart := w.now } ∧ other m ∧ m = { w with mcs := m.mcs }) ∧
    (s.m.mcRuns ch = false → Completes (.refreshWindowEnd ch) s fun m => m = s.m) ∧
    (∀ rank sub bank row, let key := bankKey rank sub bank; let thr := s.m.get (F.MC_ACT_CTRL_ACT_THR ch)
      let due := s.m.mcRuns ch = true ∧ s.m.rankState ch rank ≠ 4 ∧ 0 < thr ∧ thr ≤ s.m.rowCount ch key row
      (due → (∀ r, r ≠ row → s.m.rowHot ch key r = false) → Completes (.neighbourRefresh ch rank sub bank row) s fun m =>
        m.rowCount ch key row = 0 ∧ m.get (F.MC_ACT_NREF_COUNT ch) = min (s.m.get (F.MC_ACT_NREF_COUNT ch) + 1) (F.MC_ACT_NREF_COUNT ch).max ∧
        ((mapGet [] c.act key).length ≤ 28 → ∀ r, r < bankRows (s.m.get (F.MC_ORG_DENSITY ch)) → (r + 2 = row ∨ r + 1 = row ∨ r = row + 1 ∨ r = row + 2) →
          m.rowCount ch key r = s.m.rowCount ch key r + 1) ∧
        (∀ k, k ≠ key → mapGet [] (m.mc ch).act k = mapGet [] c.act k) ∧ m.mc ch = { c with act := (m.mc ch).act } ∧ other m ∧
        m = { s.m with regs := { s.m.regs with act := m.regs.act }, mcs := m.mcs } ∧ Keeps [F.MC_ACT_NREF_COUNT ch, F.MC_ACT_REPL_COUNT ch] s.m m) ∧
      (due → ∀ r0, r0 + 4 < row → row + 2 < bankRows (s.m.get (F.MC_ORG_DENSITY ch)) → s.m.rowHot ch key r0 = true → (∀ r, r ≠ row → r ≠ r0 → s.m.rowHot ch key r = false) →
        (mapGet [] c.act key).length ≤ 24 → Completes (.neighbourRefresh ch rank sub bank row) s fun m =>
        m.rowCount ch key row = 0 ∧ m.rowCount ch key r0 = 0 ∧ m.rowCount ch key (r0 + 1) = s.m.rowCount ch key (r0 + 1) + 1 ∧
        m.get (F.MC_ACT_NREF_COUNT ch) = min (s.m.get (F.MC_ACT_NREF_COUNT ch) + 2) (F.MC_ACT_NREF_COUNT ch).max) ∧
      (¬ due → Completes (.neighbourRefresh ch rank sub bank row) s fun m => m = s.m)) ∧
    (∀ (addrs : List Nat) (devices : Nat) (beats : List Nat) (detected : Bool),
      let k : MemChan := { c with errs := addrs.foldl (fun l a => mapPut {} l a ⟨devices, beats, detected⟩) c.errs }
      let q : Mach := { s.m with mcs := s.m.mcs.putIx ch k }
      let due := s.m.mcRuns ch = true ∧ s.m.get (F.MC_ECC_CTRL_SCRUB_H ch) ≠ 0
      (¬ due ∨ k.scrubNext = none → Completes (.patrolScrub ch addrs devices beats detected) s fun m => m = q) ∧
      (∀ addr, due → s.m.get (F.MC_STATUS_SR ch) = 0 → k.scrubNext = some addr → let a := q.place ch addr
        let key := bankKey a.rank a.sub a.bank; let thr := s.m.get (F.MC_ACT_CTRL_ACT_THR ch)
        thr = 0 ∨ s.m.rowCount ch key a.row < thr →
        let hours := s.m.get (F.MC_ECC_CTRL_SCRUB_H ch)
        let start := c.scrubT.getD s.m.now
        let k' : MemChan := { k with scrubT := some start }
        let w := ({ s.m with mcs := s.m.mcs.putIx ch k' } : Mach).reachNs (k'.scrubDue hours addr s.m.now)
        let after : MemChan := { k' with scrubAt := addr + 64 }
        let base := [F.MC_SCRUB_STATUS_PASSES ch, F.MC_SCRUB_STATUS_PCT ch, F.MC_ACT_REPL_COUNT ch]
        let passed (m : Mach) : Prop := other m ∧
          (after.scrubNext = none → (m.mc ch).scrubAt = 0 ∧ (m.mc ch).scrubT = some (start + hours * 3600000000000) ∧ m.get (F.MC_SCRUB_STATUS_PCT ch) = 0 ∧
            m.get (F.MC_SCRUB_STATUS_PASSES ch) = min (s.m.get (F.MC_SCRUB_STATUS_PASSES ch) + 1) (F.MC_SCRUB_STATUS_PASSES ch).max) ∧
          (after.scrubNext ≠ none → (m.mc ch).scrubAt = addr + 64 ∧ (m.mc ch).scrubT = some start ∧ m.get (F.MC_SCRUB_STATUS_PASSES ch) = s.m.get (F.MC_SCRUB_STATUS_PASSES ch))
        (q.burstSeen ch addr = (.clean, false) → Completes (.patrolScrub ch addrs devices beats detected) s fun m =>
          passed m ∧ (m.mc ch).act = ((q.activate ch key a.row).mc ch).act ∧ m.mc ch = { k with act := (m.mc ch).act, scrubAt := (m.mc ch).scrubAt, scrubT := (m.mc ch).scrubT } ∧
          m = { w with regs := { w.regs with act := m.regs.act }, mcs := m.mcs } ∧ Keeps base w m) ∧
        (q.burstSeen ch addr = (.corrected, false) → a.rank < 4 → Completes (.patrolScrub ch addrs devices beats detected) s fun m =>
          passed m ∧ m.get (F.MC_ERR_CNT_CE ch a.rank) = min (s.m.get (F.MC_ERR_CNT_CE ch a.rank) + 1) (F.MC_ERR_CNT_CE ch a.rank).max ∧
          mapGet 0 (m.mc ch).ceWin a.rank = mapGet 0 c.ceWin a.rank + 1 ∧ (∀ r, r ≠ a.rank → mapGet 0 (m.mc ch).ceWin r = mapGet 0 c.ceWin r) ∧
          (m.mc ch).errs = mapPut {} k.errs addr {} ∧
          m.mc ch = { k with act := (m.mc ch).act, ceWin := (m.mc ch).ceWin, errs := (m.mc ch).errs, scrubAt := (m.mc ch).scrubAt, scrubT := (m.mc ch).scrubT } ∧
          m = { w with regs := { w.regs with act := m.regs.act }, mcs := m.mcs } ∧ Keeps (F.MC_ERR_CNT_CE ch a.rank :: F.MC_ACT_NREF_COUNT ch :: base) w m) ∧
        (∀ poison, q.burstSeen ch addr = (.uncorrectable, poison) → a.rank < 4 → addr < jrnBase ∨ s.m.ringBase ≤ addr → Completes (.patrolScrub ch addrs devices beats detected) s fun m =>
          passed m ∧ m.get (F.MC_ERR_CNT_UE ch a.rank) = min (s.m.get (F.MC_ERR_CNT_UE ch a.rank) + 1) (F.MC_ERR_CNT_UE ch a.rank).max ∧
          m.get (F.MC_UE_LAST_RANK ch) = a.rank ∧ m.get (F.MC_UE_LAST_ROW ch) = a.row % 2 ^ (F.MC_UE_LAST_ROW ch).width ∧
          m.get (F.MC_UE_LAST_BANK ch) = a.bank % 2 ^ (F.MC_UE_LAST_BANK ch).width ∧ m.get (F.MC_UE_LAST_POISON ch) = bit poison ∧
          bitOf (m.get F.EVT_PEND) 10 = true ∧
          (addr < jrnBase → m.rsv = s.m.rsv ∧ (m.mc ch).errs = mapPut {} k.errs addr {}) ∧
          (jrnBase ≤ addr → m.rsv = s.m.rsv.dropAt (addr - s.m.ringBase + if ch = 0 then 0 else s.m.rsv.ring0)) ∧
          (poison = true ∨ s.m.spareRank ch = some a.rank → Issues 10 0 0 (evArg a.rank 0 ch) w m ∧ m.get (F.MC_STATUS_MIGRATING ch) = s.m.get (F.MC_STATUS_MIGRATING ch)) ∧
          (poison = false → s.m.spareRank ch = none → m.get (F.MC_MIG_STATUS_LAST_REFUSE ch) = 1 ∧ m.get (F.MC_STATUS_MIGRATING ch) = s.m.get (F.MC_STATUS_MIGRATING ch)) ∧
          (poison = false → ∀ sp, s.m.spareRank ch = some sp → sp ≠ a.rank → s.m.rankState ch sp ≠ 5 → s.m.on (F.MC_STATUS_MIGRATING ch) = false →
            s.m.rankState ch a.rank = 1 → m.on (F.MC_STATUS_MIGRATING ch) = true ∧ m.rankState ch a.rank = 3 ∧ m.get (F.MC_MIG_STATUS_CAUSE ch) = 1) ∧
          m = { w with regs := { w.regs with act := m.regs.act }, mcs := m.mcs, rsv := m.rsv, evt := m.evt, recs := m.recs } ∧ KeepsOutside [2, 15] w m))) ∧
    (let thr := s.m.get (F.MC_ECC_CTRL_CE_THR ch)
      let w := s.m.reachNs (c.ceEnd.getD ((s.m.now / 60000000000 + 1) * 60000000000))
      let k : MemChan := { c with ceWin := [], ceEnd := some ((w.now / 60000000000 + 1) * 60000000000) }
      ((thr = 0 ∨ ∀ r < 4, mapGet 0 c.ceWin r < thr) → Completes (.ceWindowClose ch) s fun m => m.mc ch = k ∧ other m ∧ m = { w with mcs := m.mcs }) ∧
      (∀ r, r < 4 → 0 < thr → thr ≤ mapGet 0 c.ceWin r → (∀ i < 4, i ≠ r → mapGet 0 c.ceWin i < thr) →
        ∀ sp, s.m.spareRank ch = some sp → s.m.rankState ch sp ≠ 5 → s.m.on (F.MC_STATUS_MIGRATING ch) = false → s.m.rankState ch r = 1 →
        Completes (.ceWindowClose ch) s fun m =>
          m.on (F.MC_STATUS_MIGRATING ch) = true ∧ m.rankState ch r = 3 ∧ m.get (F.MC_MIG_STATUS_SRC ch) = r ∧ m.get (F.MC_MIG_STATUS_CAUSE ch) = 0 ∧
          m.mc ch = { k with migBytes := 0 } ∧ other m ∧
          (s.m.evt.log.length ≤ 14 → m.evt.log = s.m.evt.log ++ [⟨10, 0xA01, 0, evArg r 0 ch, w.now⟩, ⟨10, 0xA02, 0, evArg r 0 ch, w.now⟩]) ∧
          Eventful [F.MC_STATUS_MIGRATING ch, F.MC_RANK_STATE_STATE ch r, F.MC_MIG_STATUS_CAUSE ch, F.MC_MIG_STATUS_SRC ch, F.MC_MIG_STATUS_PTR_GIB ch]
            { w with mcs := m.mcs } m))

/-- Migration (R329 to R331), freeze (R332 to R335, R343) and the journal's second copy (R346). That MIGRATION_COMPLETE and JOURNAL_COPY_COMPLETE bring device time
to their end is log entry 70's, that the slots are freed with the last channel's contents log entry 73's, that a freeze ends RESYNC and leaves SINGLE set log entry
78's, and that a command which is not due changes nothing log entry 3's. -/
def Obligations.MigrationAndFreeze : Prop :=
  ∀ (s : State) (ch : Nat), ch < 2 → let c := s.m.mc ch; let present := s.m.mcState ch = 2; let alone := s.m.mcState (1 - ch) ≠ 2
    let frozen (cause : Nat) (done : Mach) (m : Mach) : Prop :=
      m.mcState ch = 3 ∧ m.get (F.MC_STATUS_MIGRATING ch) = 0 ∧ m.rsv = s.m.rsv.without ch ∧ m.mc (1 - ch) = s.m.mc (1 - ch) ∧
      (¬ alone → m.mcState (1 - ch) = 2 ∧ m.get F.SYS_STATE_MODE = s.m.get F.SYS_STATE_MODE ∧
        m.get (F.MC_SNAP (1 - ch) 0) = 2 ^ 31 + cause * 2 ^ 28 ∧ m.get (F.MC_SNAP (1 - ch) 1) = s.m.now % 2 ^ 32 ∧
        (s.m.on F.MC_RSV_STATUS_SINGLE = true → Issues 10 7 0 (evArg 0 cause ch) s.m m) ∧
        (s.m.on F.MC_RSV_STATUS_SINGLE = false → m.on F.MC_RSV_STATUS_SINGLE = true ∧
          (s.m.evt.log.length ≤ 14 → m.evt.log = s.m.evt.log ++ [⟨10, 0xA07, 0, evArg 0 cause ch, s.m.now⟩, ⟨10, 0xA09, 0, 0, s.m.now⟩])) ∧
        (∀ i, m.slot i = s.m.slot i) ∧ KeepsOutside [0, 2, 15] s.m m) ∧
      (alone → m.get F.SYS_STATE_MODE = 2 ∧ (s.m.get F.SYS_STATE_MODE ≠ 2 → m.get F.SYS_STATE_SAFE_REASON = 2) ∧
        (∀ i < 64, m.sessState i = 0 ∧ (s.m.sessState i ≠ 0 → (m.slot i).journal = [])) ∧ (∀ i < 48, m.get (F.MC_SNAP (1 - ch) i) = s.m.get (F.MC_SNAP (1 - ch) i)) ∧
        KeepsOutside [0, 2, 15, 16, 17] s.m m) ∧
      m = { done with regs := { s.m.regs with act := m.regs.act }, mcs := m.mcs, rsv := m.rsv, evt := m.evt, recs := m.recs }
    (∀ (who : Master) (w : Word), MayAccess s.m who (F.MC_MIGRATE_KEY ch).addr → let r := w.toNat % 4
      let asked := bitsOf w.toNat 31 16 = 0x5AFE ∧ bitOf w.toNat 2 = true ∧ s.m.mcRuns ch = true
      let refused (why : Nat) (m : Mach) : Prop := m.get (F.MC_MIG_STATUS_LAST_REFUSE ch) = why ∧ Issues 10 3 0 (evArg r why ch) s.m m ∧
        Eventful [F.MC_MIG_STATUS_LAST_REFUSE ch] s.m.done m
      (¬ asked → Completes (.migrate who ch w) s fun m => m = s.m.done) ∧
      (asked → s.m.spareRank ch = none → Completes (.migrate who ch w) s (refused 1)) ∧
      (asked → ∀ sp, s.m.spareRank ch = some sp →
        (s.m.rankState ch sp = 5 → Completes (.migrate who ch w) s (refused 1)) ∧
        (s.m.rankState ch sp ≠ 5 → s.m.on (F.MC_STATUS_MIGRATING ch) = true → Completes (.migrate who ch w) s (refused 2)) ∧
        (s.m.rankState ch sp ≠ 5 → s.m.on (F.MC_STATUS_MIGRATING ch) = false → s.m.rankState ch r ≠ 1 → Completes (.migrate who ch w) s (refused 3)) ∧
        (s.m.rankState ch sp ≠ 5 → s.m.on (F.MC_STATUS_MIGRATING ch) = false → s.m.rankState ch r = 1 → Completes (.migrate who ch w) s fun m =>
          m.on (F.MC_STATUS_MIGRATING ch) = true ∧ m.rankState ch r = 3 ∧ m.get (F.MC_MIG_STATUS_CAUSE ch) = 2 ∧ m.get (F.MC_MIG_STATUS_SRC ch) = r ∧
          m.get (F.MC_MIG_STATUS_PTR_GIB ch) = 0 ∧ m.mc ch = { c with migBytes := 0 } ∧ m.mc (1 - ch) = s.m.mc (1 - ch) ∧
          Issues 10 2 0 (evArg r 2 ch) s.m m ∧
          Eventful [F.MC_STATUS_MIGRATING ch, F.MC_RANK_STATE_STATE ch r, F.MC_MIG_STATUS_CAUSE ch, F.MC_MIG_STATUS_SRC ch, F.MC_MIG_STATUS_PTR_GIB ch]
            { s.m.done with mcs := m.mcs } m))) ∧
    (∀ (who : Master) (w : Word) (log : FreezeLog), MayAccess s.m who (F.MC_FREEZE_KEY ch).addr →
      let asked := bitsOf w.toNat 31 16 = 0x5AFE ∧ bitOf w.toNat 0 = true
      (asked → present → Completes (.freeze who ch w log) s (frozen 3 s.m.done)) ∧
      (¬ asked ∨ ¬ present → Completes (.freeze who ch w log) s fun m => m = s.m.done)) ∧
    (s.m.fabricUp = true →
      (∀ errs, s.m.on (F.MC_STATUS_MIGRATING ch) = false ∨ s.m.mcRuns ch = false ∨ s.m.spareRank ch = none → Completes (.migrationComplete ch errs) s fun m => m = s.m) ∧
      (∀ errs sp, s.m.spareRank ch = some sp → sp < 4 → s.m.on (F.MC_STATUS_MIGRATING ch) = true → s.m.mcRuns ch = true → let r := s.m.get (F.MC_MIG_STATUS_SRC ch)
        r < 4 → r ≠ sp → Completes (.migrationComplete ch errs) s fun m =>
          let size := c.rankGiB r * 2 ^ 30
          let w := s.m.reachNs (s.m.now / 1000000 * 1000000 + ceilDiv ((size - c.migBytes) * 10 ^ 9) (max (s.m.get (F.MC_MIG_CTRL_MIG_RATE ch)) 1 * 2 ^ 27))
          m.rankState ch r = 4 ∧ m.rankState ch sp = 5 ∧ m.get (F.MC_RANK_STATE_SERVES ch sp) = r ∧ m.get (F.MC_STATUS_SPARE_AVAIL ch) = 0 ∧
          m.get (F.MC_STATUS_MIGRATING ch) = 0 ∧ (m.mc ch).migBytes = size ∧ (∀ a ∈ c.poison, a ∈ (m.mc ch).poison) ∧ m.mc (1 - ch) = s.m.mc (1 - ch) ∧ m.now = w.now ∧
          (c.errs = [] → errs = [] → m.get (F.MC_ERR_CNT_UE ch r) = s.m.get (F.MC_ERR_CNT_UE ch r) ∧ Issues 10 4 0 (evArg r 0 ch) w m ∧
            m.mc ch = { c with act := (m.mc ch).act, migBytes := size }) ∧
          m = { w with regs := { s.m.regs with act := m.regs.act }, mcs := m.mcs, evt := m.evt, recs := m.recs } ∧ KeepsOutside [2, 15] w m) ∧
      (∀ (failed : Nat) (log : FreezeLog), let recent := s.m.now :: c.parTimes.filter fun t => decide (s.m.now < t + 10000000)
        let counted (m : Mach) : Prop :=
          m.get (F.MC_PAR_CNT_PAR ch) = min (s.m.get (F.MC_PAR_CNT_PAR ch) + 1) (F.MC_PAR_CNT_PAR ch).max ∧
          m.get (F.MC_PAR_CNT_REPLAY ch) = min (s.m.get (F.MC_PAR_CNT_REPLAY ch) + min (failed + 1) 4) (F.MC_PAR_CNT_REPLAY ch).max
        (¬ present → Completes (.caParityError ch failed log) s fun m => m = s.m) ∧
        (present → failed < 4 → recent.length < 16 → Completes (.caParityError ch failed log) s fun m =>
          counted m ∧ m.mc ch = { c with alerts := (c.alerts + 1) % 2 ^ 32, parTimes := recent } ∧ m.mc (1 - ch) = s.m.mc (1 - ch) ∧
          m = { s.m with regs := { s.m.regs with act := m.regs.act }, mcs := m.mcs } ∧ Keeps [F.MC_PAR_CNT_PAR ch, F.MC_PAR_CNT_REPLAY ch] s.m m) ∧
        (present → 4 ≤ failed → Completes (.caParityError ch failed log) s fun m => counted m ∧ frozen 1 s.m m) ∧
        (present → failed < 4 → 16 ≤ recent.length → Completes (.caParityError ch failed log) s fun m => counted m ∧ frozen 2 s.m m)) ∧
      (s.m.on F.MC_RSV_STATUS_RESYNC = true → Completes .journalCopyComplete s fun m =>
        let n := min s.m.recs.jrnPos s.m.jrnBytes
        let w := match s.m.recs.copyAt with | some t => s.m.reachNs (t + ceilDiv (n * 10 ^ 9) (max (s.m.get (F.MC_MIG_CTRL_MIG_RATE 0)) 1 * 2 ^ 27)) | none => s.m
        m.get F.MC_RSV_STATUS_RESYNC = 0 ∧ m.get F.MC_RSV_STATUS_SINGLE = 0 ∧ m.recs.copyAt = none ∧ bitOf (m.get F.EVT_PEND) 10 = true ∧ m.now = w.now ∧
        (n = 0 → Issues 10 10 0 0 w m ∧ Eventful [F.MC_RSV_STATUS_RESYNC, F.MC_RSV_STATUS_SINGLE] w m)) ∧
      (s.m.on F.MC_RSV_STATUS_RESYNC = false → Completes .journalCopyComplete s fun m => m = s.m))

/-- The lanes (R350, R352, R355 to R358). What they time counts from the lane's entry to its state, and that a command out of its state changes nothing, are the
model's (log entries 1 and 3); so are that the sessions move at once where R357 allows 10 ms, and what the checker compares with (log entry 83); the patterns' taps
and their inversion are PRESUMED (log entry 84). A frame sent waits for no lane but an UP one (log entry 76). -/
def Obligations.LaneStates : Prop :=
  ∀ s : State,
    let st (m : Mach) (n : Nat) : Nat := m.get (F.NET_PORT_STATUS_STATE n)
    let pcs (n : Nat) := [F.NET_PORT_STATUS_BLOCK_LOCK n, F.NET_PORT_STATUS_FEC_ALIGN n, F.NET_PORT_STATUS_HI_BER n, F.NET_PORT_STATUS_LF n, F.NET_PORT_STATUS_RF_RX n]
    let eq (n : Nat) := [F.NET_TX_EQ_NOW_SWING n, F.NET_TX_EQ_NOW_POST n, F.NET_TX_EQ_NOW_PRE n]
    let starts (n : Nat) : Nat := if s.m.prbsOn n = true then 5 else if s.m.on (F.NET_PORT_CTRL_TRAIN_EN n) = true then 1 else 2
    let ready (n : Nat) : Prop := s.m.on (F.NET_PORT_CTRL_EN n) = true ∧ s.m.on F.NET_REFCLK_OK = true
    let enters (n : Nat) (w m : Mach) : Prop := m.net = (w.modPort n fun p => { p with entered := w.now }).net
    let down (n : Nat) (m : Mach) : Prop :=
      st m n = 4 ∧ m.get (F.NET_LINK_CNT_DOWN_CNT n) = min (s.m.get (F.NET_LINK_CNT_DOWN_CNT n) + 1) (F.NET_LINK_CNT_DOWN_CNT n).max
    -- the sessions on port Pn have gone to their other path, where that is UP, or are kept
    let leaves (n : Nat) (up : Nat → Bool) (m : Mach) : Prop := ∀ k < 64, s.m.isOpen k = true → s.m.get (F.REC_SESS_STATE_PORT k) = n → ∀ p, s.m.policyOf k = some p →
      let other := if s.m.on (F.REC_SESS_STATE_ON_ALT k) = true then some p.primary else p.alt
      (∀ o, other = some o → o < 4 → o ≠ n → up o = true → m.isOpen k = true ∧ m.get (F.REC_SESS_STATE_PORT k) = o ∧ (m.slot k).migReq = true) ∧
      (other = none ∨ (∃ o, other = some o ∧ (o = n ∨ up o = false)) → m.sessState k = 3 ∧ m.get (F.REC_CLOSE_REASON k) = 1)
    let noOne (n : Nat) : Prop := ∀ k < 64, s.m.isOpen k = true → s.m.get (F.REC_SESS_STATE_PORT k) ≠ n
    let after (n ms : Nat) : Mach := s.m.reachNs ((s.m.netPort n).entered + ms * 1000000)
    (s.m.alive = true →
      (s.m.on F.NET_REFCLK_OK = true → Completes .refclkLoss s fun m =>
        m.get F.NET_REFCLK_OK = 0 ∧ m.get F.NET_REFCLK_LOST = 1 ∧ m.net.refLost = true ∧ m.net.refAt = s.m.now ∧ bitOf (m.get F.EVT_PEND) 11 = true ∧
        (∀ n < 4, st m n = if st s.m n = 0 then 0 else 4) ∧
        ((∀ n < 4, st s.m n ≠ 3) → Issues 11 2 0 0 s.m m ∧ m.net.fwd = s.m.net.fwd ∧
          (∀ n < 4, m.netPort n = if st s.m n = 0 then s.m.netPort n else { s.m.netPort n with entered := s.m.now }) ∧
          m = { s.m with regs := { s.m.regs with act := m.regs.act }, net := m.net, evt := m.evt, recs := m.recs } ∧ KeepsOutside [2, 16] s.m m) ∧
        (∀ n < 4, st s.m n = 3 → leaves n (fun _ => false) m) ∧ OnlyRecords { s.m with ptp := m.ptp } m) ∧
      (s.m.on F.NET_REFCLK_OK = false → Completes .refclkLoss s fun m => m = s.m) ∧
      (s.m.on F.NET_REFCLK_OK = false → (∀ n < 4, st s.m n ≠ 3) → Completes .refclkOk s fun m =>
        let w := if s.m.net.refLost = true then s.m.reachNs (s.m.net.refAt + 100000000) else s.m
        m.get F.NET_REFCLK_OK = 1 ∧ (∀ n < 4, st m n = if s.m.on (F.NET_PORT_CTRL_EN n) = true then starts n else st s.m n) ∧
        (∀ n < 4, m.netPort n = if s.m.on (F.NET_PORT_CTRL_EN n) = true then { s.m.netPort n with fill := 16, faultAt := none, entered := w.now } else s.m.netPort n) ∧
        m.net.fwd = s.m.net.fwd ∧ m.net.refLost = false ∧ m.net.refAt = s.m.net.refAt ∧
        (s.m.net.refLost = true → Issues 11 3 0 0 w m) ∧ (s.m.net.refLost = false → m.evt = s.m.evt ∧ m.recs = s.m.recs) ∧
        m = { w with regs := { s.m.regs with act := m.regs.act }, net := m.net, evt := m.evt, recs := m.recs } ∧ KeepsOutside [2, 16] s.m m) ∧
      (s.m.on F.NET_REFCLK_OK = true → Completes .refclkOk s fun m => m = s.m) ∧
      (∀ n, n < 4 →
        (∀ e : Word, st s.m n = 1 → Completes (.laneTrainingDone n e) s fun m =>
          st m n = 2 ∧ m.get (F.NET_PORT_STATUS_TRAINED n) = 1 ∧ m.get (F.NET_TX_EQ_NOW_SWING n) = bitsOf e.toNat 23 16 ∧
          m.get (F.NET_TX_EQ_NOW_POST n) = bitsOf e.toNat 13 8 ∧ m.get (F.NET_TX_EQ_NOW_PRE n) = bitsOf e.toNat 5 0 ∧ enters n s.m m ∧
          OnlyFields (F.NET_PORT_STATUS_STATE n :: F.NET_PORT_STATUS_TRAINED n :: eq n) { s.m with net := m.net } m) ∧
        (∀ e : Word, st s.m n ≠ 1 → Completes (.laneTrainingDone n e) s fun m => m = s.m) ∧
        (st s.m n = 1 → Completes (.laneTrainTimeout n) s fun m => let w := after n 500
          down n m ∧ m.get (F.NET_LINK_CNT_TRAIN_FAIL n) = min (s.m.get (F.NET_LINK_CNT_TRAIN_FAIL n) + 1) (F.NET_LINK_CNT_TRAIN_FAIL n).max ∧ enters n w m ∧
          OnlyFields [F.NET_PORT_STATUS_STATE n, F.NET_LINK_CNT_TRAIN_FAIL n, F.NET_LINK_CNT_DOWN_CNT n] { w with net := m.net } m) ∧
        (st s.m n ≠ 1 → Completes (.laneTrainTimeout n) s fun m => m = s.m) ∧
        (st s.m n = 2 → Completes (.laneLockHeld n) s fun m => let w := after n 100
          st m n = 3 ∧ m.get (F.NET_PORT_STATUS_BLOCK_LOCK n) = 1 ∧ m.get (F.NET_PORT_STATUS_FEC_ALIGN n) = s.m.get (F.NET_PORT_CTRL_FEC n) % 2 ∧
          m.get (F.NET_PORT_STATUS_HI_BER n) = 0 ∧ m.get (F.NET_PORT_STATUS_LF n) = 0 ∧ m.get (F.NET_PORT_STATUS_RF_RX n) = 0 ∧
          (m.netPort n).entered = w.now ∧ (∀ i < 4, i ≠ n → m.netPort i = s.m.netPort i) ∧ Issues 11 1 0 (evArg n 0 0) w m ∧
          m = { w with regs := { s.m.regs with act := m.regs.act }, net := m.net, evt := m.evt, recs := m.recs } ∧ KeepsOutside [2, 16, 17] s.m m) ∧
        (st s.m n ≠ 2 → Completes (.laneLockHeld n) s fun m => m = s.m) ∧
        (st s.m n = 2 → Completes (.laneAcquireTimeout n) s fun m => let w := after n 500
          down n m ∧ enters n w m ∧ OnlyFields [F.NET_PORT_STATUS_STATE n, F.NET_LINK_CNT_DOWN_CNT n] { w with net := m.net } m) ∧
        (st s.m n ≠ 2 → Completes (.laneAcquireTimeout n) s fun m => m = s.m) ∧
        (∀ cause headers, let counts := st s.m n = 3 ∧ cause < 5 ∧ (cause = 1 → s.m.on (F.NET_PORT_CTRL_FEC n) = true)
          let finds := (st s.m n = 2 ∨ st s.m n = 3 ∨ st s.m n = 4) ∧ 5 ≤ cause ∧ cause < 9
          let w := if 3 ≤ cause then (match (s.m.netPort n).faultAt with | some t => s.m.reachNs (t + 100000) | none => s.m) else s.m
          (counts → Completes (.laneFault n ⟨cause, headers⟩) s fun m =>
            down n m ∧ m.get (F.NET_BER_CNT_COUNT n) = min (s.m.get (F.NET_BER_CNT_COUNT n) + headers) (F.NET_BER_CNT_COUNT n).max ∧
            (cause = 0 → m.get (F.NET_PORT_STATUS_BLOCK_LOCK n) = 0) ∧ (cause = 1 → m.get (F.NET_PORT_STATUS_FEC_ALIGN n) = 0) ∧
            (cause = 2 → m.get (F.NET_PORT_STATUS_HI_BER n) = 1) ∧ (cause = 3 → m.get (F.NET_PORT_STATUS_LF n) = 1) ∧
            (cause = 4 → m.get (F.NET_PORT_STATUS_RF_RX n) = 1) ∧ bitOf (m.get F.EVT_PEND) 11 = true ∧ leaves n s.m.laneUp m ∧
            (∀ d < 4, ∀ f ∈ (m.oc d).foreign, f.port ≠ n) ∧ (2 ≤ n → (m.net.fwd.ix (fwdDir n)).queue = []) ∧
            (noOne n → Issues 11 0 0 (evArg n 0 0) w m ∧ (m.netPort n).entered = w.now ∧ (m.netPort n).waiting = 0 ∧
              m = { w with regs := { s.m.regs with act := m.regs.act }, net := m.net, ptp := m.ptp, evt := m.evt, recs := m.recs } ∧ KeepsOutside [2, 16, 18] s.m m) ∧
            m = { w with regs := { s.m.regs with act := m.regs.act }, mcs := m.mcs, pwr := { s.m.pwr with entering := m.pwr.entering, wakeAt := m.pwr.wakeAt }, net := m.net,
                         ptp := m.ptp, evt := m.evt, recs := m.recs } ∧ KeepsOutside [0, 2, 15, 16, 17, 18] s.m m) ∧
          (finds → Completes (.laneFault n ⟨cause, headers⟩) s fun m =>
            st m n = st s.m n ∧ m.get (F.NET_BER_CNT_COUNT n) = min (s.m.get (F.NET_BER_CNT_COUNT n) + headers) (F.NET_BER_CNT_COUNT n).max ∧
            (cause = 5 → m.get (F.NET_PORT_STATUS_LF n) = 1 ∧ m.laneTx n = .remoteFault) ∧ (cause = 6 → m.get (F.NET_PORT_STATUS_LF n) = 0) ∧
            (cause = 7 → m.get (F.NET_PORT_STATUS_RF_RX n) = 1 ∧ m.portFree n = false) ∧ (cause = 8 → m.get (F.NET_PORT_STATUS_RF_RX n) = 0) ∧
            (st s.m n = 3 → m.laneTx n = if m.on (F.NET_PORT_STATUS_LF n) = true then .remoteFault
              else if m.on (F.NET_PORT_STATUS_RF_RX n) = true then .idles else .frames) ∧
            (s.m.laneSends n = true ∨ m.laneSends n = false → OnlyFields [F.NET_BER_CNT_COUNT n, F.NET_PORT_STATUS_LF n, F.NET_PORT_STATUS_RF_RX n]
              { s.m with net := m.net } m ∧ m.net = (s.m.modPort n fun p => { p with faultAt := (m.netPort n).faultAt }).net) ∧
            m = { s.m with regs := { s.m.regs with act := m.regs.act }, net := m.net, recs := m.recs } ∧ KeepsOutside [16, 17] s.m m) ∧
          (¬ counts → ¬ finds → Completes (.laneFault n ⟨cause, headers⟩) s fun m => m = s.m)) ∧
        (st s.m n = 4 → ready n → Completes (.laneRetry n) s fun m => let w := after n 2000
          st m n = starts n ∧ (∀ f ∈ pcs n, m.get f = 0) ∧
          (s.m.on (F.NET_PORT_CTRL_TRAIN_EN n) = false → m.get (F.NET_TX_EQ_NOW_POST n) = s.m.get (F.NET_TX_EQ_POST n) % 2 ^ (F.NET_TX_EQ_NOW_POST n).width) ∧
          m.net = (w.modPort n fun p => { p with fill := 16, faultAt := none, entered := w.now }).net ∧
          OnlyFields (F.NET_PORT_STATUS_STATE n :: F.NET_PORT_STATUS_TRAINED n :: eq n ++ pcs n) { w with net := m.net } m) ∧
        (st s.m n = 4 → ¬ ready n → Completes (.laneRetry n) s fun m => m = after n 2000) ∧
        (st s.m n ≠ 4 → Completes (.laneRetry n) s fun m => m = s.m))) ∧
    (∀ (who : Master) (w : Word) (l : PrbsLine), let n := l.lane
      n < 4 → MayAccess s.m who (F.NET_PRBS_CTRL_GEN_EN n).addr → bitsOf w.toNat 6 4 ≤ 4 →
      (bitsOf w.toNat 29 24 = 0 ∨ (10 ≤ bitsOf w.toNat 29 24 ∧ bitsOf w.toNat 29 24 ≤ 40)) → ∀ c, c = .prbsEnable who l w ∨ c = .prbsInject who l w →
      let x := s.m.prbsLine l
      let rate := s.m.get (F.NET_PRBS_CTRL_INJ_RATE n); let pat := s.m.get (F.NET_PRBS_CTRL_PATTERN n); let len := (prbsTaps pat).1; let p := s.m.netPort n; let q := x.netPort n
      let test := bitOf w.toNat 0 = true ∨ bitOf w.toNat 1 = true
      let fields (m : Mach) : Prop := m.get (F.NET_PRBS_CTRL_GEN_EN n) = bitsOf w.toNat 0 0 ∧ m.get (F.NET_PRBS_CTRL_CHK_EN n) = bitsOf w.toNat 1 1 ∧
        m.get (F.NET_PRBS_CTRL_PATTERN n) = bitsOf w.toNat 6 4 ∧ m.get (F.NET_PRBS_CTRL_INJ_RATE n) = bitsOf w.toNat 29 24 ∧
        (bitsOf w.toNat 6 4 ≠ s.m.get (F.NET_PRBS_CTRL_PATTERN n) → m.get (F.NET_PRBS_STATUS_LOCK n) = 0 ∧ (m.netPort n).goodRun = 0) ∧
        (bitOf w.toNat 8 = true → bitOf w.toNat 0 = true → st m n = 5 → (m.netPort n).inject = true)
      (st s.m n ≠ 5 → x = s.m) ∧
      (st s.m n = 5 → s.m.on (F.NET_PRBS_CTRL_GEN_EN n) = true → s.m.on (F.NET_PRBS_CTRL_CHK_EN n) = false →
        q.prbsSent = p.prbsSent + l.sent ∧ q.line.length = l.sent ∧
        q.inverted = p.inverted + (if rate = 0 then 0 else (p.prbsSent + l.sent) / 2 ^ rate - p.prbsSent / 2 ^ rate) + (if p.inject = true ∧ 0 < l.sent then 1 else 0) ∧
        (rate = 0 → p.inject = false → p.gen.length = len → ∀ i, i + len < l.sent →
          q.line.getD (i + len) false = ((q.line.getD i false != q.line.getD (i + len - (prbsTaps pat).2) false) != prbsInverted pat))) ∧
      (st s.m n = 5 → s.m.on (F.NET_PRBS_CTRL_CHK_EN n) = true → s.m.on (F.NET_PRBS_STATUS_LOCK n) = false → p.chk = [] → p.goodRun = 0 →
        ∀ g : NetPort, g.gen.length = len → g.gen.any id = true → g.line = [] → g.inject = false → l.received = (prbsSend pat 0 (len + 64) g).line →
          x.get (F.NET_PRBS_STATUS_LOCK n) = 1) ∧
      (st s.m n ≠ 3 → Completes c s fun m => fields m ∧
        (test → st m n = if st s.m n = 0 then 0 else 5) ∧ (¬ test → st s.m n ≠ 5 → st m n = st s.m n) ∧
        (¬ test → st s.m n = 5 → ready n → st m n = if s.m.on (F.NET_PORT_CTRL_TRAIN_EN n) = true then 1 else 2) ∧
        (¬ test → st s.m n = 5 → ¬ ready n → st m n = 0) ∧
        m = { s.m.done with regs := { s.m.regs with act := m.regs.act }, net := m.net, free := m.free } ∧ m.net.fwd = s.m.net.fwd ∧ KeepsOutside [16] s.m m) ∧
      (st s.m n = 3 → test → Completes c s fun m => fields m ∧ st m n = 5 ∧ bitOf (m.get F.EVT_PEND) 11 = true ∧ leaves n s.m.laneUp m ∧
        (noOne n → Issues 11 0 0 (evArg n 0 0) s.m m) ∧
        m = { s.m.done with regs := { s.m.regs with act := m.regs.act }, mcs := m.mcs, pwr := { s.m.pwr with entering := m.pwr.entering, wakeAt := m.pwr.wakeAt }, net := m.net,
                            ptp := m.ptp, evt := m.evt, recs := m.recs, free := m.free } ∧ KeepsOutside [0, 2, 15, 16, 17, 18] s.m m) ∧
      (st s.m n = 3 → ¬ test → Completes c s fun m => fields m ∧ st m n = 3 ∧ m = { s.m.done with regs := { s.m.regs with act := m.regs.act }, net := m.net } ∧
        KeepsOutside [16] s.m m))

/-- Frames on the ports (R352, R353, R359 to R361), the order of egress (R23), stamps, forwarding and the transparent clock (R362, R363, R367, R368), CE marks (R376)
and the answers of neighbours (R373). A message's counts and the latencies that vary are operands (log entries 2 and 77), the places of a PTP frame's fields are
PRESUMED from their standards (log entry 84), how forwarded frames queue is log entry 76's, time that a command brings log entry 1's, and that a lane which is not UP
takes nothing log entry 3's. -/
def Obligations.FramesAndForwarding : Prop :=
  ∀ (s : State) (n : Nat), n < 4 → s.m.fabricUp = true →
    let e := 5 - n; let k := fwdDir e; let mode := s.m.get F.PTP_TC_CTRL_MODE
    -- what waits still in a direction: a lane that starts frames has let go those whose egress stamp has passed
    let still (d : Nat) : List HeldFrame := if s.m.laneSends (dirEgress d) = true then (s.m.net.fwd.ix d).queue.filter fun h => decide (s.m.lsbNow < h.leaves)
      else (s.m.net.fwd.ix d).queue
    let gone (d : Nat) : List HeldFrame := if s.m.laneSends (dirEgress d) = true then (s.m.net.fwd.ix d).queue.filter fun h => decide (h.leaves ≤ s.m.lsbNow) else []
    let event (h : HeldFrame) : Bool := isEventKind h.frame.ptp
    let rx (c : Instr) (f : Frame) : Prop :=
      let x := (s.m.rxLine n f.line).1
      let through := s.m.laneUp n = true ∧ (s.m.rxLine n f.line).2 = true
      let cnt (m : Mach) (f : Fld) (b : Bool) : Prop := m.get f = if b = true then min (s.m.get f + 1) f.max else s.m.get f
      let fcsGood := f.fcsGood = true ∧ ¬ (f.line.badHere = true ∧ s.m.on (F.NET_PORT_CTRL_FEC n) = true)
      let badLen := f.len < 64 ∨ 9216 < f.len
      let accept := (f.dest = .own ∨ f.dest = .broadcast ∨ f.dest = .subscribedMulticast) ∧
        (f.vid = none ∨ f.vid = some 0 ∨ (s.m.on (F.NET_VLAN_TAG_EN n) = true ∧ f.vid = some (s.m.get (F.NET_VLAN_VID n))))
      let passes := 2 ≤ n ∧ f.dest ≠ .own ∧ s.m.terminated f = false
      let good := through ∧ ¬ badLen ∧ fcsGood
      let untold := ∀ a, f.answer = some a → ∀ b, s.m.neighbour n a = some b → b.st = .resolved
      let marked (a : Nat) := f.ce = some a ∧ f.dest = .own ∧ s.m.get (F.REC_SESS_STATE_PORT a) = n ∧ s.m.isOpen a = true ∧
        ∀ t, (s.m.slot a).cnpTx = some t → t + 50000 ≤ s.m.now
      OnlyFields [F.NET_FEC_CORR_COUNT n, F.NET_FEC_UNCORR_COUNT n, F.NET_BER_CNT_COUNT n, F.NET_EB_CNT_DEL n, F.NET_EB_CNT_INS n, F.NET_LINK_CNT_EB_ERR n]
        { s.m with net := x.net } x ∧ x.get (F.NET_BER_CNT_COUNT n) = min (s.m.get (F.NET_BER_CNT_COUNT n) + f.line.badSync) (F.NET_BER_CNT_COUNT n).max ∧
      ((s.m.rxLine n f.line).2 = false → cnt x (F.NET_LINK_CNT_EB_ERR n) true ∧ (x.netPort n).fill = 16) ∧
      (f.line.drift = [] → 0 < (s.m.netPort n).fill + f.line.inFrame → (s.m.netPort n).fill + f.line.inFrame < 32 → (s.m.rxLine n f.line).2 = true ∧
        (x.netPort n).fill = (s.m.netPort n).fill + f.line.inFrame ∧ cnt x (F.NET_EB_CNT_DEL n) false ∧ cnt x (F.NET_EB_CNT_INS n) false) ∧
      (s.m.laneUp n = false → Completes c s fun m => m = s.m) ∧
      (s.m.laneUp n = true → (s.m.rxLine n f.line).2 = false → Completes c s fun m => m = x) ∧
      (through → (badLen ∨ ¬ fcsGood) → Completes c s fun m =>
        cnt m (F.NET_RX_BAD_FCS n) (decide (¬ fcsGood)) ∧ cnt m (F.NET_RX_BAD_LEN n) (decide badLen) ∧ OnlyFields [F.NET_RX_BAD_FCS n, F.NET_RX_BAD_LEN n] x m) ∧
      (good → ¬ passes → accept → (∀ a, ¬ marked a) → untold → Completes c s fun m =>
        cnt m (F.NET_RX_FRAMES_COUNT n) true ∧ OnlyFields [F.NET_RX_FRAMES_COUNT n] x m) ∧
      (good → accept → untold → ∀ a, marked a → Completes c s fun m => cnt m (F.NET_RX_FRAMES_COUNT n) true ∧
        m.get (F.REC_CNP_CNT_TX) = min (s.m.get F.REC_CNP_CNT_TX + 1) F.REC_CNP_CNT_TX.max ∧ m.slot a = { s.m.slot a with cnpTx := some s.m.now } ∧
        SendsTo n (s.m.slot a).hostAddr 1 x m ∧
        (∀ i, i ≠ a → m.slot i = s.m.slot i) ∧ m = { x with regs := { s.m.regs with act := m.regs.act }, net := m.net, recs := m.recs } ∧
        Keeps [F.NET_RX_FRAMES_COUNT n, F.REC_CNP_CNT_TX, F.NET_TX_FRAMES_COUNT n] x m) ∧
      (∀ a b, good → ¬ passes → accept → f.answer = some a → s.m.neighbour n a = some b → b.st ≠ .resolved → f.ce = none → Completes c s fun m =>
        cnt m (F.NET_RX_FRAMES_COUNT n) true ∧ m.neighbour n a = some { b with st := .resolved, time := s.m.now, waiting := 0 } ∧
        (∀ i h, (i, h) ≠ (n, a) → m.neighbour i h = s.m.neighbour i h) ∧ (b.port = n → b.addr = a → OnlyRecords x m) ∧
        ((∀ i < 64, ¬ (s.m.isOpen i = true ∧ s.m.get (F.REC_SESS_STATE_PORT i) = n)) → (x.netPort n).waiting = 0 → Sends n b.waiting x m)) ∧
      (good → ¬ passes → ¬ accept → Completes c s fun m => cnt m (F.NET_RX_DROP_COUNT n) true ∧ OnlyFields [F.NET_RX_DROP_COUNT n] x m) ∧
      (good → passes → untold → s.m.on F.NET_FWD_CTRL_EN = false → Completes c s fun m =>
        cnt m (F.NET_RX_FRAMES_COUNT n) (decide accept) ∧ OnlyFields [F.NET_RX_FRAMES_COUNT n] x m) ∧
      (good → passes → untold → s.m.on F.NET_FWD_CTRL_EN = true →
        let leftLast (m : Mach) (d : Nat) : Prop := ∀ h, (gone d).getLast? = some h → (m.net.fwd.ix d).last = some (s.m.tcFrame d h)
        let shared (m : Mach) : Prop := cnt m (F.NET_RX_FRAMES_COUNT n) (decide accept) ∧ leftLast m 0 ∧ leftLast m 1 ∧
          (m.net.fwd.ix (1 - k)).queue = still (1 - k) ∧ m = { x with regs := { s.m.regs with act := m.regs.act }, net := m.net } ∧ KeepsOutside [16, 18] x m
        (s.m.laneUp e = false → Completes c s fun m => shared m ∧ cnt m (F.NET_FWD_DROP_DOWN k) true ∧ (m.net.fwd.ix k).queue = still k) ∧
        (s.m.laneUp e = true → 262144 < sumNat ((still k).map fun h => h.frame.len) + f.len → Completes c s fun m =>
          shared m ∧ cnt m (F.NET_FWD_DROP_FULL k) true ∧ (m.net.fwd.ix k).queue = still k) ∧
        (s.m.laneUp e = true → sumNat ((still k).map fun h => h.frame.len) + f.len ≤ 262144 →
          let timed := isEventKind f.ptp; let g := { f with fcsGood := true }; let enters := s.m.rxStamp n f.rx
          let t := ((still k).filter fun h => !timed || event h).foldl (fun a h => max a h.leaves) (s.m.txStamp e f.tx)
          let table := (s.m.net.fwd.ix k).table
          let queued (t : Nat) (sync : Option (Nat × Nat)) (m : Mach) : Prop := shared m ∧ (m.net.fwd.ix k).queue =
            (if timed = true then (still k).filter event ++ [⟨enters, t, g, sync⟩] ++ ((still k).filter fun h => !event h).map fun h => { h with leaves := max h.leaves t }
              else still k ++ [⟨enters, t, g, sync⟩])
          (mode = 0 ∨ (f.ptp ≠ .sync2 ∧ f.ptp ≠ .followUp) → Completes c s fun m => queued t none m ∧ (m.net.fwd.ix k).table = table) ∧
          (mode ≠ 0 → f.ptp = .sync2 → table.length < 64 → Completes c s fun m =>
            queued t none m ∧ (m.net.fwd.ix k).table = table ++ [⟨f.domain, f.source, f.seqId, enters, t, s.m.now⟩]) ∧
          (mode ≠ 0 → f.ptp = .sync2 → 64 ≤ table.length → Completes c s fun m =>
            queued t none m ∧ (m.net.fwd.ix k).table = table ∧ cnt m F.PTP_TC_CNT_TC_FULL true) ∧
          (mode ≠ 0 → f.ptp = .followUp → ∀ x, table.find? (tcMatch f) = some x → Completes c s fun m =>
            queued (max t x.leaves) (some (x.enters, x.leaves)) m ∧ (m.net.fwd.ix k).table = table.erase x) ∧
          (mode ≠ 0 → f.ptp = .followUp → table.find? (tcMatch f) = none → Completes c s fun m =>
            queued t none m ∧ (m.net.fwd.ix k).table = table ∧ cnt m F.PTP_TC_CNT_FU_NOMATCH true)))
    (∀ f, rx (.frameReceive n f) f) ∧ (∀ f, rx (.followUpReceive n f) { f with ptp := .followUp }) ∧
    -- what a frame gains as it leaves
    (∀ d < 2, ∀ h : HeldFrame, let f := h.frame; let out := s.m.tcFrame d h; let e := dirEgress d; let n := 5 - e
      let gain : Int := match f.ptp, h.sync with
        | .sync1, _ => corrOf (s.m.tcResidence f.domain h.enters h.leaves * 1000 +
            ((s.m.asym n + (if mode = 2 then signedOf 32 (s.m.get (F.PTP_LINK_DELAY_PS n)) else 0) : Int) : Rat))
        | .followUp, some (a, b) => corrOf (s.m.tcResidence f.domain a b * 1000 +
            ((s.m.asym n + (if mode = 2 then signedOf 32 (s.m.get (F.PTP_LINK_DELAY_PS n)) else 0) : Int) : Rat))
        | .delayReq, _ => if mode = 2 then 0 else corrOf (s.m.tcResidence f.domain h.enters h.leaves * 1000 - (s.m.asym e : Rat))
        | _, _ => 0
      (mode = 0 ∨ gain = 0 → out = f) ∧ (mode ≠ 0 → out.correction = f.correction + gain ∧ { out with correction := f.correction, bytes := f.bytes, fcs := f.fcs } = f) ∧
      (mode ≠ 0 → gain ≠ 0 → f.bytes ≠ [] → out.fcs = BitVec.ofNat 32 (crc32 out.bytes) ∧
        ∀ p u, ptpPlace f.bytes = some (p, u) → p + 16 ≤ f.bytes.length → out.bytes.length = f.bytes.length ∧
          (out.bytes.drop (p + 8)).take 8 = beBytes 8 (out.correction % 2 ^ 64).toNat ∧
          ∀ ip udp v6, u = some (ip, udp, v6) → ip + 20 ≤ udp → v6 = true ∨ beAtOff f.bytes (udp + 6) 2 ≠ 0 →
            beAtOff out.bytes (udp + 6) 2 = udpSum out.bytes ip udp v6)) ∧
    (∀ dom src seq, let gone (x : TcEntry) : Bool := x.domain == dom && x.source == src && x.seqId == seq
      (∀ x, 2 ≤ n → (s.m.net.fwd.ix k).table.find? gone = some x → Completes (.tcEntryExpire n dom src seq) s fun m =>
        let w := s.m.reachNs (x.made + 1000000000)
        m.net.fwd.ix k = { s.m.net.fwd.ix k with table := (s.m.net.fwd.ix k).table.eraseP gone } ∧
        m.net.fwd.ix (1 - k) = s.m.net.fwd.ix (1 - k) ∧ m = { w with regs := { s.m.regs with act := m.regs.act }, net := m.net } ∧
        Keeps [if k = 0 then F.NET_FWD_LEVEL_P2_P3 else F.NET_FWD_LEVEL_P3_P2] s.m m) ∧
      (n < 2 ∨ (s.m.net.fwd.ix k).table.find? gone = none → Completes (.tcEntryExpire n dom src seq) s fun m => m = s.m)) ∧
    (let queues (w m : Mach) : Prop := (∀ i < 2, (m.net.fwd.ix i).queue = (s.m.net.fwd.ix i).queue ∧ (m.net.fwd.ix i).table = (s.m.net.fwd.ix i).table) ∧
        (s.m.laneSends n = true → (m.netPort n).waiting = 0) ∧ OnlyRecords w m;
      (∀ (pri : Option Nat) (quanta : Nat),
        let honoured := s.m.laneUp n = true ∧ if s.m.on (F.NET_PORT_CTRL_PFC_EN n) = true then pri = some (s.m.get (F.NET_PORT_CTRL_PFC_PRI n)) else pri = none
        (¬ honoured → Completes (.pauseReceive n pri quanta) s fun m => m = s.m) ∧
        (honoured → 0 < quanta → Completes (.pauseReceive n pri quanta) s fun m => (m.netPort n) = { s.m.netPort n with held := quanta, heldAt := s.m.now } ∧
          m.portFree n = false ∧ (∀ i < 4, i ≠ n → m.netPort i = s.m.netPort i) ∧ m.net.fwd = s.m.net.fwd ∧ m = { s.m with net := m.net }) ∧
        (honoured → quanta = 0 → Completes (.pauseReceive n pri quanta) s fun m => (m.netPort n).held = 0 ∧ queues s.m m)) ∧
      ((s.m.netPort n).held = 0 → Completes (.pauseExpire n) s fun m => m = s.m) ∧
      ((s.m.netPort n).held ≠ 0 → Completes (.pauseExpire n) s fun m => (m.netPort n).held = 0 ∧
        queues (s.m.reachNs ((s.m.netPort n).heldAt + ceilDiv ((s.m.netPort n).held * 512 * 10 ^ 9) (max (s.m.lineRate n) 1))) m))

/-- The ordinary clocks (R362 to R366) and the peer delay (R369): a message is for every clock of its domainNumber, in turn, and what it does to each is what
announceTo, syncTo and delayTo give. When a foreign master is qualified is PRESUMED (log entry 30); the stamps' counts are operands, and the minor version without a
master and the peer delay in device time are the model's (log entries 77 and 83); what they time counts from the message before, and one out of place changes nothing
(log entries 1 and 3). -/
def Obligations.PtpClocks : Prop :=
  ∀ (s : State) (d : Nat), d < 4 → s.m.fabricUp = true →
    let c := s.m.oc d; let st := s.m.ocState d; let port := s.m.ocPort d; let pri := s.m.ocPrimary d; let bk := s.m.ocBackup d
    let others (m : Mach) : Prop := ∀ i, i ≠ d → m.oc i = s.m.oc i
    let bad (m : Mach) : Prop := bitOf (m.get F.EVT_PEND) 12 = true
    (∀ dom i, i ∈ s.m.clocksOf dom ↔ i < 4 ∧ s.m.ocState i ≠ 0 ∧ s.m.get (F.CLK_DOM_CTRL_PTP_DOMAIN i) = dom) ∧
    (∀ (dom n : Nat) (a : Announce), Completes (.announceReceive dom n a) s fun m => m = (s.m.clocksOf dom).foldl (fun m i => m.announceTo i n a) s.m) ∧
    (∀ (n : Nat) (x : SyncMsg) (log : Int), Completes (.syncReceive n x log) s fun m => m = (s.m.clocksOf x.domain).foldl (fun m i => m.syncTo i n x log) s.m) ∧
    (∀ (n : Nat) (x : DelayResp), Completes (.delayRespReceive n x) s fun m => m = (s.m.clocksOf x.domain).foldl (fun m i => m.delayTo i n x) s.m) ∧
    (∀ (n : Nat) (a : Announce), n < 4 →
      let m := s.m.announceTo d n a
      let heard := st ≠ 0 ∧ s.m.laneUp n = true ∧ s.m.ocListens d n = true
      let same (f : Foreign) : Bool := f.port == n && f.ann.identity == a.identity
      let fs := c.foreign.filter (fun f => !same f) ++ [⟨n, a, match c.foreign.find? same with | some f => min (f.count + 1) 2 | none => 1⟩]
      let c := { c with foreign := fs, primAt := if s.m.laneUp pri = true ∧ bestMaster pri fs ≠ none ∧ c.primAt = none then some s.m.now else c.primAt }
      (¬ heard → m = s.m) ∧
      (heard → others m) ∧
      (heard → st ≠ 3 → bestMaster port fs = none → m.oc d = c ∧ m = { s.m with ptp := m.ptp }) ∧
      (heard → st ≠ 3 → ∀ b, bestMaster port fs = some b →
        (c.selected.map (·.identity) = some b.identity → m.oc d = { c with selected := some b } ∧ m = { s.m with ptp := m.ptp }) ∧
        (c.selected.map (·.identity) ≠ some b.identity →
          m.oc d = { c with selected := some b, mpdKnown := false, dreqWait := false, last := none, syncAt := none, behind := none } ∧
          m.get (F.PTP_GM_ID_LO_ID d) + 2 ^ 32 * m.get (F.PTP_GM_ID_HI_ID d) = b.identity.toNat ∧ Issues 12 0 0 (evArg d 0 0) s.m m ∧
          Eventful [F.PTP_GM_ID_LO_ID d, F.PTP_GM_ID_HI_ID d] { s.m with ptp := m.ptp } m)) ∧
      (heard → st = 3 → bestMaster n fs = none → m.oc d = c ∧ m = { s.m with ptp := m.ptp }) ∧
      (heard → st = 3 → ∀ b, bestMaster n fs = some b →
        m.ocState d = 1 ∧ m.ocPort d = n ∧ (m.get (F.PTP_OC_STATUS_ON_BACKUP d) = 1 ↔ n ≠ pri) ∧ (m.oc d).selected = some b ∧ (m.oc d).foreign = fs ∧
        (m.oc d).primAt = c.primAt ∧ (m.oc d).first = true ∧
        Eventful [F.PTP_OC_STATUS_STATE d, F.PTP_OC_STATUS_PORT d, F.PTP_OC_STATUS_ON_BACKUP d, F.PTP_COUNTS_FALLBACKS d, F.PTP_GM_ID_LO_ID d, F.PTP_GM_ID_HI_ID d]
          { s.m with ptp := m.ptp } m)) ∧
    (∀ (n : Nat) (x : SyncMsg) (log : Int),
      let m := s.m.syncTo d n x log
      let taken := st ≠ 0 ∧ st ≠ 3 ∧ port = n ∧ s.m.laneUp n = true ∧ c.selected.map (·.identity) = some x.source
      -- how far t2 is past t1 and the correction that ASYM is added to, 2^-16 ns
      let t2 : Nat := s.m.domTime d (((s.m.lsbNow : Int) - x.rx.apart - psLsb (s.m.get (F.PTP_RX_LAT_PS n) + x.rx.var)).toNat)
      let late : Int := timeDiff t2 x.t1 - (x.correction + corrOf (s.m.asym n : Int))
      let c := { c with syncAt := some (s.m.now, log), behind := some late }
      (¬ taken → m = s.m) ∧
      (taken → s.m.pathDelay d = none → m.oc d = c ∧ others m ∧ m = { s.m with ptp := m.ptp }) ∧
      (taken → ∀ delay, s.m.pathDelay d = some delay → let o := psOf (late : Int) - delay
        let stepPs : Nat := s.m.get (F.PTP_SERVO_STEP_NS d) * 1000; let lockPs : Nat := s.m.get (F.PTP_SERVO_LOCK_NS d) * 1000
        let shown : Prop := m.get (F.PTP_OFFSET_PS d) = codeOf 32 (clampInt (-(2 ^ 31)) (2 ^ 31 - 1) o) ∧ m.get (F.PTP_MPD_PS d) = codeOf 32 delay ∧ others m
        let new (o prev : Int) : Nat := codeOf 32 (s.m.domRate d - rateChange o prev (s.m.get (F.PTP_SERVO_KP_SH d)) (s.m.get (F.PTP_SERVO_KI_SH d)) log)
        let left := o - roundAway o 1000 * 1000
        let n := if o.natAbs ≤ lockPs then min (c.inLock + 1) 16 else 0
        let fields := [F.PTP_OFFSET_PS d, F.PTP_MPD_PS d, F.CLK_DOM_RATE_RATE d, F.PTP_COUNTS_STEPS d]
        (st = 4 → shown ∧ m.oc d = { c with last := some o } ∧
          m = { s.m with regs := { s.m.regs with act := m.regs.act }, ptp := m.ptp } ∧ Keeps [F.PTP_OFFSET_PS d, F.PTP_MPD_PS d] s.m m) ∧
        (st = 1 → c.first = false ∨ o.natAbs ≤ stepPs →
          (n ≠ 16 → shown ∧ m.get (F.CLK_DOM_RATE_RATE d) = new o (c.last.getD o) ∧
            m.oc d = { c with first := false, last := some o, inLock := n, overs := 0 } ∧
            m = { s.m with regs := { s.m.regs with act := m.regs.act }, ptp := m.ptp } ∧ Keeps fields s.m m) ∧
          (n = 16 → shown ∧ m.get (F.CLK_DOM_RATE_RATE d) = new o (c.last.getD o) ∧ m.ocState d = 2 ∧ bad m)) ∧
        (st = 1 → c.first = true → stepPs < o.natAbs → n ≠ 16 →
          shown ∧ m.get (F.CLK_DOM_RATE_RATE d) = new left left ∧ m.clk = (s.m.domAdd d (-roundAway o 1000)).clk ∧
          m.get (F.PTP_COUNTS_STEPS d) = min (s.m.get (F.PTP_COUNTS_STEPS d) + 1) (F.PTP_COUNTS_STEPS d).max ∧
          m.oc d = { c with first := false, last := some left, inLock := n, overs := 0, behind := none } ∧
          m = { s.m with regs := { s.m.regs with act := m.regs.act }, ptp := m.ptp, clk := m.clk } ∧ Keeps fields s.m m) ∧
        (st = 2 → o.natAbs ≤ stepPs ∨ c.overs < 3 →
          shown ∧ m.get (F.CLK_DOM_RATE_RATE d) = new o (c.last.getD o) ∧
          m.oc d = { c with first := false, last := some o, inLock := n, overs := if o.natAbs ≤ stepPs then 0 else c.overs + 1 } ∧
          m = { s.m with regs := { s.m.regs with act := m.regs.act }, ptp := m.ptp } ∧ Keeps fields s.m m) ∧
        (st = 2 → stepPs < o.natAbs → 3 ≤ c.overs →
          shown ∧ m.ocState d = 1 ∧ m.clk.doms = (s.m.domAdd d (-roundAway o 1000)).clk.doms ∧ (m.oc d).overs = 0 ∧
          m.get (F.PTP_COUNTS_STEPS d) = min (s.m.get (F.PTP_COUNTS_STEPS d) + 1) (F.PTP_COUNTS_STEPS d).max))) ∧
    (∀ tx : PtpCount,
      let asks := st ≠ 0 ∧ s.m.on (F.PTP_OC_CTRL_DELAY d) = false ∧ c.selected ≠ none ∧ s.m.laneSends port = true
      let w := match c.dreqAt with | some t => s.m.reachNs (t + logNs (signedOf 4 (s.m.get (F.PTP_OC_CTRL_LOG_DREQ d)))) | none => s.m
      let out : Nat := ((w.lsbNow : Int) + tx.apart + psLsb (s.m.get (F.PTP_TX_LAT_PS port) + tx.var)).toNat
      (asks → Completes (.delayReqSend ⟨d, tx⟩) s fun m =>
        m.oc d = { c with dreqWait := true, dreqAt := some w.now, sent := c.selected.map fun a => (2, a.minorVersion), t3 := w.domTime d out,
                          reqCorr := - corrOf (s.m.asym port : Int) } ∧ others m ∧
        (port < 4 → m.netPort port = { s.m.netPort port with tci := s.m.tagOf port }) ∧
        m.get (F.NET_TX_FRAMES_COUNT port) = min (s.m.get (F.NET_TX_FRAMES_COUNT port) + 1) (F.NET_TX_FRAMES_COUNT port).max ∧
        m = { w with regs := { s.m.regs with act := m.regs.act }, ptp := m.ptp, net := m.net } ∧ Keeps [F.NET_TX_FRAMES_COUNT port] s.m m) ∧
      (¬ asks → Completes (.delayReqSend ⟨d, tx⟩) s fun m => m = s.m)) ∧
    (∀ (n : Nat) (x : DelayResp),
      let m := s.m.delayTo d n x
      let heard := c.dreqWait = true ∧ port = n ∧ s.m.laneUp n = true
      let frame : Prop := others m ∧ m = { s.m with regs := { s.m.regs with act := m.regs.act }, ptp := m.ptp } ∧ Keeps [F.PTP_MPD_PS d] s.m m
      (¬ heard → m = s.m) ∧
      (heard → c.behind = none → m.oc d = { c with dreqWait := false } ∧ frame) ∧
      (heard → ∀ late, c.behind = some late → m.oc d = { c with dreqWait := false, mpdKnown := true } ∧ frame ∧
        m.get (F.PTP_MPD_PS d) = codeOf 32 (psOf (((late + (timeDiff x.t4 c.t3 - x.correction) : Int) : Rat) / (2 : Nat))))) ∧
    (let falls := s.m.on (F.PTP_OC_CTRL_BK_EN d) = true ∧ port ≠ bk ∧ s.m.ocHolds d bk = true
      let w := match s.m.laneUp port, c.syncAt with | true, some t => s.m.reachNs (t.1 + 3 * logNs t.2) | _, _ => s.m;
      (st = 0 ∨ st = 3 → Completes (.ptpPortFail d) s fun m => m = s.m) ∧
      (st ≠ 0 → st ≠ 3 → falls → Completes (.ptpPortFail d) s fun m =>
        m.ocPort d = bk ∧ m.get (F.PTP_OC_STATUS_ON_BACKUP d) = 1 ∧ m.ocState d = (if st = 4 then 4 else 1) ∧
        (m.oc d).selected = bestMaster bk c.foreign ∧ bad m ∧ others m ∧
        m.get (F.PTP_COUNTS_FALLBACKS d) = min (s.m.get (F.PTP_COUNTS_FALLBACKS d) + 1) (F.PTP_COUNTS_FALLBACKS d).max ∧
        m.get (F.CLK_DOM_RATE_RATE d) = s.m.get (F.CLK_DOM_RATE_RATE d) ∧ m.now = w.now) ∧
      (st ≠ 0 → st ≠ 3 → ¬ falls → Completes (.ptpPortFail d) s fun m =>
        m.ocState d = (if st = 4 then 4 else 3) ∧ (m.oc d).selected = none ∧ bad m ∧ others m ∧ m.now = w.now ∧
        (st ≠ 2 → m.oc d = { c with selected := none, mpdKnown := false, dreqWait := false, last := none, syncAt := none, behind := none } ∧ Issues 12 3 0 (evArg d 0 0) w m ∧
          Eventful [F.PTP_OC_STATUS_STATE d] { w with ptp := m.ptp } m))) ∧
    (let back := s.m.on (F.PTP_OC_STATUS_ON_BACKUP d) = true ∧ st ≠ 0 ∧ s.m.ocHolds d pri = true ∧ c.primAt ≠ none;
      (back → Completes (.ptpRevert d) s fun m => m.now = (s.m.reachNs (c.primAt.getD 0 + s.m.get (F.PTP_OC_CTRL_REVERT_S d) * 10 ^ 9)).now ∧ m.ocPort d = pri ∧ m.get (F.PTP_OC_STATUS_ON_BACKUP d) = 0 ∧ m.ocState d = (if st = 4 then 4 else 1) ∧
        (m.oc d).selected = bestMaster pri c.foreign ∧ others m) ∧
      (¬ back → Completes (.ptpRevert d) s fun m => m = s.m)) ∧
    (∀ n, n < 4 → let p := s.m.netPort n
      let alone (w m : Mach) : Prop := (∀ i < 4, i ≠ n → m.netPort i = s.m.netPort i) ∧ m.net.refLost = s.m.net.refLost ∧
        m = { w with regs := { s.m.regs with act := m.regs.act }, net := m.net }
      let w := match p.pdAt with | some t => s.m.reachNs (t + logNs (signedOf 4 (s.m.get (F.PTP_PD_CTRL_LOG_PDELAY n)))) | none => s.m
      let runs := s.m.pdelayRuns n = true ∧ s.m.laneSends n = true
      let two := s.m.on (F.PTP_PD_CTRL_PD_1STEP n) = false
      let waits := 2 ≤ n ∧ (s.m.net.fwd.ix (fwdDir n)).queue ≠ []
      let sent (k : Nat) (m : Mach) : Prop := m.get (F.NET_TX_FRAMES_COUNT n) = min (s.m.get (F.NET_TX_FRAMES_COUNT n) + k) (F.NET_TX_FRAMES_COUNT n).max ∧
        Keeps [F.NET_TX_FRAMES_COUNT n] s.m m
      (∀ tx : PtpCount,
        (runs → Completes (.pdelayReqSend ⟨n, tx⟩) s fun m =>
          m.netPort n = { p with pdWait := true, pdAt := some w.now, pdOut := w.txStamp n tx, pdSent := some (2, s.m.pdMinor n), tci := s.m.tagOf n } ∧ sent 1 m ∧
          m.net.fwd = s.m.net.fwd ∧ alone w m) ∧
        (¬ runs → Completes (.pdelayReqSend ⟨n, tx⟩) s fun m => m = s.m)) ∧
      (∀ x : PdelayReq, x.port = n →
        let turn := x.correction + corrOf (s.m.lsbSpan (s.m.rxStamp n x.rx) (s.m.txStamp n x.tx) * (1000 : Nat))
        (runs → Completes (.pdelayReqReceive x) s fun m => m.netPort n = { p with pdTurn := some turn, pdSent := some (2, s.m.pdMinor n), tci := s.m.tagOf n } ∧
          (¬ (two ∧ waits) → m.net.fwd = s.m.net.fwd ∧ sent (if two then 2 else 1) m) ∧ (two ∧ waits → sent 1 m ∧
            m.net.fwd.ix (fwdDir n) = { s.m.net.fwd.ix (fwdDir n) with own := (s.m.net.fwd.ix (fwdDir n)).own + 1 }) ∧ alone s.m m) ∧
        (¬ runs → Completes (.pdelayReqReceive x) s fun m => m = s.m)) ∧
      (∀ x : PdelayResp,
        let delay := roundRat ((s.m.lsbSpan p.pdOut (s.m.rxStamp n x.rx) * (1000 : Nat) - (x.turn : Rat) * (1000 : Nat) / (65536 : Nat)) / (2 : Nat))
        let l := (delay :: p.pdLast).take 8
        (p.pdWait = true → s.m.laneUp n = true → Completes (.pdelayRespReceive n x) s fun m => m.netPort n = { p with pdWait := false, pdLast := l } ∧
          m.get (F.PTP_LINK_DELAY_PS n) = codeOf 32 (roundAway (l.foldl (· + ·) 0) l.length) ∧ Keeps [F.PTP_LINK_DELAY_PS n] s.m m ∧
          m.net.fwd = s.m.net.fwd ∧ alone s.m m) ∧
        (p.pdWait = false ∨ s.m.laneUp n = false → Completes (.pdelayRespReceive n x) s fun m => m = s.m)))

/-- Neighbours (R373) and the opening of a slot (R378 to R380, R393, R395). DEV_QPN, DEV_PSN and the doorbell are free values (log entry 15), DEV_NONCE too (log entry
4). That an unreachable neighbour is asked for again after 60 s, and that NEIGHBOUR_UNREACHABLE stands for the two tries after the first, are the model's choice (log
entry 83); what it times counts from the entry's time, and a command out of place changes nothing (log entries 1 and 3). -/
def Obligations.NeighboursAndConnections : Prop :=
  ∀ s : State,
    let put (e : Neighbour) : List Neighbour := s.m.recs.neighbours.filter (fun f => !(f.port == e.port && f.addr == e.addr)) ++ [e]
    let counted (n : Nat) := [F.NET_TX_FRAMES_COUNT n]
    (∀ (n : Nat) (a : BitVec 128),
      (s.m.hears n = true → s.m.ownAddr n a = true → Completes (.arpRequest n a) s fun m => Sends n 1 s.m m ∧
        m = { s.m with regs := { s.m.regs with act := m.regs.act }, net := m.net, recs := { s.m.recs with answered := s.m.recs.answered + 1 } } ∧ Keeps (counted n) s.m m) ∧
      (s.m.hears n = false ∨ s.m.ownAddr n a = false → Completes (.arpRequest n a) s fun m => m = s.m) ∧
      (∀ e, s.m.hears n = true → s.m.neighbour n a = some e →
        (e.st ≠ .asking → Completes (.neighbourExpire n a) s fun m => let w := s.m.reachNs (e.time + 60000000000)
          Sends n 1 w m ∧ m = { w with regs := { s.m.regs with act := m.regs.act }, net := m.net, recs := { w.recs with neighbours := put { e with st := .asking, time := w.now } } } ∧
          Keeps (counted n) w m) ∧
        (e.st = .asking → Completes (.neighbourUnreachable n a) s fun m => let w := s.m.reachNs (e.time + 3000000000)
          Sends n 2 w m ∧ m = { w with regs := { s.m.regs with act := m.regs.act }, net := m.net, recs := { w.recs with neighbours := put { e with st := .unreachable, time := w.now } } } ∧
          Keeps (counted n) w m)) ∧
      (s.m.hears n = false ∨ s.m.neighbour n a = none ∨ (∃ e, s.m.neighbour n a = some e ∧ e.st = .asking) → Completes (.neighbourExpire n a) s fun m => m = s.m) ∧
      (s.m.hears n = false ∨ s.m.neighbour n a = none ∨ (∃ e, s.m.neighbour n a = some e ∧ e.st ≠ .asking) → Completes (.neighbourUnreachable n a) s fun m => m = s.m)) ∧
    (∀ r : ConnectReq,
      let deaf := s.m.hears r.ethPort = false ∨ s.m.familyUp r.ethPort r.source = false ∨ 2 < r.pmtu
      let repeated := ∃ e ∈ s.m.recs.connects, e.source = r.source ∧ e.qpn = r.hostQpn ∧ s.m.now ≤ e.time + 10000000000
      let toHost (m : Mach) : Prop := SendsTo r.ethPort r.source 1 s.m m
      (deaf → Completes (.connectReq r) s fun m => m = s.m) ∧
      (¬ deaf → repeated → Completes (.connectReq r) s fun m => toHost m ∧
        OnlyFields (counted r.ethPort) { s.m with net := m.net, recs := { s.m.recs with neighbours := m.recs.neighbours } } m) ∧
      (¬ deaf → ¬ repeated →
        let replied (status slot start : Nat) (m : Mach) : Prop := toHost m ∧ m.free = s.m.free + 5 ∧
          ∃ e, m.recs.connects = e :: s.m.recs.connects.filter (fun e => decide (s.m.now ≤ e.time + 10000000000)) ∧ e.source = r.source ∧ e.qpn = r.hostQpn ∧
            e.time = s.m.now ∧ e.status = status ∧ e.slot = slot ∧ e.start = start ∧ e.nonce = Config.nonce s.m.free ∧ (status = 0 → (m.slot slot).psn = e.devPsn)
        (∀ e, s.m.checkConnect r = .inr e → Completes (.connectReq r) s fun m => replied e 0xFF 0 m ∧ m.recs.slots = s.m.recs.slots ∧
          m.get F.REC_REFUSE_CNT_FULL = (if e = 4 then min (s.m.get F.REC_REFUSE_CNT_FULL + 1) F.REC_REFUSE_CNT_FULL.max else s.m.get F.REC_REFUSE_CNT_FULL) ∧
          m.get F.REC_REFUSE_CNT_POLICY = (if e = 3 ∨ e = 4 then s.m.get F.REC_REFUSE_CNT_POLICY
            else min (s.m.get F.REC_REFUSE_CNT_POLICY + 1) F.REC_REFUSE_CNT_POLICY.max) ∧
          Issues 13 2 0 (evArg 0 e 0) s.m m ∧ Eventful [F.NET_TX_FRAMES_COUNT r.ethPort, F.REC_REFUSE_CNT_FULL, F.REC_REFUSE_CNT_POLICY] { s.m with free := m.free, net := m.net } m) ∧
        (∀ plan p, s.m.checkConnect r = .inl plan → s.m.boot.policies[r.policy]? = some p → plan.slot < 64 → let k := plan.slot
          Completes (.connectReq r) s fun m => let x := m.slot k
            replied 0 k x.start m ∧ m.sessState k = 1 ∧ m.get (F.REC_SESS_STATE_SECURE k) = 0 ∧ m.get (F.REC_SESS_STATE_PORT k) = r.ethPort ∧
            (m.get (F.REC_SESS_STATE_ON_ALT k) = 1 ↔ r.ethPort ≠ p.primary) ∧ x.prev = s.m.sessState k ∧ x.hostAddr = r.source ∧ x.hostAlt = r.hostAlt ∧
            x.hostQpn = r.hostQpn ∧ x.rxPsn = r.hostPsn % 2 ^ 24 ∧ x.migReq = false ∧
            x.nonce = Config.nonce s.m.free ∧ x.authOk = false ∧ x.connAt = s.m.now ∧ x.rate = s.m.lineRate r.ethPort ∧
            (plan = .fresh k → x.start = s.m.get F.SYS_BOOT_EPOCH ∧ x.streams = p.slotStreams ∧ x.journal = [] ∧ x.greeted = false) ∧
            (plan = .resume k → x.start = (s.m.slot k).start ∧ x.streams = (s.m.slot k).streams ∧ x.journal = (s.m.slot k).journal ∧ x.k = (s.m.slot k).k) ∧
            (∀ start, plan = .lost k start → x.start = s.m.get F.SYS_BOOT_EPOCH ∧ x.journal.length = p.slotStreams.length ∧ ∀ j ∈ x.journal, j.body.typ = 9) ∧
            (∀ i, i ≠ k → m.slot i = s.m.slot i) ∧ (∀ i < 64, i ≠ k → m.sessState i = s.m.sessState i) ∧
            OnlyRecords { s.m with free := m.free } m))) ∧
    (∀ k, k < 64 → s.m.fabricUp = true → let w := s.m.reachNs ((s.m.slot k).connAt + 1000000000)
      (s.m.sessState k = 1 → (s.m.slot k).prev = 3 → Completes (.helloTimeout k) s fun m =>
        m.sessState k = 3 ∧ m = { w with regs := { s.m.regs with act := m.regs.act } } ∧ KeepsOutside [17] s.m m) ∧
      (s.m.sessState k = 1 → (s.m.slot k).prev ≠ 3 → Completes (.helloTimeout k) s fun m =>
        m.sessState k = 0 ∧ m.slot k = {} ∧ (∀ i, i ≠ k → m.slot i = s.m.slot i) ∧
        m = { w with regs := { s.m.regs with act := m.regs.act }, recs := { s.m.recs with slots := m.recs.slots } } ∧ KeepsOutside [17] s.m m) ∧
      (s.m.sessState k ≠ 1 → Completes (.helloTimeout k) s fun m => m = s.m))

/-- Management commands (R374, R375, R381 to R383, R398, R399). What HELLO answers on an open session, and what becomes of a CMD_SEQ performed too long ago for its
reply to be kept, are the model's choice (log entries 50 and 83); how many SENDs wait is an operand (log entry 50), and one of a slot that takes none changes nothing
(log entry 3). -/
def Obligations.ManagementCommands : Prop :=
  ∀ (s : State) (h : CmdHead), let k := h.slot; let x := s.m.slot k; let port := s.m.get (F.REC_SESS_STATE_PORT k)
    let seq := s.m.seqRule h; let auth := (match s.m.policyOf k with | some p => p.authReq | none => false)
    let only (m : Mach) : Prop := m = { s.m with regs := { s.m.regs with act := m.regs.act }, net := m.net, recs := m.recs } ∧ (∀ i, i ≠ k → m.slot i = s.m.slot i)
    -- a SEND of `len` bytes has been taken
    let took (len : Nat) : Slot := { x with rxPsn := (x.rxPsn + max 1 (packets x.pmtu len)) % 2 ^ 24 }
    let reply (op status : Nat) (body : ReplyBody) : Reply := ⟨op, status, h.cmdSeq, body, x.replyVa.toNat + 512 * (h.cmdSeq % 8), x.replyRk⟩
    -- a reply is written; of the slot the rest is `y`
    let wrote (r : Reply) (y : Slot) (m : Mach) : Prop := m.recs.reply = some (k, r) ∧ SendsTo port x.hostAddr 1 s.m m ∧
      m.slot k = { y with others := x.others ++ [⟨x.sends, none, ⟨r.va, r.rkey, r.bytes⟩⟩], sends := x.sends + 1, psn := (x.psn + 1) % 2 ^ 24,
                          wrote := [⟨r.va, r.rkey, r.bytes⟩], ackAt := if x.owed = true then x.ackAt else s.m.now }
    let stores (r : Reply) (y : Slot) : Slot := { y with cmdFirst := if x.cmdNext = none then h.cmdSeq else x.cmdFirst, cmdNext := some ((h.cmdSeq + 1) % 2 ^ 32),
                                                         replies := (r :: x.replies).take 8 }
    let counted := [F.NET_TX_FRAMES_COUNT port]
    let plain (len op status : Nat) (body : ReplyBody) (m : Mach) : Prop :=
      wrote (reply op status body) (stores (reply op status body) (took len)) m ∧ only m ∧ Keeps counted s.m m
    let kept (op status : Nat) (body : ReplyBody) (m : Mach) : Prop := m.recs.reply = some (k, reply op status body) ∧
      (m.slot k).cmdNext = some ((h.cmdSeq + 1) % 2 ^ 32) ∧ (m.slot k).replies = (reply op status body :: x.replies).take 8
    let stored (len op : Nat) (c : Instr) : Prop :=
      (∀ r, seq = .again r → Completes c s fun m => wrote r (took len) m ∧ only m ∧ Keeps counted s.m m) ∧
      (seq = .old → Completes c s fun m => m.slot k = took len ∧ only m ∧ m.regs = s.m.regs ∧ m.net = s.m.net) ∧
      (seq = .bad → Completes c s fun m => wrote (reply op 2 .empty) (took len) m ∧ only m ∧ Keeps counted s.m m)
    let notReady (c : Instr) : Prop := Completes c s fun m => m.slot k = { x with nak := some (.notReady 640000) } ∧ SendsTo port x.hostAddr 1 s.m m ∧ only m ∧ Keeps counted s.m m
    let arrives (len : Nat) : Prop := s.m.sendArrives k len = true ∧ s.m.isOpen k = true
    let takes (len : Nat) : Prop := arrives len ∧ h.queued < 8
    let gate (len op : Nat) (always : Bool) (c : Instr) : Prop :=
      (¬ arrives len → Completes c s fun m => m = s.m) ∧ (arrives len → 8 ≤ h.queued → notReady c) ∧ (takes len → stored len (h.otherOp.getD op) c) ∧
      (takes len → seq = .perform → auth = true → x.authOk = false → always = false ∨ h.otherOp ≠ none → Completes c s (plain len (h.otherOp.getD op) 4 .empty)) ∧
      (∀ o, h.otherOp = some o → takes len → seq = .perform → auth = false ∨ x.authOk = true → Completes c s (plain len o 2 .empty))
    let runs (len : Nat) (always : Bool) : Prop := takes len ∧ h.otherOp = none ∧ seq = .perform ∧ (auth = false ∨ x.authOk = true ∨ always = true)
    (∀ len, s.m.sendArrives k len = true → len ≤ 4096) ∧
    (x.cmdNext = none → seq = .perform) ∧
    (∀ e, x.cmdNext = some e → (seq = .perform ↔ h.cmdSeq = e) ∧ (∀ r, seq = .again r → r ∈ x.replies ∧ r.cmdSeq = h.cmdSeq)) ∧
    (gate 16 8 true (.ping h) ∧ (runs 16 true → Completes (.ping h) s (plain 16 8 0 (.time s.m.now)))) ∧
    (∀ off, gate 20 5 true (.getCert h off) ∧
      (runs 20 true → Completes (.getCert h off) s (plain 20 5 0 (.cert s.nv.cert.length ((s.nv.cert.drop off).take 256))))) ∧
    (∀ nonce, gate 32 6 false (.attestNow h nonce) ∧ (runs 32 false → Completes (.attestNow h nonce) s fun m =>
      plain 32 6 0 .empty m ∧ ∃ d, m.recs.ready = s.m.recs.ready ++ [d] ∧ d.typ = 10 ∧ d.slot = some k ∧ d.lsb = s.m.lsbNow ∧
        d.bodies = [s.m.attestPayload k s.nv.otp.secVer s.nv.serial.toNat (leNat (nonceBytes nonce))])) ∧
    (∀ (a : Word) (n : Nat), gate 21 3 false (.read h a n) ∧
      (runs 21 false → wordsFit h a.toNat n = false → Completes (.read h a n) s (plain 21 3 2 .empty)) ∧
      (runs 21 false → wordsFit h a.toNat 1 = true → let m1 := (s.m.taken k 21).busRead (s.m.sessionAccess h) a.toNat
        m1.isOpen k = true → m1.slot k = took 21 → Completes (.read h a 1) s (kept 3 (bit m1.bus.err) (.words [m1.bus.data])))) ∧
    (∀ (a : Word) (ws : List Word), let len := 21 + 4 * ws.length
      gate len 4 false (.write h a ws) ∧
      (runs len false → wordsFit h a.toNat ws.length = false → Completes (.write h a ws) s (plain len 4 2 .empty)) ∧
      (∀ w, runs 25 false → wordsFit h a.toNat 1 = true → let m1 := (s.m.taken k 25).busWrite (s.m.sessionAccess h) a.toNat w.toNat
        m1.isOpen k = true → m1.slot k = took 25 → CompletesNv (.write h a [w]) s fun nv m => kept 4 (bit m1.bus.err) .empty m ∧
          (m1.boot.counter ≤ s.m.boot.counter → nv = s.nv) ∧ m = { m1 with regs := { m1.regs with act := m.regs.act }, net := m.net, recs := m.recs } ∧
          Keeps [F.NET_TX_FRAMES_COUNT (m1.get (F.REC_SESS_STATE_PORT k))] m1 m)) ∧
    (gate 16 7 true (.close h) ∧ (runs 16 true → Completes (.close h) s fun m =>
      m.recs.reply = some (k, reply 7 0 .empty) ∧ SendsTo port x.hostAddr 1 s.m m ∧ m.sessState k = 0 ∧ m.slot k = {} ∧ m.get (F.REC_CLOSE_REASON k) = 2 ∧
      Issues 13 1 0 (evArg k 2 0) s.m m ∧
      (∀ i, i ≠ k → m.slot i = s.m.slot i) ∧
      m = { s.m with regs := { s.m.regs with act := m.regs.act }, net := m.net, evt := m.evt, recs := m.recs } ∧ KeepsOutside [2, 16, 17] s.m m)) ∧
    (∀ (i : Nat) (n : BitVec 128) (r t : BitVec 256), gate 97 2 true (.auth h i n r t) ∧
      let tail := leBytes 1 k ++ leBytes 4 x.start
      let good := ∃ key, s.m.boot.mgmtKeys[i]? = some key ∧ Config.ecdsaVerify key.x key.y (Config.sha256 (nonceBytes x.nonce ++ nonceBytes n ++ tail)) r t = true
      (runs 97 true → ¬ good → Completes (.auth h i n r t) s fun m => kept 2 3 .empty m ∧ (m.slot k).authFail = true ∧ (m.slot k).authAt = s.m.now ∧ (m.slot k).authOk = x.authOk ∧
        m.get F.REC_REFUSE_CNT_AUTH = min (s.m.get F.REC_REFUSE_CNT_AUTH + 1) F.REC_REFUSE_CNT_AUTH.max ∧ only m ∧
        Keeps [F.NET_TX_FRAMES_COUNT port, F.REC_REFUSE_CNT_AUTH] s.m m) ∧
      (runs 97 true → good → Completes (.auth h i n r t) s fun m =>
        kept 2 0 (.signature (Config.deviceSign (Config.sha256 (nonceBytes n ++ nonceBytes x.nonce ++ tail)))) m ∧ (m.slot k).authOk = true ∧
        (m.get (F.REC_SESS_STATE_SECURE k) = 1 ↔ ∃ key, s.m.boot.mgmtKeys[i]? = some key ∧ key.secure = true) ∧ OnlyRecords s.m m ∧ (∀ i, i ≠ k → m.slot i = s.m.slot i) ∧
        (auth = false ∨ x.authOk = true → only m ∧ m.recs.ready = s.m.recs.ready ∧ KeepsOutside [16, 17] s.m m) ∧
        (auth = true → x.authOk = false → ∃ d ∈ m.recs.ready, d.typ = 10 ∧ d.slot = some k))) ∧
    (k < 64 → s.m.fabricUp = true →
      (s.m.isOpen k = true → x.authFail = true → Completes (.authFailClose k) s fun m => let w := s.m.reachNs (x.authAt + 1000000)
        m.sessState k = 3 ∧ m.get (F.REC_CLOSE_REASON k) = 3 ∧ m.get (F.REC_SESS_STATE_SECURE k) = 0 ∧ m.slot k = { x with authOk := false, authFail := false } ∧
        Issues 13 1 0 (evArg k 3 0) w m ∧ (∀ i, i ≠ k → m.slot i = s.m.slot i) ∧
        m = { w with regs := { s.m.regs with act := m.regs.act }, evt := m.evt, recs := m.recs } ∧ KeepsOutside [2, 17] s.m m) ∧
      (s.m.isOpen k = false ∨ x.authFail = false → Completes (.authFailClose k) s fun m => m = s.m)) ∧
    (∀ (vs : List (Nat × Nat)) (va : BitVec 64) (rk mask : Word) (rings : List HelloRing), let c := Instr.hello h vs va rk mask rings
      let len := 56 + 32 * rings.length
      let heard := s.m.sendArrives k len = true ∧ s.m.sessState k = 1 ∧ h.otherOp = none
      let first := heard ∧ h.queued < 8
      let fit := 1 ≤ vs.length ∧ vs.length ≤ 4
      let answer (status : Nat) (body : ReplyBody) : Reply := ⟨1, status, h.cmdSeq, body, va.toNat + 512 * (h.cmdSeq % 8), rk⟩
      let given : Slot := { took len with replyVa := va, replyRk := rk }
      let refused (status : Nat) (m : Mach) : Prop := m.recs.reply = some (k, answer status .empty) ∧ SendsTo port x.hostAddr 1 s.m m ∧
        m.sessState k = (if x.prev = 3 then 3 else 0) ∧
        (x.prev = 3 → (m.slot k).journal = x.journal ∧ (m.slot k).greeted = x.greeted) ∧ only m ∧ KeepsOutside [16, 17] s.m m
      (s.m.sendArrives k len = false ∨ (s.m.isOpen k = false ∧ h.otherOp ≠ none) → Completes c s fun m => m = s.m) ∧
      (s.m.isOpen k = true → gate len 1 true c ∧ (runs len true → Completes c s (plain len 1 2 .empty))) ∧
      (heard → 8 ≤ h.queued → notReady c) ∧
      (first → (∀ r, seq = .again r → Completes c s fun m => wrote { r with va := va.toNat + 512 * (h.cmdSeq % 8), rkey := rk } given m ∧ only m ∧ Keeps counted s.m m) ∧
        (seq = .old → Completes c s fun m => m.slot k = given ∧ only m ∧ m.regs = s.m.regs ∧ m.net = s.m.net) ∧
        (seq = .bad → Completes c s fun m => wrote (answer 2 .empty) given m ∧ only m ∧ Keeps counted s.m m)) ∧
      (first → seq = .perform → ¬ fit → Completes c s (refused 2)) ∧
      (first → seq = .perform → fit → chooseMinor vs = none → Completes c s fun m => refused 5 m ∧
        m.get F.REC_REFUSE_CNT_VERSION = min (s.m.get F.REC_REFUSE_CNT_VERSION + 1) F.REC_REFUSE_CNT_VERSION.max) ∧
      (∀ minor, first → seq = .perform → fit → chooseMinor vs = some minor →
        (ringsFit x.streams rings = false → Completes c s (refused 2)) ∧
        (ringsFit x.streams rings = true → x.greeted = true → ringsSame x.streams rings = false → Completes c s (refused 6)) ∧
        (ringsFit x.streams rings = true → (x.greeted = false ∨ ringsSame x.streams rings = true) → Completes c s fun m =>
          m.isOpen k = true ∧ (m.slot k).greeted = true ∧ (m.slot k).minor = minor ∧ (m.slot k).mask = mask.toNat ∧ (m.slot k).replyVa = va ∧
          (∃ ps, m.recs.reply = some (k, answer 0 (.hello 1 minor x.start (seqBase x.start) ps)) ∧ (x.greeted = false → ps = rings.map (·.ci))) ∧
          (m.slot k).cmdNext = some ((h.cmdSeq + 1) % 2 ^ 32) ∧
          (x.greeted = false → (m.slot k).streams.map (·.ci) = rings.map (·.ci)) ∧
          (x.greeted = false → (∀ j ∈ x.journal, j.sent = none) → ∀ j ∈ (m.slot k).journal, j.body.minor = minor ∧
            ((m.slot k).streams.getD j.body.stream { typ := 0 }).refused = false) ∧
          bitOf (m.get F.EVT_PEND) 13 = true ∧ (x.greeted = false ∨ MemorySound s.m → Issues 13 0 0 (evArg k 0 0) s.m m) ∧
          (auth = false → ∃ d ∈ m.recs.ready, d.typ = 10 ∧ d.slot = some k) ∧ (∀ i, i ≠ k → m.slot i = s.m.slot i) ∧ OnlyRecords s.m m)))

/-- The transport of a session (R374 to R376, R383 to R386, R397). How many packets a write is in is Table 16-3's path MTU; how many an RDMA acknowledgement covers is an
operand that counts writes, and a doorbell of a stream that the slot lacks is not counted (log entry 83). The ACK timeout and the rate's recovery count from the times
that the slot keeps, and a command that finds no open session changes nothing (log entries 1 and 3); the other path's address is log entry 83's. -/
def Obligations.Transport : Prop :=
  ∀ (s : State) (k : Nat), k < 64 → s.m.fabricUp = true → let x := s.m.slot k; let opened := s.m.isOpen k = true; let port := s.m.get (F.REC_SESS_STATE_PORT k)
    let heard := opened ∧ s.m.hears port = true
    let bodies (l : List JRec) : List Rec := l.map (·.body)
    let others (m : Mach) : Prop := ∀ i, i ≠ k → m.slot i = s.m.slot i
    let only (w m : Mach) : Prop := others m ∧
      m = { w with regs := { s.m.regs with act := m.regs.act }, net := m.net, recs := { s.m.recs with slots := m.recs.slots, neighbours := m.recs.neighbours } }
    let w := s.m.reachNs (x.ackAt + 4096 * 2 ^ s.m.get F.REC_CTRL_TIMEOUT)
    let toHost (n : Nat) (w m : Mach) : Prop := SendsTo port x.hostAddr n w m
    -- the streams that may be written: until AUTH succeeds, that of the events
    let open_ (i : Nat) : Bool := !s.m.authWait k || i == 0
    let owing := x.journal.filter fun r => r.sent.isSome && open_ r.body.stream
    let again := x.again open_
    let resent (w m : Mach) : Prop := (m.slot k).wrote = again.map (·.2) ∧
      m.get F.REC_RESEND_CNT_COUNT = min (s.m.get F.REC_RESEND_CNT_COUNT + owing.length) F.REC_RESEND_CNT_COUNT.max ∧
      toHost (sumNat (owing.map fun r => packets x.pmtu r.body.len) + (again.length - owing.length)) w m ∧
      ∀ a, a / 0x200000 ∉ [0, 15] → a ∉ [F.REC_RESEND_CNT_COUNT.key, (F.NET_TX_FRAMES_COUNT port).key] → mapGet 0 m.regs.act a = mapGet 0 s.m.regs.act a
    let fails (w : Mach) (c : Instr) : Prop := ∀ p, s.m.policyOf k = some p →
      let other := if s.m.on (F.REC_SESS_STATE_ON_ALT k) = true then some p.primary else p.alt
      let frame (m : Mach) : Prop := others m ∧ OnlyRecords w m
      (∀ n, other = some n → s.m.laneUp n = true → Completes c s fun m =>
        m.isOpen k = true ∧ m.get (F.REC_SESS_STATE_PORT k) = n % 4 ∧ (m.get (F.REC_SESS_STATE_ON_ALT k) = 1 ↔ s.m.on (F.REC_SESS_STATE_ON_ALT k) = false) ∧
        (m.slot k).tries = 0 ∧ (m.slot k).migReq = true ∧ (x.hostAlt ≠ 0 → (m.slot k).hostAddr = x.hostAlt ∧ (m.slot k).hostAlt = x.hostAddr) ∧
        (x.hostAlt = 0 → (m.slot k).hostAddr = x.hostAddr) ∧
        m.get F.REC_FAILOVER_CNT_FAILOVER = min (s.m.get F.REC_FAILOVER_CNT_FAILOVER + 1) F.REC_FAILOVER_CNT_FAILOVER.max ∧
        bitOf (m.get F.EVT_PEND) 11 = true ∧ (MemorySound s.m → Issues 11 4 0 (evArg k 0 0) w m ∧ bodies (m.slot k).journal = bodies x.journal) ∧ frame m) ∧
      (other = none ∨ (∃ n, other = some n ∧ s.m.laneUp n = false) → Completes c s fun m =>
        m.sessState k = 3 ∧ m.get (F.REC_CLOSE_REASON k) = 1 ∧ (m.slot k).authOk = false ∧ Issues 13 1 0 (evArg k 1 0) w m ∧
        bodies (m.slot k).journal = bodies x.journal ∧ frame m)
    let other (stream : Option Nat) (w : HostWrite) (y : Slot) : Slot := { y with
      others := x.others ++ [⟨x.sends, stream, w⟩], sends := x.sends + 1, psn := (x.psn + 1) % 2 ^ 24, wrote := [w], ackAt := if x.owed = true then x.ackAt else s.m.now }
    -- what is sent again: every record and other write of those streams that the host has not accepted, at its old place, in the order of sending
    again.Pairwise (fun a b => a.1 ≤ b.1) ∧
    (∀ r p, r ∈ x.journal → r.sent = some p → open_ r.body.stream = true →
      let t := x.streams.getD r.body.stream { typ := 0 }
      (r.ord, (⟨t.ringVa.toNat + p % 2 ^ t.ringLog2, t.rkey, r.body.bytes⟩ : HostWrite)) ∈ again) ∧
    (∀ o ∈ x.others, (∀ i, o.stream = some i → open_ i = true) → (o.ord, o.write) ∈ again) ∧
    (∀ (op : HostOp) (ci : Nat),
      let takes := heard ∧ x.greeted = true; let took : Slot := { x with rxPsn := (x.rxPsn + max 1 (packets x.pmtu 8)) % 2 ^ 24 }
      (¬ takes → Completes (.doorbellWrite k op ci) s fun m => m = s.m) ∧
      (takes → (∀ i, op ≠ .index i) → Completes (.doorbellWrite k op ci) s fun m =>
        m.slot k = { x with nak := some .remoteAccess } ∧ toHost 1 s.m m ∧ only s.m m ∧ Keeps [F.NET_TX_FRAMES_COUNT port] s.m m) ∧
      (∀ i, takes → op = .index i → let t := x.streams.getD i { typ := 0 }
        (x.streams.length ≤ i → Completes (.doorbellWrite k op ci) s fun m => m.slot k = took ∧ only s.m m ∧ m.regs = s.m.regs ∧ m.net = s.m.net) ∧
        (i < x.streams.length → t.ci ≤ ci → ci ≤ t.p → Completes (.doorbellWrite k op ci) s fun m =>
          ((m.slot k).streams.getD i { typ := 0 }).ci = ci ∧ (m.slot k).rxPsn = took.rxPsn ∧ bodies (m.slot k).journal = bodies (dropConsumed i ci x.journal) ∧
          only s.m m ∧ KeepsOutside [16, 17] s.m m) ∧
        (i < x.streams.length → ci < t.ci ∨ t.p < ci → Completes (.doorbellWrite k op ci) s fun m =>
          m.get F.REC_FAILOVER_CNT_CI_BAD = min (s.m.get F.REC_FAILOVER_CNT_CI_BAD + 1) F.REC_FAILOVER_CNT_CI_BAD.max ∧ m.slot k = took ∧ only s.m m ∧
          m.net = s.m.net ∧ Keeps [F.REC_FAILOVER_CNT_CI_BAD] s.m m))) ∧
    (∀ n,
      (heard → Completes (.rdmaAck k n) s fun m => (m.slot k).tries = 0 ∧ bodies (m.slot k).journal = bodies (x.accept n).journal ∧
        ((m.slot k).ackAt = s.m.now) ∧ only s.m m ∧ KeepsOutside [16, 17] s.m m) ∧
      (¬ heard → Completes (.rdmaAck k n) s fun m => m = s.m)) ∧
    (∀ r ∈ x.journal, ∀ n, r ∉ (x.accept n).journal → r.sent.isSome = true) ∧
    (¬ (opened ∧ s.m.laneUp port = true ∧ x.owed = true) → Completes (.ackTimeout k) s fun m => m = s.m) ∧
    (opened → s.m.laneUp port = true → x.owed = true → x.tries + 1 < s.m.get F.REC_CTRL_RETRY → Completes (.ackTimeout k) s fun m =>
      (m.slot k).tries = x.tries + 1 ∧ (m.slot k).ackAt = w.now ∧
      (MemorySound s.m → m.slot k = { x with tries := x.tries + 1, ackAt := w.now, wrote := (m.slot k).wrote } ∧ resent w m) ∧
      others m ∧ OnlyRecords w m) ∧
    (opened → s.m.laneUp port = true → x.owed = true → s.m.get F.REC_CTRL_RETRY ≤ x.tries + 1 → fails w (.ackTimeout k)) ∧
    (opened → fails s.m (.sessionPathFail k)) ∧ (¬ opened → Completes (.sessionPathFail k) s fun m => m = s.m) ∧
    (heard → Completes (.sequenceNak k) s fun m => (m.slot k).ackAt = s.m.now ∧
      (MemorySound s.m → m.slot k = { x with ackAt := s.m.now, wrote := (m.slot k).wrote } ∧ resent s.m m) ∧ others m ∧ OnlyRecords s.m m) ∧
    (¬ heard → Completes (.sequenceNak k) s fun m => m = s.m) ∧
    (heard → Completes (.cnpReceive k) s fun m =>
      m.get F.REC_CNP_CNT_RX = min (s.m.get F.REC_CNP_CNT_RX + 1) F.REC_CNP_CNT_RX.max ∧ only s.m m ∧ Keeps [F.REC_CNP_CNT_RX] s.m m ∧
      ((∀ t, x.cnpAt = some t → t + 50000 ≤ s.m.now) → m.slot k = { x with rate := max (x.rate / 2) 100000000, cnpAt := some s.m.now, rateAt := s.m.now }) ∧
      (∀ t, x.cnpAt = some t → s.m.now < t + 50000 → m.slot k = { x with rateAt := s.m.now })) ∧
    (¬ heard → Completes (.cnpReceive k) s fun m => m = s.m) ∧
    (opened → let line := if s.m.on (F.NET_PORT_CTRL_SPEED port) = true then 25000000000 else 10000000000
      Completes (.rateRecovery k) s fun m => let w := s.m.reachNs (x.rateAt + 1000000)
        m.slot k = { x with rate := min line (x.rate + line / 16), rateAt := w.now } ∧ only w m ∧ m.regs = w.regs) ∧
    (¬ opened → Completes (.rateRecovery k) s fun m => m = s.m) ∧
    (∀ i, let t := x.streams.getD i { typ := 0 }; let moved := s.m.canSend k = true ∧ i < x.streams.length ∧ t.pi < t.p
      (moved → Completes (.piWrite k i) s fun m =>
        m.slot k = other (some i) ⟨t.piVa.toNat, t.rkey, leBytes 8 t.p⟩ { x with streams := (m.slot k).streams } ∧
        ((m.slot k).streams.getD i { typ := 0 }) = { t with pi := t.p } ∧ toHost 1 s.m m ∧ only s.m m ∧ Keeps [F.NET_TX_FRAMES_COUNT port] s.m m) ∧
      (¬ moved → Completes (.piWrite k i) s fun m => m = s.m))

/-- Records into journals (R383, R388, R393, R396), housekeeping (R390) and UDP (R400). A UDP record waits while its port is not free or its host's neighbour is not
resolved (log entry 83); the period's end and a record's production come when their commands come (log entries 1 and 50), and those that find nothing to do change
nothing (log entry 3). -/
def Obligations.Records : Prop :=
  ∀ s : State, s.m.fabricUp = true →
    let bodies (l : List JRec) : List Rec := l.map (·.body)
    (s.m.recs.ready = [] → Completes .recordProduce s fun m => m = s.m) ∧
    (∀ d rest, s.m.recs.ready = d :: rest → Completes .recordProduce s fun m =>
      (∃ more, m.recs.ready = rest ++ more) ∧ OnlyRecords s.m m ∧
      ∀ k < 64, let x := s.m.slot k; let quota := (match s.m.policyOf k with | some p => p.jrnKib * 1024 | none => 0)
        (s.m.producing k = false → m.slot k = x) ∧
        (s.m.producing k = true → (∀ t ∈ x.streams, s.m.wants k t d = false) → bodies (m.slot k).journal = bodies x.journal ∧ (m.slot k).k = x.k) ∧
        (∀ i t, s.m.producing k = true → x.streams[i]? = some t → s.m.wants k t d = true → (∀ j u, j ≠ i → x.streams[j]? = some u → s.m.wants k u d = false) →
          let typ := if d.gap = true then 9 else d.typ; let small := typ = 6 ∨ typ = 9
          let r := s.m.formRec k i typ d (d.flags + (formBody t d).2) (formBody t d).1
          let fits := x.use + r.len + (if small then 0 else 65536) ≤ quota
          let lacks : Prop := ∃ u, (m.slot k).streams[i]? = some u ∧ u.missed = some (widen t.missed d)
          (fits → (small ∨ x.paused = false) → bodies (m.slot k).journal = bodies x.journal ++ [r] ∧ (m.slot k).k = x.k + 1 ∧ r.seq = seqBase x.start + x.k) ∧
          (¬ fits ∨ (¬ small ∧ x.paused = true) → bodies (m.slot k).journal = bodies x.journal ∧ (m.slot k).k = x.k ∧ lacks) ∧
          (¬ fits → ¬ small → x.paused = false → (m.slot k).paused = true ∧ bitOf (m.get F.EVT_PEND) 10 = true))) ∧
    (∀ k, k < 64 → let x := s.m.slot k; let quota := (match s.m.policyOf k with | some p => p.jrnKib * 1024 | none => 0)
      let due := (x.paused = true ∨ ∃ t ∈ x.streams, t.missed.isSome = true) ∧ 4 * x.use ≤ 3 * quota
      (due → Completes (.journalResume k) s fun m => (m.slot k).paused = false ∧ (∀ t ∈ (m.slot k).streams, t.missed = none) ∧
        (∃ gaps, bodies (m.slot k).journal = bodies x.journal ++ gaps ∧ gaps.length = (x.streams.filter (·.missed.isSome)).length ∧ ∀ g ∈ gaps, g.typ = 9) ∧
        (∀ i, i ≠ k → m.slot i = s.m.slot i) ∧ OnlyRecords s.m m) ∧
      (¬ due → Completes (.journalResume k) s fun m => m = s.m)) ∧
    (∀ ms, let ns := ms * 1000000
      (0 < ms → ms ≤ 65535 → Completes (.housekeepingPeriodEnd ms) s fun m =>
        ∃ d, m = { s.m with recs := { s.m.recs with ready := s.m.recs.ready ++ [d] } } ∧ d.typ = 7 ∧ d.period = ms ∧ d.bodies = [s.m.hkPayload] ∧
          d.lsb = s.m.lsbAt (s.m.now / ns * ns)) ∧
      (ms = 0 ∨ 65535 < ms → Completes (.housekeepingPeriodEnd ms) s fun m => m = s.m)) ∧
    (∀ (r : Rec) (i : Nat), i < ceilDiv r.len 8192 →
      r.fragments[i]? = some (leBytes 4 r.seq ++ leBytes 2 i ++ leBytes 2 (ceilDiv r.len 8192) ++ (r.bytes.drop (8192 * i)).take 8192)) ∧
    (∀ (p : Nat) (busy : Bool), let waiting := s.m.recs.udpReady.find? fun e => e.1 == p
      (waiting = none ∨ s.m.boot.policies[p]? = none → Completes (.udpRecordSend p busy) s fun m => m = s.m) ∧
      (∀ e pol, waiting = some e → s.m.boot.policies[p]? = some pol →
        let sends := pol.udp = true ∧ s.m.on F.REC_CTRL_UDP_EN = true
        let free := s.m.portFree pol.primary = true; let reached := s.m.reaches pol.primary pol.host = true
        let m0 := s.m.udpSlot p pol; let x := m0.slot (64 + p); let n := (x.streams.filter fun t => m0.wants (64 + p) t e.2).length
        (¬ sends → Completes (.udpRecordSend p busy) s fun m =>
          m = { s.m with recs := { s.m.recs with udpReady := s.m.recs.udpReady.erase e, udpOut := [] } }) ∧
        (sends → ¬ free → Completes (.udpRecordSend p busy) s fun m => m = s.m) ∧
        (sends → free → ¬ reached → Completes (.udpRecordSend p busy) s fun m => SendsTo pol.primary pol.host 0 s.m m ∧
          OnlyFields [F.NET_TX_FRAMES_COUNT pol.primary] { s.m with net := m.net, recs := { s.m.recs with neighbours := m.recs.neighbours } } m) ∧
        (sends → free → reached → Completes (.udpRecordSend p busy) s fun m =>
          m.recs.udpReady = s.m.recs.udpReady.erase e ∧ m.recs.ready = s.m.recs.ready ∧ (∀ i, i ≠ 64 + p → m.slot i = s.m.slot i) ∧
          (busy = true → (m.slot (64 + p)).k = x.k + n ∧ m.recs.udpOut = [] ∧ m.net = s.m.net ∧
            (n ≠ 0 → m.get F.REC_UDP_DROP_COUNT = min (s.m.get F.REC_UDP_DROP_COUNT + n) F.REC_UDP_DROP_COUNT.max)) ∧
          (busy = false → m.get F.REC_UDP_DROP_COUNT = s.m.get F.REC_UDP_DROP_COUNT ∧ ((∀ t ∈ x.streams, t.udpGap = none) → (m.slot (64 + p)).k = x.k + n) ∧
            ∀ i t, x.streams[i]? = some t → m0.wants (64 + p) t e.2 = true → n = 1 → t.udpGap = none →
              let r := m0.formRec (64 + p) i (if e.2.gap = true then 9 else e.2.typ) e.2 (e.2.flags + (formBody t e.2).2) (formBody t e.2).1
              r.seq = seqBase x.start + x.k ∧ m.recs.udpOut = r.fragments.map (fun b => ⟨pol.host, pol.udpPort, b⟩) ∧
              SendsTo pol.primary pol.host (ceilDiv r.len 8192) s.m m) ∧
          m = { s.m with regs := { s.m.regs with act := m.regs.act }, net := m.net, recs := m.recs } ∧ KeepsOutside [16, 17] s.m m)))

/-- On-command calibration (R413 to R418). What the scopes measure is relative to the coefficients in force (log entry 71); scope 6 and the DAC's scope wait for the
injections of R168 (log entry 65); an ended scope brings device time to its end (log entry 1), and one out of turn, or a command that is not due, changes nothing
(log entry 3). -/
def Obligations.CalibrationRuns : Prop :=
  ∀ s : State, let c := s.m.cal; let busy := c.scope ≠ 0
    let ended (reason : Nat) (base m : Mach) : Prop :=
      m.cal = { c with scope := 0, todo := [], result := [] } ∧ m.get F.CAL_CMD_STATUS_REASON = reason ∧ m.get F.CAL_CMD_STATUS_STATE = 0 ∧
      m.get F.CAL_STATUS_DAC_BUSY = 0 ∧ Issues 17 2 0 (evArg 0 reason 0) base m ∧
      m = { base with regs := { s.m.regs with act := m.regs.act }, cal := m.cal, acq := m.acq, hkc := m.hkc, evt := m.evt, recs := m.recs } ∧
      KeepsOutside [2, 7, 10, 19] s.m m
    let times : List Nat := [20, 80, 80, 30, 30, 40, 10, 150, s.m.get F.CAL_FREQ_GATE_MS]
    let before (n : Nat) : List Nat := match n with | 1 => [0] | 2 => [0] | 3 => [0, 1] | 4 => [0, 2] | 5 => [0, 1, 2, 3, 4] | _ => []
    let upTo (n : Nat) : Mach := s.m.reachNs ((if n = 0 ∨ n = 6 then s.m.hkc.calAt
      else (c.ends.filter fun e => (before n).contains e.1).foldl (fun t e => max t e.2) c.startAt) + times.getD n 0 * 1000000)
    let ends (n : Nat) (found : List (Nat × Nat × Int)) (m : Mach) : Prop :=
      m.cal = { c with todo := c.todo.filter (· != n), result := c.result ++ found, ends := c.ends ++ [(n, (upTo n).now)] } ∧ m.now = (upTo n).now ∧ bitOf (m.get F.CAL_CMD_STATUS_DONE) n = true
    let quiet (n : Nat) (m : Mach) : Prop := m = { upTo n with regs := { s.m.regs with act := m.regs.act }, cal := m.cal, acq := m.acq, hkc := m.hkc } ∧ KeepsOutside [7, 10, 19] s.m m
    let ints (l : List Nat) : List Int := l.map fun (x : Nat) => (x : Int)
    (∀ (who : Master) (w : Word), MayAccess s.m who F.CAL_CMD_KEY.addr → let scope := bitsOf w.toNat 8 0
      let asked := bitsOf w.toNat 31 16 = 0x5AFE ∧ scope ≠ 0
      let portRuns := ((bitOf scope 1 = true ∨ bitOf scope 3 = true) ∧ s.m.running .A = true) ∨ ((bitOf scope 2 = true ∨ bitOf scope 4 = true) ∧ s.m.running .B = true)
      let ramanRuns := bitOf scope 5 = true ∧ (s.m.ramanOn .A = true ∨ s.m.ramanOn .B = true)
      let refused (r : Nat) (m : Mach) : Prop := m.get F.CAL_CMD_STATUS_REASON = r ∧ OnlyFields [F.CAL_CMD_STATUS_REASON] s.m.done m
      (¬ asked → Completes (.calCommand who w) s fun m => m = s.m.done) ∧
      (asked → busy → Completes (.calCommand who w) s (refused 1)) ∧
      (asked → ¬ busy → portRuns → Completes (.calCommand who w) s (refused 2)) ∧
      (asked → ¬ busy → ¬ portRuns → ramanRuns → Completes (.calCommand who w) s (refused 3)) ∧
      (asked → ¬ busy → ¬ portRuns → ¬ ramanRuns → bitOf scope 8 = true → s.m.qualified 5 = false → Completes (.calCommand who w) s (refused 4)) ∧
      (asked → ¬ busy → ¬ portRuns → ¬ ramanRuns → bitOf scope 8 = true → s.m.qualified 5 = true → s.m.get F.CLK_REG_STATUS_STATE ≠ 0 →
        Completes (.calCommand who w) s (refused 5)) ∧
      (asked → ¬ busy → ¬ portRuns → ¬ ramanRuns → (bitOf scope 8 = true → s.m.qualified 5 = true ∧ s.m.get F.CLK_REG_STATUS_STATE = 0) →
        Completes (.calCommand who w) s fun m =>
          m.cal = { c with startAt := s.m.now, ends := [], scope := scope, todo := (List.range 9).filter (fun n => bitOf scope n), dest := bitsOf w.toNat 14 12, result := [] } ∧
          m.get F.CAL_CMD_STATUS_REASON = 0 ∧ m.get F.CAL_CMD_STATUS_DONE = 0 ∧ (m.get F.CAL_STATUS_DAC_BUSY = 1 ↔ scope % 64 ≠ 0) ∧
          Issues 17 0 0 0 s.m m ∧
          m = { s.m.done with regs := { s.m.regs with act := m.regs.act }, cal := m.cal, acq := m.acq, hkc := m.hkc, evt := m.evt, recs := m.recs } ∧
          KeepsOutside [0, 2, 7, 19] s.m m)) ∧
    (∀ (who : Master) (w : Word), MayAccess s.m who F.CAL_ABORT_KEY.addr → let asked := bitsOf w.toNat 31 16 = 0x5AFE ∧ bitOf w.toNat 0 = true
      (asked → busy → Completes (.calAbort who w) s (ended 8 s.m.done)) ∧ (¬ asked ∨ ¬ busy → Completes (.calAbort who w) s fun m => m = s.m.done)) ∧
    (s.m.fabricUp = true →
      (∀ x : DacMeas, let ref : Int := s.m.get F.CAL_REF_UV_UV; let turn := s.m.scopeTurn 0 = true ∧ x.dHi ≠ x.dLo
        let off := 2 * ref < 100 * (x.refUv - ref).natAbs ∨ x.cR = x.c0
        let volt (k : Int) : Rat := (ref : Rat) * ((k - x.c0 : Int) : Rat) / ((x.cR - x.c0 : Int) : Rat)
        let gain : Rat := (volt x.cH - volt x.cL) / ((x.dHi - x.dLo : Int) : Rat)
        (¬ turn → Completes (.dacScope x) s fun m => m = s.m) ∧
        (turn → off → Completes (.dacScope x) s (ended 6 (upTo 0))) ∧
        (turn → ¬ off → 32 < x.rms16 → Completes (.dacScope x) s (ended 7 (upTo 0))) ∧
        (turn → ¬ off → x.rms16 ≤ 32 → Completes (.dacScope x) s fun m => m.get F.CAL_TRACE_REF_UV = codeOf 32 x.refUv ∧ quiet 0 m ∧
          ends 0 [(0x848, 4, clampInt 0 (2 ^ 32 - 1) (roundRat (gain * (65536 : Nat)))),
            (0x84C, 4, clampInt (-(2 ^ 31)) (2 ^ 31 - 1) (roundRat (volt x.cL - gain * (x.dLo : Rat))))] m)) ∧
      (∀ (p : Port) (l : List (SliceMeas × Bool)), let n := 1 + portIx p; let turn := s.m.scopeTurn n = true ∧ l.length = 68
        (¬ turn → Completes (.adcScope p l) s fun m => m = s.m) ∧
        (turn → Completes (.adcScope p l) s fun m => ends n (sliceResults false (68 * portIx p) l) m ∧
          ((∀ x ∈ l, measCause x.1.ofs x.1.gain x.1.skew x.2 = 0) → quiet n m))) ∧
      (∀ (p : Port) (g : List Nat) (iq : List Int), let i := portIx p; let turn := s.m.scopeTurn (3 + i) = true ∧ g.length = 16 ∧ iq.length = 6
        (¬ turn → Completes (.cfeScope p g iq) s fun m => m = s.m) ∧
        (turn → Completes (.cfeScope p g iq) s fun m => quiet (3 + i) m ∧
          ends (3 + i) (runOf 4 4 (0x500 + 64 * i) (ints g) ++ runOf 4 4 (0x600 + 16 * i) (iq.take 4) ++ runOf 4 4 (0x620 + 8 * i) (iq.drop 4)) m)) ∧
      (∀ (l : List (SliceMeas × Bool)) (g : List Nat), let turn := s.m.scopeTurn 5 = true ∧ l.length = 10 ∧ g.length = 32
        (¬ turn → Completes (.rfeScope l g) s fun m => m = s.m) ∧
        (turn → Completes (.rfeScope l g) s fun m => ends 5 (sliceResults true 136 l ++ runOf 4 4 0x680 (ints g)) m ∧
          ((∀ x ∈ l, measCause x.1.ofs x.1.gain 0 x.2 = 0) → quiet 5 m))) ∧
      (∀ (rf z : Int) (os : List Int), let turn := s.m.scopeTurn 6 = true ∧ z < rf ∧ os.length = 32
        (¬ turn → Completes (.hkcScope rf z os) s fun m => m = s.m) ∧
        (turn → Completes (.hkcScope rf z os) s fun m => quiet 6 m ∧
          ends 6 (runOf 4 8 0x740 ((List.range 32).map fun ch => clampInt 0 (2 ^ 32 - 1)
            (roundAway (s.m.factoryAt (coefU32 (0x740 + 8 * ch) 16777216) s.m.calTemp * s.m.get F.CAL_REF_UV_UV) (rf - z).toNat)) ++ runOf 4 8 0x744 os) m)) ∧
      (∀ es : List (List Nat), let turn := s.m.scopeTurn 7 = true ∧ es.length = 8 ∧ ∀ l ∈ es, l.length = 1024
        (¬ turn → Completes (.tisScope es) s fun m => m = s.m) ∧
        (turn → Completes (.tisScope es) s fun m => quiet 7 m ∧ ends 7 (runOf 2 2 0x1000 (ints es.flatten)) m)) ∧
      (∀ f : Nat, let turn := s.m.scopeTurn 8 = true
        (¬ turn → Completes (.freqScope f) s fun m => m = s.m) ∧
        (turn → Completes (.freqScope f) s fun m => quiet 8 m ∧
          ends 8 [(0x850, 4, clampInt (-(2 ^ 31)) (2 ^ 31 - 1) (roundAway (((f : Int) - 10000000 * 2 ^ 32) * 2 ^ 40) (10000000 * 2 ^ 32)))] m)) ∧
      (busy → c.todo = [] → s.m.pwr.supply = true → s.m.pwr.entering = none → CompletesNv .calResultWrite s fun nv m =>
        let b := (s.m.advance (s.m.cyclesTo 1000000)).boundaryApply
        (∀ i < 0x1800, bankWord m.regs.act (userBase c.dest + 4 * i) = bankWord b.resultSet (4 * i) ∧
          bankWord m.regs.shd (userBase c.dest + 4 * i) = bankWord b.resultSet (4 * i)) ∧
        m.cal.scope = 0 ∧ m.cal.todo = [] ∧ m.cal.result = [] ∧ m.get F.CAL_CMD_STATUS_STATE = 0 ∧ bitOf (m.get F.EVT_PEND) 17 = true ∧
        nv = { s.nv with boot0 := nv.boot0, boot1 := nv.boot1 }) ∧
      (¬ busy ∨ c.todo ≠ [] → Completes .calResultWrite s fun m => m = s.m))

end
end

