-- ==== Sys2Proof/Laws/Map.lean ====
section
/-!
SUPPORT. Laws/Map.lean: what sparse memories do: a read after a write, and that every operation keeps the canonical form.
-/
namespace Sys2Proof.Machine

theorem mapGet_mapDrop {α : Type} (d : α) (l : List (Nat × α)) (k j : Nat) :
    mapGet d (mapDrop l k) j = if j = k then d else mapGet d l j := by
  induction l with
  | nil => simp [mapDrop, mapGet]
  | cons h t ih =>
    obtain ⟨a, v⟩ := h
    simp only [mapDrop]
    by_cases hk : k = a
    · subst hk
      by_cases hj : j = k <;> simp_all [mapGet]
    · by_cases hj : j = a
      · subst hj
        simp [mapGet, hk, Ne.symm hk]
      · by_cases hjk : j = k <;> simp_all [mapGet]

theorem mapGet_mapSet {α : Type} (d : α) (l : List (Nat × α)) (k j : Nat) (v : α) :
    mapGet d (mapSet l k v) j = if j = k then v else mapGet d l j := by
  induction l with
  | nil => simp [mapSet, mapGet]
  | cons h t ih =>
    obtain ⟨a, w⟩ := h
    simp only [mapSet]
    split
    · simp only [mapGet]
    · split
      · next hk =>
        subst hk
        by_cases hj : j = k <;> simp [mapGet, hj]
      · next hk =>
        simp only [mapGet, ih]
        by_cases hj : j = a
        · subst hj; simp [Ne.symm hk]
        · simp [hj]

/-- A read after a write: the value written at its key, every other key as before. -/
theorem mapGet_mapPut {α : Type} [DecidableEq α] (d : α) (l : List (Nat × α)) (k j : Nat) (v : α) :
    mapGet d (mapPut d l k v) j = if j = k then v else mapGet d l j := by
  unfold mapPut
  split
  · next h => rw [mapGet_mapDrop, h]
  · rw [mapGet_mapSet]

@[simp] theorem mapGet_mapPut_same {α : Type} [DecidableEq α] (d : α) (l : List (Nat × α)) (k : Nat) (v : α) :
    mapGet d (mapPut d l k v) k = v := by simp [mapGet_mapPut]

theorem mapGet_mapPut_ne {α : Type} [DecidableEq α] (d : α) (l : List (Nat × α)) {k j : Nat} (v : α) (h : j ≠ k) :
    mapGet d (mapPut d l k v) j = mapGet d l j := by simp [mapGet_mapPut, h]

theorem mapWfFrom_mono {α : Type} [DecidableEq α] {d : α} {l : List (Nat × α)} {lo lo' : Nat} (h : lo' ≤ lo)
    (w : mapWfFrom d lo l = true) : mapWfFrom d lo' l = true := by
  cases l with
  | nil => rfl
  | cons e t =>
    simp only [mapWfFrom, Bool.and_eq_true, decide_eq_true_eq] at w ⊢
    exact ⟨⟨by omega, w.1.2⟩, w.2⟩

theorem mapWfFrom_mapDrop {α : Type} [DecidableEq α] {d : α} (k : Nat) :
    ∀ {l : List (Nat × α)} {lo : Nat}, mapWfFrom d lo l = true → mapWfFrom d lo (mapDrop l k) = true
  | [], _, _ => rfl
  | (a, v) :: t, lo, w => by
    simp only [mapWfFrom, Bool.and_eq_true, decide_eq_true_eq] at w
    simp only [mapDrop]
    split
    · exact mapWfFrom_mono (by omega) (mapWfFrom_mapDrop k w.2)
    · simp only [mapWfFrom, Bool.and_eq_true, decide_eq_true_eq]
      exact ⟨w.1, mapWfFrom_mapDrop k w.2⟩

theorem mapWfFrom_mapSet {α : Type} [DecidableEq α] {d v : α} (hv : v ≠ d) {k : Nat} :
    ∀ {l : List (Nat × α)} {lo : Nat}, lo ≤ k → mapWfFrom d lo l = true → mapWfFrom d lo (mapSet l k v) = true
  | [], lo, h, _ => by simp [mapSet, mapWfFrom, h, hv]
  | (a, w) :: t, lo, h, wf => by
    simp only [mapWfFrom, Bool.and_eq_true, decide_eq_true_eq] at wf
    simp only [mapSet]
    split
    · next h1 =>
      simp only [mapWfFrom, Bool.and_eq_true, decide_eq_true_eq]
      exact ⟨⟨h, hv⟩, ⟨by omega, wf.1.2⟩, wf.2⟩
    · split
      · next h2 =>
        subst h2
        simp only [mapWfFrom, Bool.and_eq_true, decide_eq_true_eq]
        exact ⟨⟨h, hv⟩, wf.2⟩
      · simp only [mapWfFrom, Bool.and_eq_true, decide_eq_true_eq]
        exact ⟨wf.1, mapWfFrom_mapSet hv (by omega) wf.2⟩

/-- A write keeps the canonical form. -/
theorem mapPut_wf {α : Type} [DecidableEq α] {d : α} {l : List (Nat × α)} (k : Nat) (v : α) (w : mapWf d l = true) :
    mapWf d (mapPut d l k v) = true := by
  unfold mapPut
  split
  · exact mapWfFrom_mapDrop k w
  · next h => exact mapWfFrom_mapSet h (Nat.zero_le k) w

theorem mapWfFrom_filter {α : Type} [DecidableEq α] {d : α} (p : Nat × α → Bool) :
    ∀ {l : List (Nat × α)} {lo : Nat}, mapWfFrom d lo l = true → mapWfFrom d lo (l.filter p) = true
  | [], _, _ => rfl
  | (a, v) :: t, lo, w => by
    simp only [mapWfFrom, Bool.and_eq_true, decide_eq_true_eq] at w
    rw [List.filter_cons]
    split
    · simp only [mapWfFrom, Bool.and_eq_true, decide_eq_true_eq]
      exact ⟨w.1, mapWfFrom_filter p w.2⟩
    · exact mapWfFrom_mono (by omega) (mapWfFrom_filter p w.2)

/-- Keeping part of the keys keeps the canonical form. -/
theorem mapKeep_wf {α : Type} [DecidableEq α] {d : α} (p : Nat → Bool) {l : List (Nat × α)} (w : mapWf d l = true) :
    mapWf d (mapKeep p l) = true := mapWfFrom_filter _ w

/-- A store of a byte string keeps the canonical form. -/
theorem memStore_wf {d : Byte} : ∀ {bytes : List Byte} {m : Mem} {a : Nat}, mapWf d m = true → mapWf d (memStore d m a bytes) = true
  | [], _, _, w => w
  | b :: t, m, a, w => by
    rw [memStore]
    exact memStore_wf (bytes := t) (mapPut_wf a b w)

/-- What a byte reads as after a store of a byte string: the byte stored there, or what it held. -/
theorem mapGet_memStore {d : Byte} : ∀ (bytes : List Byte) (m : Mem) (a j : Nat),
    mapGet d (memStore d m a bytes) j = if a ≤ j ∧ j < a + bytes.length then bytes.getD (j - a) d else mapGet d m j
  | [], m, a, j => by simp [memStore] <;> omega
  | b :: t, m, a, j => by
    rw [memStore, mapGet_memStore t, mapGet_mapPut]
    by_cases h : j = a
    · subst h; simp <;> omega
    · by_cases h2 : a + 1 ≤ j ∧ j < a + 1 + t.length
      · have h3 : a ≤ j ∧ j < a + (b :: t).length := ⟨by omega, by simp <;> omega⟩
        rw [if_pos h2, if_pos h3, show j - a = (j - (a + 1)) + 1 by omega]
        simp
      · have h3 : ¬(a ≤ j ∧ j < a + (b :: t).length) := by simp <;> omega
        rw [if_neg h2, if_neg h3, if_neg h]

end Sys2Proof.Machine
end

