-- ==== Sys2Proof/Laws/State.lean ====
section
/-!
SUPPORT. Laws/State.lean: one lemma per field of the machine and per update of it; the register bank after a write of a field; what an event leaves.
-/
namespace Sys2Proof.Machine

/-! ### One field per update -/

@[simp] theorem Mach.put_pwr (m : Mach) (f : Fld) (v : Nat) : (m.put f v).pwr = m.pwr := rfl
@[simp] theorem Mach.put_boot (m : Mach) (f : Fld) (v : Nat) : (m.put f v).boot = m.boot := rfl
@[simp] theorem Mach.put_commit (m : Mach) (f : Fld) (v : Nat) : (m.put f v).commit = m.commit := rfl
@[simp] theorem Mach.put_evt (m : Mach) (f : Fld) (v : Nat) : (m.put f v).evt = m.evt := rfl
@[simp] theorem Mach.put_bus (m : Mach) (f : Fld) (v : Nat) : (m.put f v).bus = m.bus := rfl
@[simp] theorem Mach.put_clk (m : Mach) (f : Fld) (v : Nat) : (m.put f v).clk = m.clk := rfl
@[simp] theorem Mach.put_tis (m : Mach) (f : Fld) (v : Nat) : (m.put f v).tis = m.tis := rfl
@[simp] theorem Mach.put_mgmt (m : Mach) (f : Fld) (v : Nat) : (m.put f v).mgmt = m.mgmt := rfl
@[simp] theorem Mach.put_latch (m : Mach) (f : Fld) (v : Nat) : (m.put f v).latch = m.latch := rfl
@[simp] theorem Mach.put_train (m : Mach) (f : Fld) (v : Nat) : (m.put f v).train = m.train := rfl
@[simp] theorem Mach.put_zones (m : Mach) (f : Fld) (v : Nat) : (m.put f v).zones = m.zones := rfl
@[simp] theorem Mach.put_chans (m : Mach) (f : Fld) (v : Nat) : (m.put f v).chans = m.chans := rfl
@[simp] theorem Mach.put_caps (m : Mach) (f : Fld) (v : Nat) : (m.put f v).caps = m.caps := rfl
@[simp] theorem Mach.put_codec (m : Mach) (f : Fld) (v : Nat) : (m.put f v).codec = m.codec := rfl
@[simp] theorem Mach.put_mcs (m : Mach) (f : Fld) (v : Nat) : (m.put f v).mcs = m.mcs := rfl
@[simp] theorem Mach.put_rsv (m : Mach) (f : Fld) (v : Nat) : (m.put f v).rsv = m.rsv := rfl
@[simp] theorem Mach.put_net (m : Mach) (f : Fld) (v : Nat) : (m.put f v).net = m.net := rfl
@[simp] theorem Mach.put_ptp (m : Mach) (f : Fld) (v : Nat) : (m.put f v).ptp = m.ptp := rfl
@[simp] theorem Mach.put_recs (m : Mach) (f : Fld) (v : Nat) : (m.put f v).recs = m.recs := rfl
@[simp] theorem Mach.put_acq (m : Mach) (f : Fld) (v : Nat) : (m.put f v).acq = m.acq := rfl
@[simp] theorem Mach.put_cfe (m : Mach) (f : Fld) (v : Nat) : (m.put f v).cfe = m.cfe := rfl
@[simp] theorem Mach.put_hkc (m : Mach) (f : Fld) (v : Nat) : (m.put f v).hkc = m.hkc := rfl
@[simp] theorem Mach.put_adc (m : Mach) (f : Fld) (v : Nat) : (m.put f v).adc = m.adc := rfl
@[simp] theorem Mach.put_dts (m : Mach) (f : Fld) (v : Nat) : (m.put f v).dts = m.dts := rfl
@[simp] theorem Mach.put_grid (m : Mach) (f : Fld) (v : Nat) : (m.put f v).grid = m.grid := rfl
@[simp] theorem Mach.put_cal (m : Mach) (f : Fld) (v : Nat) : (m.put f v).cal = m.cal := rfl
@[simp] theorem Mach.put_free (m : Mach) (f : Fld) (v : Nat) : (m.put f v).free = m.free := rfl

@[simp] theorem Mach.setAct_pwr (m : Mach) (b : List (Nat × Nat)) : (m.setAct b).pwr = m.pwr := rfl
@[simp] theorem Mach.setAct_boot (m : Mach) (b : List (Nat × Nat)) : (m.setAct b).boot = m.boot := rfl
@[simp] theorem Mach.setAct_commit (m : Mach) (b : List (Nat × Nat)) : (m.setAct b).commit = m.commit := rfl
@[simp] theorem Mach.setAct_evt (m : Mach) (b : List (Nat × Nat)) : (m.setAct b).evt = m.evt := rfl
@[simp] theorem Mach.setAct_bus (m : Mach) (b : List (Nat × Nat)) : (m.setAct b).bus = m.bus := rfl
@[simp] theorem Mach.setAct_clk (m : Mach) (b : List (Nat × Nat)) : (m.setAct b).clk = m.clk := rfl
@[simp] theorem Mach.setAct_tis (m : Mach) (b : List (Nat × Nat)) : (m.setAct b).tis = m.tis := rfl
@[simp] theorem Mach.setAct_mgmt (m : Mach) (b : List (Nat × Nat)) : (m.setAct b).mgmt = m.mgmt := rfl
@[simp] theorem Mach.setAct_latch (m : Mach) (b : List (Nat × Nat)) : (m.setAct b).latch = m.latch := rfl
@[simp] theorem Mach.setAct_train (m : Mach) (b : List (Nat × Nat)) : (m.setAct b).train = m.train := rfl
@[simp] theorem Mach.setAct_zones (m : Mach) (b : List (Nat × Nat)) : (m.setAct b).zones = m.zones := rfl
@[simp] theorem Mach.setAct_chans (m : Mach) (b : List (Nat × Nat)) : (m.setAct b).chans = m.chans := rfl
@[simp] theorem Mach.setAct_caps (m : Mach) (b : List (Nat × Nat)) : (m.setAct b).caps = m.caps := rfl
@[simp] theorem Mach.setAct_codec (m : Mach) (b : List (Nat × Nat)) : (m.setAct b).codec = m.codec := rfl
@[simp] theorem Mach.setAct_mcs (m : Mach) (b : List (Nat × Nat)) : (m.setAct b).mcs = m.mcs := rfl
@[simp] theorem Mach.setAct_rsv (m : Mach) (b : List (Nat × Nat)) : (m.setAct b).rsv = m.rsv := rfl
@[simp] theorem Mach.setAct_net (m : Mach) (b : List (Nat × Nat)) : (m.setAct b).net = m.net := rfl
@[simp] theorem Mach.setAct_ptp (m : Mach) (b : List (Nat × Nat)) : (m.setAct b).ptp = m.ptp := rfl
@[simp] theorem Mach.setAct_recs (m : Mach) (b : List (Nat × Nat)) : (m.setAct b).recs = m.recs := rfl
@[simp] theorem Mach.setAct_acq (m : Mach) (b : List (Nat × Nat)) : (m.setAct b).acq = m.acq := rfl
@[simp] theorem Mach.setAct_cfe (m : Mach) (b : List (Nat × Nat)) : (m.setAct b).cfe = m.cfe := rfl
@[simp] theorem Mach.setAct_hkc (m : Mach) (b : List (Nat × Nat)) : (m.setAct b).hkc = m.hkc := rfl
@[simp] theorem Mach.setAct_adc (m : Mach) (b : List (Nat × Nat)) : (m.setAct b).adc = m.adc := rfl
@[simp] theorem Mach.setAct_dts (m : Mach) (b : List (Nat × Nat)) : (m.setAct b).dts = m.dts := rfl
@[simp] theorem Mach.setAct_grid (m : Mach) (b : List (Nat × Nat)) : (m.setAct b).grid = m.grid := rfl
@[simp] theorem Mach.setAct_cal (m : Mach) (b : List (Nat × Nat)) : (m.setAct b).cal = m.cal := rfl
@[simp] theorem Mach.setAct_free (m : Mach) (b : List (Nat × Nat)) : (m.setAct b).free = m.free := rfl

@[simp] theorem Mach.modPwr_regs (m : Mach) (f : Power → Power) : (m.modPwr f).regs = m.regs := rfl
@[simp] theorem Mach.modPwr_pwr (m : Mach) (f : Power → Power) : (m.modPwr f).pwr = f m.pwr := rfl
@[simp] theorem Mach.modPwr_boot (m : Mach) (f : Power → Power) : (m.modPwr f).boot = m.boot := rfl
@[simp] theorem Mach.modPwr_commit (m : Mach) (f : Power → Power) : (m.modPwr f).commit = m.commit := rfl
@[simp] theorem Mach.modPwr_evt (m : Mach) (f : Power → Power) : (m.modPwr f).evt = m.evt := rfl
@[simp] theorem Mach.modPwr_bus (m : Mach) (f : Power → Power) : (m.modPwr f).bus = m.bus := rfl
@[simp] theorem Mach.modPwr_clk (m : Mach) (f : Power → Power) : (m.modPwr f).clk = m.clk := rfl
@[simp] theorem Mach.modPwr_tis (m : Mach) (f : Power → Power) : (m.modPwr f).tis = m.tis := rfl
@[simp] theorem Mach.modPwr_mgmt (m : Mach) (f : Power → Power) : (m.modPwr f).mgmt = m.mgmt := rfl
@[simp] theorem Mach.modPwr_latch (m : Mach) (f : Power → Power) : (m.modPwr f).latch = m.latch := rfl
@[simp] theorem Mach.modPwr_train (m : Mach) (f : Power → Power) : (m.modPwr f).train = m.train := rfl
@[simp] theorem Mach.modPwr_zones (m : Mach) (f : Power → Power) : (m.modPwr f).zones = m.zones := rfl
@[simp] theorem Mach.modPwr_chans (m : Mach) (f : Power → Power) : (m.modPwr f).chans = m.chans := rfl
@[simp] theorem Mach.modPwr_caps (m : Mach) (f : Power → Power) : (m.modPwr f).caps = m.caps := rfl
@[simp] theorem Mach.modPwr_codec (m : Mach) (f : Power → Power) : (m.modPwr f).codec = m.codec := rfl
@[simp] theorem Mach.modPwr_mcs (m : Mach) (f : Power → Power) : (m.modPwr f).mcs = m.mcs := rfl
@[simp] theorem Mach.modPwr_rsv (m : Mach) (f : Power → Power) : (m.modPwr f).rsv = m.rsv := rfl
@[simp] theorem Mach.modPwr_net (m : Mach) (f : Power → Power) : (m.modPwr f).net = m.net := rfl
@[simp] theorem Mach.modPwr_ptp (m : Mach) (f : Power → Power) : (m.modPwr f).ptp = m.ptp := rfl
@[simp] theorem Mach.modPwr_recs (m : Mach) (f : Power → Power) : (m.modPwr f).recs = m.recs := rfl
@[simp] theorem Mach.modPwr_acq (m : Mach) (f : Power → Power) : (m.modPwr f).acq = m.acq := rfl
@[simp] theorem Mach.modPwr_cfe (m : Mach) (f : Power → Power) : (m.modPwr f).cfe = m.cfe := rfl
@[simp] theorem Mach.modPwr_hkc (m : Mach) (f : Power → Power) : (m.modPwr f).hkc = m.hkc := rfl
@[simp] theorem Mach.modPwr_adc (m : Mach) (f : Power → Power) : (m.modPwr f).adc = m.adc := rfl
@[simp] theorem Mach.modPwr_dts (m : Mach) (f : Power → Power) : (m.modPwr f).dts = m.dts := rfl
@[simp] theorem Mach.modPwr_grid (m : Mach) (f : Power → Power) : (m.modPwr f).grid = m.grid := rfl
@[simp] theorem Mach.modPwr_cal (m : Mach) (f : Power → Power) : (m.modPwr f).cal = m.cal := rfl
@[simp] theorem Mach.modPwr_free (m : Mach) (f : Power → Power) : (m.modPwr f).free = m.free := rfl
@[simp] theorem Mach.modPwr_get (m : Mach) (f : Power → Power) (g : Fld) : (m.modPwr f).get g = m.get g := rfl

@[simp] theorem Mach.modCommit_regs (m : Mach) (f : Commit → Commit) : (m.modCommit f).regs = m.regs := rfl
@[simp] theorem Mach.modCommit_pwr (m : Mach) (f : Commit → Commit) : (m.modCommit f).pwr = m.pwr := rfl
@[simp] theorem Mach.modCommit_boot (m : Mach) (f : Commit → Commit) : (m.modCommit f).boot = m.boot := rfl
@[simp] theorem Mach.modCommit_commit (m : Mach) (f : Commit → Commit) : (m.modCommit f).commit = f m.commit := rfl
@[simp] theorem Mach.modCommit_evt (m : Mach) (f : Commit → Commit) : (m.modCommit f).evt = m.evt := rfl
@[simp] theorem Mach.modCommit_bus (m : Mach) (f : Commit → Commit) : (m.modCommit f).bus = m.bus := rfl
@[simp] theorem Mach.modCommit_clk (m : Mach) (f : Commit → Commit) : (m.modCommit f).clk = m.clk := rfl
@[simp] theorem Mach.modCommit_tis (m : Mach) (f : Commit → Commit) : (m.modCommit f).tis = m.tis := rfl
@[simp] theorem Mach.modCommit_mgmt (m : Mach) (f : Commit → Commit) : (m.modCommit f).mgmt = m.mgmt := rfl
@[simp] theorem Mach.modCommit_latch (m : Mach) (f : Commit → Commit) : (m.modCommit f).latch = m.latch := rfl
@[simp] theorem Mach.modCommit_train (m : Mach) (f : Commit → Commit) : (m.modCommit f).train = m.train := rfl
@[simp] theorem Mach.modCommit_zones (m : Mach) (f : Commit → Commit) : (m.modCommit f).zones = m.zones := rfl
@[simp] theorem Mach.modCommit_chans (m : Mach) (f : Commit → Commit) : (m.modCommit f).chans = m.chans := rfl
@[simp] theorem Mach.modCommit_caps (m : Mach) (f : Commit → Commit) : (m.modCommit f).caps = m.caps := rfl
@[simp] theorem Mach.modCommit_codec (m : Mach) (f : Commit → Commit) : (m.modCommit f).codec = m.codec := rfl
@[simp] theorem Mach.modCommit_mcs (m : Mach) (f : Commit → Commit) : (m.modCommit f).mcs = m.mcs := rfl
@[simp] theorem Mach.modCommit_rsv (m : Mach) (f : Commit → Commit) : (m.modCommit f).rsv = m.rsv := rfl
@[simp] theorem Mach.modCommit_net (m : Mach) (f : Commit → Commit) : (m.modCommit f).net = m.net := rfl
@[simp] theorem Mach.modCommit_ptp (m : Mach) (f : Commit → Commit) : (m.modCommit f).ptp = m.ptp := rfl
@[simp] theorem Mach.modCommit_recs (m : Mach) (f : Commit → Commit) : (m.modCommit f).recs = m.recs := rfl
@[simp] theorem Mach.modCommit_acq (m : Mach) (f : Commit → Commit) : (m.modCommit f).acq = m.acq := rfl
@[simp] theorem Mach.modCommit_cfe (m : Mach) (f : Commit → Commit) : (m.modCommit f).cfe = m.cfe := rfl
@[simp] theorem Mach.modCommit_hkc (m : Mach) (f : Commit → Commit) : (m.modCommit f).hkc = m.hkc := rfl
@[simp] theorem Mach.modCommit_adc (m : Mach) (f : Commit → Commit) : (m.modCommit f).adc = m.adc := rfl
@[simp] theorem Mach.modCommit_dts (m : Mach) (f : Commit → Commit) : (m.modCommit f).dts = m.dts := rfl
@[simp] theorem Mach.modCommit_grid (m : Mach) (f : Commit → Commit) : (m.modCommit f).grid = m.grid := rfl
@[simp] theorem Mach.modCommit_cal (m : Mach) (f : Commit → Commit) : (m.modCommit f).cal = m.cal := rfl
@[simp] theorem Mach.modCommit_free (m : Mach) (f : Commit → Commit) : (m.modCommit f).free = m.free := rfl
@[simp] theorem Mach.modCommit_get (m : Mach) (f : Commit → Commit) (g : Fld) : (m.modCommit f).get g = m.get g := rfl

@[simp] theorem Mach.modReg_regs (m : Mach) (f : Regul → Regul) : (m.modReg f).regs = m.regs := rfl
@[simp] theorem Mach.modReg_pwr (m : Mach) (f : Regul → Regul) : (m.modReg f).pwr = m.pwr := rfl
@[simp] theorem Mach.modReg_boot (m : Mach) (f : Regul → Regul) : (m.modReg f).boot = m.boot := rfl
@[simp] theorem Mach.modReg_commit (m : Mach) (f : Regul → Regul) : (m.modReg f).commit = m.commit := rfl
@[simp] theorem Mach.modReg_evt (m : Mach) (f : Regul → Regul) : (m.modReg f).evt = m.evt := rfl
@[simp] theorem Mach.modReg_bus (m : Mach) (f : Regul → Regul) : (m.modReg f).bus = m.bus := rfl
@[simp] theorem Mach.modReg_clk (m : Mach) (f : Regul → Regul) : (m.modReg f).clk = { m.clk with reg := f m.clk.reg } := rfl
@[simp] theorem Mach.modReg_tis (m : Mach) (f : Regul → Regul) : (m.modReg f).tis = m.tis := rfl
@[simp] theorem Mach.modReg_mgmt (m : Mach) (f : Regul → Regul) : (m.modReg f).mgmt = m.mgmt := rfl
@[simp] theorem Mach.modReg_latch (m : Mach) (f : Regul → Regul) : (m.modReg f).latch = m.latch := rfl
@[simp] theorem Mach.modReg_train (m : Mach) (f : Regul → Regul) : (m.modReg f).train = m.train := rfl
@[simp] theorem Mach.modReg_zones (m : Mach) (f : Regul → Regul) : (m.modReg f).zones = m.zones := rfl
@[simp] theorem Mach.modReg_chans (m : Mach) (f : Regul → Regul) : (m.modReg f).chans = m.chans := rfl
@[simp] theorem Mach.modReg_caps (m : Mach) (f : Regul → Regul) : (m.modReg f).caps = m.caps := rfl
@[simp] theorem Mach.modReg_codec (m : Mach) (f : Regul → Regul) : (m.modReg f).codec = m.codec := rfl
@[simp] theorem Mach.modReg_mcs (m : Mach) (f : Regul → Regul) : (m.modReg f).mcs = m.mcs := rfl
@[simp] theorem Mach.modReg_rsv (m : Mach) (f : Regul → Regul) : (m.modReg f).rsv = m.rsv := rfl
@[simp] theorem Mach.modReg_net (m : Mach) (f : Regul → Regul) : (m.modReg f).net = m.net := rfl
@[simp] theorem Mach.modReg_ptp (m : Mach) (f : Regul → Regul) : (m.modReg f).ptp = m.ptp := rfl
@[simp] theorem Mach.modReg_recs (m : Mach) (f : Regul → Regul) : (m.modReg f).recs = m.recs := rfl
@[simp] theorem Mach.modReg_acq (m : Mach) (f : Regul → Regul) : (m.modReg f).acq = m.acq := rfl
@[simp] theorem Mach.modReg_cfe (m : Mach) (f : Regul → Regul) : (m.modReg f).cfe = m.cfe := rfl
@[simp] theorem Mach.modReg_hkc (m : Mach) (f : Regul → Regul) : (m.modReg f).hkc = m.hkc := rfl
@[simp] theorem Mach.modReg_adc (m : Mach) (f : Regul → Regul) : (m.modReg f).adc = m.adc := rfl
@[simp] theorem Mach.modReg_dts (m : Mach) (f : Regul → Regul) : (m.modReg f).dts = m.dts := rfl
@[simp] theorem Mach.modReg_grid (m : Mach) (f : Regul → Regul) : (m.modReg f).grid = m.grid := rfl
@[simp] theorem Mach.modReg_cal (m : Mach) (f : Regul → Regul) : (m.modReg f).cal = m.cal := rfl
@[simp] theorem Mach.modReg_free (m : Mach) (f : Regul → Regul) : (m.modReg f).free = m.free := rfl
@[simp] theorem Mach.modReg_get (m : Mach) (f : Regul → Regul) (g : Fld) : (m.modReg f).get g = m.get g := rfl

@[simp] theorem Mach.modCodec_regs (m : Mach) (f : Codec → Codec) : (m.modCodec f).regs = m.regs := rfl
@[simp] theorem Mach.modCodec_pwr (m : Mach) (f : Codec → Codec) : (m.modCodec f).pwr = m.pwr := rfl
@[simp] theorem Mach.modCodec_boot (m : Mach) (f : Codec → Codec) : (m.modCodec f).boot = m.boot := rfl
@[simp] theorem Mach.modCodec_commit (m : Mach) (f : Codec → Codec) : (m.modCodec f).commit = m.commit := rfl
@[simp] theorem Mach.modCodec_evt (m : Mach) (f : Codec → Codec) : (m.modCodec f).evt = m.evt := rfl
@[simp] theorem Mach.modCodec_bus (m : Mach) (f : Codec → Codec) : (m.modCodec f).bus = m.bus := rfl
@[simp] theorem Mach.modCodec_clk (m : Mach) (f : Codec → Codec) : (m.modCodec f).clk = m.clk := rfl
@[simp] theorem Mach.modCodec_tis (m : Mach) (f : Codec → Codec) : (m.modCodec f).tis = m.tis := rfl
@[simp] theorem Mach.modCodec_mgmt (m : Mach) (f : Codec → Codec) : (m.modCodec f).mgmt = m.mgmt := rfl
@[simp] theorem Mach.modCodec_latch (m : Mach) (f : Codec → Codec) : (m.modCodec f).latch = m.latch := rfl
@[simp] theorem Mach.modCodec_train (m : Mach) (f : Codec → Codec) : (m.modCodec f).train = m.train := rfl
@[simp] theorem Mach.modCodec_zones (m : Mach) (f : Codec → Codec) : (m.modCodec f).zones = m.zones := rfl
@[simp] theorem Mach.modCodec_chans (m : Mach) (f : Codec → Codec) : (m.modCodec f).chans = m.chans := rfl
@[simp] theorem Mach.modCodec_caps (m : Mach) (f : Codec → Codec) : (m.modCodec f).caps = m.caps := rfl
@[simp] theorem Mach.modCodec_codec (m : Mach) (f : Codec → Codec) : (m.modCodec f).codec = f m.codec := rfl
@[simp] theorem Mach.modCodec_mcs (m : Mach) (f : Codec → Codec) : (m.modCodec f).mcs = m.mcs := rfl
@[simp] theorem Mach.modCodec_rsv (m : Mach) (f : Codec → Codec) : (m.modCodec f).rsv = m.rsv := rfl
@[simp] theorem Mach.modCodec_net (m : Mach) (f : Codec → Codec) : (m.modCodec f).net = m.net := rfl
@[simp] theorem Mach.modCodec_ptp (m : Mach) (f : Codec → Codec) : (m.modCodec f).ptp = m.ptp := rfl
@[simp] theorem Mach.modCodec_recs (m : Mach) (f : Codec → Codec) : (m.modCodec f).recs = m.recs := rfl
@[simp] theorem Mach.modCodec_acq (m : Mach) (f : Codec → Codec) : (m.modCodec f).acq = m.acq := rfl
@[simp] theorem Mach.modCodec_cfe (m : Mach) (f : Codec → Codec) : (m.modCodec f).cfe = m.cfe := rfl
@[simp] theorem Mach.modCodec_hkc (m : Mach) (f : Codec → Codec) : (m.modCodec f).hkc = m.hkc := rfl
@[simp] theorem Mach.modCodec_adc (m : Mach) (f : Codec → Codec) : (m.modCodec f).adc = m.adc := rfl
@[simp] theorem Mach.modCodec_dts (m : Mach) (f : Codec → Codec) : (m.modCodec f).dts = m.dts := rfl
@[simp] theorem Mach.modCodec_grid (m : Mach) (f : Codec → Codec) : (m.modCodec f).grid = m.grid := rfl
@[simp] theorem Mach.modCodec_cal (m : Mach) (f : Codec → Codec) : (m.modCodec f).cal = m.cal := rfl
@[simp] theorem Mach.modCodec_free (m : Mach) (f : Codec → Codec) : (m.modCodec f).free = m.free := rfl
@[simp] theorem Mach.modCodec_get (m : Mach) (f : Codec → Codec) (g : Fld) : (m.modCodec f).get g = m.get g := rfl

@[simp] theorem Mach.modHkc_regs (m : Mach) (f : Hkc → Hkc) : (m.modHkc f).regs = m.regs := rfl
@[simp] theorem Mach.modHkc_pwr (m : Mach) (f : Hkc → Hkc) : (m.modHkc f).pwr = m.pwr := rfl
@[simp] theorem Mach.modHkc_boot (m : Mach) (f : Hkc → Hkc) : (m.modHkc f).boot = m.boot := rfl
@[simp] theorem Mach.modHkc_commit (m : Mach) (f : Hkc → Hkc) : (m.modHkc f).commit = m.commit := rfl
@[simp] theorem Mach.modHkc_evt (m : Mach) (f : Hkc → Hkc) : (m.modHkc f).evt = m.evt := rfl
@[simp] theorem Mach.modHkc_bus (m : Mach) (f : Hkc → Hkc) : (m.modHkc f).bus = m.bus := rfl
@[simp] theorem Mach.modHkc_clk (m : Mach) (f : Hkc → Hkc) : (m.modHkc f).clk = m.clk := rfl
@[simp] theorem Mach.modHkc_tis (m : Mach) (f : Hkc → Hkc) : (m.modHkc f).tis = m.tis := rfl
@[simp] theorem Mach.modHkc_mgmt (m : Mach) (f : Hkc → Hkc) : (m.modHkc f).mgmt = m.mgmt := rfl
@[simp] theorem Mach.modHkc_latch (m : Mach) (f : Hkc → Hkc) : (m.modHkc f).latch = m.latch := rfl
@[simp] theorem Mach.modHkc_train (m : Mach) (f : Hkc → Hkc) : (m.modHkc f).train = m.train := rfl
@[simp] theorem Mach.modHkc_zones (m : Mach) (f : Hkc → Hkc) : (m.modHkc f).zones = m.zones := rfl
@[simp] theorem Mach.modHkc_chans (m : Mach) (f : Hkc → Hkc) : (m.modHkc f).chans = m.chans := rfl
@[simp] theorem Mach.modHkc_caps (m : Mach) (f : Hkc → Hkc) : (m.modHkc f).caps = m.caps := rfl
@[simp] theorem Mach.modHkc_codec (m : Mach) (f : Hkc → Hkc) : (m.modHkc f).codec = m.codec := rfl
@[simp] theorem Mach.modHkc_mcs (m : Mach) (f : Hkc → Hkc) : (m.modHkc f).mcs = m.mcs := rfl
@[simp] theorem Mach.modHkc_rsv (m : Mach) (f : Hkc → Hkc) : (m.modHkc f).rsv = m.rsv := rfl
@[simp] theorem Mach.modHkc_net (m : Mach) (f : Hkc → Hkc) : (m.modHkc f).net = m.net := rfl
@[simp] theorem Mach.modHkc_ptp (m : Mach) (f : Hkc → Hkc) : (m.modHkc f).ptp = m.ptp := rfl
@[simp] theorem Mach.modHkc_recs (m : Mach) (f : Hkc → Hkc) : (m.modHkc f).recs = m.recs := rfl
@[simp] theorem Mach.modHkc_acq (m : Mach) (f : Hkc → Hkc) : (m.modHkc f).acq = m.acq := rfl
@[simp] theorem Mach.modHkc_cfe (m : Mach) (f : Hkc → Hkc) : (m.modHkc f).cfe = m.cfe := rfl
@[simp] theorem Mach.modHkc_hkc (m : Mach) (f : Hkc → Hkc) : (m.modHkc f).hkc = f m.hkc := rfl
@[simp] theorem Mach.modHkc_adc (m : Mach) (f : Hkc → Hkc) : (m.modHkc f).adc = m.adc := rfl
@[simp] theorem Mach.modHkc_dts (m : Mach) (f : Hkc → Hkc) : (m.modHkc f).dts = m.dts := rfl
@[simp] theorem Mach.modHkc_grid (m : Mach) (f : Hkc → Hkc) : (m.modHkc f).grid = m.grid := rfl
@[simp] theorem Mach.modHkc_cal (m : Mach) (f : Hkc → Hkc) : (m.modHkc f).cal = m.cal := rfl
@[simp] theorem Mach.modHkc_free (m : Mach) (f : Hkc → Hkc) : (m.modHkc f).free = m.free := rfl
@[simp] theorem Mach.modHkc_get (m : Mach) (f : Hkc → Hkc) (g : Fld) : (m.modHkc f).get g = m.get g := rfl

@[simp] theorem Mach.modAdc_regs (m : Mach) (f : Adc → Adc) : (m.modAdc f).regs = m.regs := rfl
@[simp] theorem Mach.modAdc_pwr (m : Mach) (f : Adc → Adc) : (m.modAdc f).pwr = m.pwr := rfl
@[simp] theorem Mach.modAdc_boot (m : Mach) (f : Adc → Adc) : (m.modAdc f).boot = m.boot := rfl
@[simp] theorem Mach.modAdc_commit (m : Mach) (f : Adc → Adc) : (m.modAdc f).commit = m.commit := rfl
@[simp] theorem Mach.modAdc_evt (m : Mach) (f : Adc → Adc) : (m.modAdc f).evt = m.evt := rfl
@[simp] theorem Mach.modAdc_bus (m : Mach) (f : Adc → Adc) : (m.modAdc f).bus = m.bus := rfl
@[simp] theorem Mach.modAdc_clk (m : Mach) (f : Adc → Adc) : (m.modAdc f).clk = m.clk := rfl
@[simp] theorem Mach.modAdc_tis (m : Mach) (f : Adc → Adc) : (m.modAdc f).tis = m.tis := rfl
@[simp] theorem Mach.modAdc_mgmt (m : Mach) (f : Adc → Adc) : (m.modAdc f).mgmt = m.mgmt := rfl
@[simp] theorem Mach.modAdc_latch (m : Mach) (f : Adc → Adc) : (m.modAdc f).latch = m.latch := rfl
@[simp] theorem Mach.modAdc_train (m : Mach) (f : Adc → Adc) : (m.modAdc f).train = m.train := rfl
@[simp] theorem Mach.modAdc_zones (m : Mach) (f : Adc → Adc) : (m.modAdc f).zones = m.zones := rfl
@[simp] theorem Mach.modAdc_chans (m : Mach) (f : Adc → Adc) : (m.modAdc f).chans = m.chans := rfl
@[simp] theorem Mach.modAdc_caps (m : Mach) (f : Adc → Adc) : (m.modAdc f).caps = m.caps := rfl
@[simp] theorem Mach.modAdc_codec (m : Mach) (f : Adc → Adc) : (m.modAdc f).codec = m.codec := rfl
@[simp] theorem Mach.modAdc_mcs (m : Mach) (f : Adc → Adc) : (m.modAdc f).mcs = m.mcs := rfl
@[simp] theorem Mach.modAdc_rsv (m : Mach) (f : Adc → Adc) : (m.modAdc f).rsv = m.rsv := rfl
@[simp] theorem Mach.modAdc_net (m : Mach) (f : Adc → Adc) : (m.modAdc f).net = m.net := rfl
@[simp] theorem Mach.modAdc_ptp (m : Mach) (f : Adc → Adc) : (m.modAdc f).ptp = m.ptp := rfl
@[simp] theorem Mach.modAdc_recs (m : Mach) (f : Adc → Adc) : (m.modAdc f).recs = m.recs := rfl
@[simp] theorem Mach.modAdc_acq (m : Mach) (f : Adc → Adc) : (m.modAdc f).acq = m.acq := rfl
@[simp] theorem Mach.modAdc_cfe (m : Mach) (f : Adc → Adc) : (m.modAdc f).cfe = m.cfe := rfl
@[simp] theorem Mach.modAdc_hkc (m : Mach) (f : Adc → Adc) : (m.modAdc f).hkc = m.hkc := rfl
@[simp] theorem Mach.modAdc_adc (m : Mach) (f : Adc → Adc) : (m.modAdc f).adc = f m.adc := rfl
@[simp] theorem Mach.modAdc_dts (m : Mach) (f : Adc → Adc) : (m.modAdc f).dts = m.dts := rfl
@[simp] theorem Mach.modAdc_grid (m : Mach) (f : Adc → Adc) : (m.modAdc f).grid = m.grid := rfl
@[simp] theorem Mach.modAdc_cal (m : Mach) (f : Adc → Adc) : (m.modAdc f).cal = m.cal := rfl
@[simp] theorem Mach.modAdc_free (m : Mach) (f : Adc → Adc) : (m.modAdc f).free = m.free := rfl
@[simp] theorem Mach.modAdc_get (m : Mach) (f : Adc → Adc) (g : Fld) : (m.modAdc f).get g = m.get g := rfl

@[simp] theorem Mach.modCal_regs (m : Mach) (f : Cal → Cal) : (m.modCal f).regs = m.regs := rfl
@[simp] theorem Mach.modCal_pwr (m : Mach) (f : Cal → Cal) : (m.modCal f).pwr = m.pwr := rfl
@[simp] theorem Mach.modCal_boot (m : Mach) (f : Cal → Cal) : (m.modCal f).boot = m.boot := rfl
@[simp] theorem Mach.modCal_commit (m : Mach) (f : Cal → Cal) : (m.modCal f).commit = m.commit := rfl
@[simp] theorem Mach.modCal_evt (m : Mach) (f : Cal → Cal) : (m.modCal f).evt = m.evt := rfl
@[simp] theorem Mach.modCal_bus (m : Mach) (f : Cal → Cal) : (m.modCal f).bus = m.bus := rfl
@[simp] theorem Mach.modCal_clk (m : Mach) (f : Cal → Cal) : (m.modCal f).clk = m.clk := rfl
@[simp] theorem Mach.modCal_tis (m : Mach) (f : Cal → Cal) : (m.modCal f).tis = m.tis := rfl
@[simp] theorem Mach.modCal_mgmt (m : Mach) (f : Cal → Cal) : (m.modCal f).mgmt = m.mgmt := rfl
@[simp] theorem Mach.modCal_latch (m : Mach) (f : Cal → Cal) : (m.modCal f).latch = m.latch := rfl
@[simp] theorem Mach.modCal_train (m : Mach) (f : Cal → Cal) : (m.modCal f).train = m.train := rfl
@[simp] theorem Mach.modCal_zones (m : Mach) (f : Cal → Cal) : (m.modCal f).zones = m.zones := rfl
@[simp] theorem Mach.modCal_chans (m : Mach) (f : Cal → Cal) : (m.modCal f).chans = m.chans := rfl
@[simp] theorem Mach.modCal_caps (m : Mach) (f : Cal → Cal) : (m.modCal f).caps = m.caps := rfl
@[simp] theorem Mach.modCal_codec (m : Mach) (f : Cal → Cal) : (m.modCal f).codec = m.codec := rfl
@[simp] theorem Mach.modCal_mcs (m : Mach) (f : Cal → Cal) : (m.modCal f).mcs = m.mcs := rfl
@[simp] theorem Mach.modCal_rsv (m : Mach) (f : Cal → Cal) : (m.modCal f).rsv = m.rsv := rfl
@[simp] theorem Mach.modCal_net (m : Mach) (f : Cal → Cal) : (m.modCal f).net = m.net := rfl
@[simp] theorem Mach.modCal_ptp (m : Mach) (f : Cal → Cal) : (m.modCal f).ptp = m.ptp := rfl
@[simp] theorem Mach.modCal_recs (m : Mach) (f : Cal → Cal) : (m.modCal f).recs = m.recs := rfl
@[simp] theorem Mach.modCal_acq (m : Mach) (f : Cal → Cal) : (m.modCal f).acq = m.acq := rfl
@[simp] theorem Mach.modCal_cfe (m : Mach) (f : Cal → Cal) : (m.modCal f).cfe = m.cfe := rfl
@[simp] theorem Mach.modCal_hkc (m : Mach) (f : Cal → Cal) : (m.modCal f).hkc = m.hkc := rfl
@[simp] theorem Mach.modCal_adc (m : Mach) (f : Cal → Cal) : (m.modCal f).adc = m.adc := rfl
@[simp] theorem Mach.modCal_dts (m : Mach) (f : Cal → Cal) : (m.modCal f).dts = m.dts := rfl
@[simp] theorem Mach.modCal_grid (m : Mach) (f : Cal → Cal) : (m.modCal f).grid = m.grid := rfl
@[simp] theorem Mach.modCal_cal (m : Mach) (f : Cal → Cal) : (m.modCal f).cal = f m.cal := rfl
@[simp] theorem Mach.modCal_free (m : Mach) (f : Cal → Cal) : (m.modCal f).free = m.free := rfl
@[simp] theorem Mach.modCal_get (m : Mach) (f : Cal → Cal) (g : Fld) : (m.modCal f).get g = m.get g := rfl

@[simp] theorem Mach.modAcq_regs (m : Mach) (p : Port) (f : Acq → Acq) : (m.modAcq p f).regs = m.regs := rfl
@[simp] theorem Mach.modAcq_pwr (m : Mach) (p : Port) (f : Acq → Acq) : (m.modAcq p f).pwr = m.pwr := rfl
@[simp] theorem Mach.modAcq_boot (m : Mach) (p : Port) (f : Acq → Acq) : (m.modAcq p f).boot = m.boot := rfl
@[simp] theorem Mach.modAcq_commit (m : Mach) (p : Port) (f : Acq → Acq) : (m.modAcq p f).commit = m.commit := rfl
@[simp] theorem Mach.modAcq_evt (m : Mach) (p : Port) (f : Acq → Acq) : (m.modAcq p f).evt = m.evt := rfl
@[simp] theorem Mach.modAcq_bus (m : Mach) (p : Port) (f : Acq → Acq) : (m.modAcq p f).bus = m.bus := rfl
@[simp] theorem Mach.modAcq_clk (m : Mach) (p : Port) (f : Acq → Acq) : (m.modAcq p f).clk = m.clk := rfl
@[simp] theorem Mach.modAcq_tis (m : Mach) (p : Port) (f : Acq → Acq) : (m.modAcq p f).tis = m.tis := rfl
@[simp] theorem Mach.modAcq_mgmt (m : Mach) (p : Port) (f : Acq → Acq) : (m.modAcq p f).mgmt = m.mgmt := rfl
@[simp] theorem Mach.modAcq_latch (m : Mach) (p : Port) (f : Acq → Acq) : (m.modAcq p f).latch = m.latch := rfl
@[simp] theorem Mach.modAcq_train (m : Mach) (p : Port) (f : Acq → Acq) : (m.modAcq p f).train = m.train := rfl
@[simp] theorem Mach.modAcq_zones (m : Mach) (p : Port) (f : Acq → Acq) : (m.modAcq p f).zones = m.zones := rfl
@[simp] theorem Mach.modAcq_chans (m : Mach) (p : Port) (f : Acq → Acq) : (m.modAcq p f).chans = m.chans := rfl
@[simp] theorem Mach.modAcq_caps (m : Mach) (p : Port) (f : Acq → Acq) : (m.modAcq p f).caps = m.caps := rfl
@[simp] theorem Mach.modAcq_codec (m : Mach) (p : Port) (f : Acq → Acq) : (m.modAcq p f).codec = m.codec := rfl
@[simp] theorem Mach.modAcq_mcs (m : Mach) (p : Port) (f : Acq → Acq) : (m.modAcq p f).mcs = m.mcs := rfl
@[simp] theorem Mach.modAcq_rsv (m : Mach) (p : Port) (f : Acq → Acq) : (m.modAcq p f).rsv = m.rsv := rfl
@[simp] theorem Mach.modAcq_net (m : Mach) (p : Port) (f : Acq → Acq) : (m.modAcq p f).net = m.net := rfl
@[simp] theorem Mach.modAcq_ptp (m : Mach) (p : Port) (f : Acq → Acq) : (m.modAcq p f).ptp = m.ptp := rfl
@[simp] theorem Mach.modAcq_recs (m : Mach) (p : Port) (f : Acq → Acq) : (m.modAcq p f).recs = m.recs := rfl
@[simp] theorem Mach.modAcq_acq (m : Mach) (p : Port) (f : Acq → Acq) : (m.modAcq p f).acq = m.acq.put p (f (m.acq.at p)) := rfl
@[simp] theorem Mach.modAcq_cfe (m : Mach) (p : Port) (f : Acq → Acq) : (m.modAcq p f).cfe = m.cfe := rfl
@[simp] theorem Mach.modAcq_hkc (m : Mach) (p : Port) (f : Acq → Acq) : (m.modAcq p f).hkc = m.hkc := rfl
@[simp] theorem Mach.modAcq_adc (m : Mach) (p : Port) (f : Acq → Acq) : (m.modAcq p f).adc = m.adc := rfl
@[simp] theorem Mach.modAcq_dts (m : Mach) (p : Port) (f : Acq → Acq) : (m.modAcq p f).dts = m.dts := rfl
@[simp] theorem Mach.modAcq_grid (m : Mach) (p : Port) (f : Acq → Acq) : (m.modAcq p f).grid = m.grid := rfl
@[simp] theorem Mach.modAcq_cal (m : Mach) (p : Port) (f : Acq → Acq) : (m.modAcq p f).cal = m.cal := rfl
@[simp] theorem Mach.modAcq_free (m : Mach) (p : Port) (f : Acq → Acq) : (m.modAcq p f).free = m.free := rfl
@[simp] theorem Mach.modAcq_get (m : Mach) (p : Port) (f : Acq → Acq) (g : Fld) : (m.modAcq p f).get g = m.get g := rfl

@[simp] theorem Mach.modRaman_regs (m : Mach) (p : Port) (f : Raman → Raman) : (m.modRaman p f).regs = m.regs := rfl
@[simp] theorem Mach.modRaman_pwr (m : Mach) (p : Port) (f : Raman → Raman) : (m.modRaman p f).pwr = m.pwr := rfl
@[simp] theorem Mach.modRaman_boot (m : Mach) (p : Port) (f : Raman → Raman) : (m.modRaman p f).boot = m.boot := rfl
@[simp] theorem Mach.modRaman_commit (m : Mach) (p : Port) (f : Raman → Raman) : (m.modRaman p f).commit = m.commit := rfl
@[simp] theorem Mach.modRaman_evt (m : Mach) (p : Port) (f : Raman → Raman) : (m.modRaman p f).evt = m.evt := rfl
@[simp] theorem Mach.modRaman_bus (m : Mach) (p : Port) (f : Raman → Raman) : (m.modRaman p f).bus = m.bus := rfl
@[simp] theorem Mach.modRaman_clk (m : Mach) (p : Port) (f : Raman → Raman) : (m.modRaman p f).clk = m.clk := rfl
@[simp] theorem Mach.modRaman_tis (m : Mach) (p : Port) (f : Raman → Raman) : (m.modRaman p f).tis = m.tis := rfl
@[simp] theorem Mach.modRaman_mgmt (m : Mach) (p : Port) (f : Raman → Raman) : (m.modRaman p f).mgmt = m.mgmt := rfl
@[simp] theorem Mach.modRaman_latch (m : Mach) (p : Port) (f : Raman → Raman) : (m.modRaman p f).latch = m.latch := rfl
@[simp] theorem Mach.modRaman_train (m : Mach) (p : Port) (f : Raman → Raman) : (m.modRaman p f).train = m.train := rfl
@[simp] theorem Mach.modRaman_zones (m : Mach) (p : Port) (f : Raman → Raman) : (m.modRaman p f).zones = m.zones := rfl
@[simp] theorem Mach.modRaman_chans (m : Mach) (p : Port) (f : Raman → Raman) : (m.modRaman p f).chans = m.chans := rfl
@[simp] theorem Mach.modRaman_caps (m : Mach) (p : Port) (f : Raman → Raman) : (m.modRaman p f).caps = m.caps := rfl
@[simp] theorem Mach.modRaman_codec (m : Mach) (p : Port) (f : Raman → Raman) : (m.modRaman p f).codec = m.codec := rfl
@[simp] theorem Mach.modRaman_mcs (m : Mach) (p : Port) (f : Raman → Raman) : (m.modRaman p f).mcs = m.mcs := rfl
@[simp] theorem Mach.modRaman_rsv (m : Mach) (p : Port) (f : Raman → Raman) : (m.modRaman p f).rsv = m.rsv := rfl
@[simp] theorem Mach.modRaman_net (m : Mach) (p : Port) (f : Raman → Raman) : (m.modRaman p f).net = m.net := rfl
@[simp] theorem Mach.modRaman_ptp (m : Mach) (p : Port) (f : Raman → Raman) : (m.modRaman p f).ptp = m.ptp := rfl
@[simp] theorem Mach.modRaman_recs (m : Mach) (p : Port) (f : Raman → Raman) : (m.modRaman p f).recs = m.recs := rfl
@[simp] theorem Mach.modRaman_acq (m : Mach) (p : Port) (f : Raman → Raman) : (m.modRaman p f).acq = m.acq := rfl
@[simp] theorem Mach.modRaman_cfe (m : Mach) (p : Port) (f : Raman → Raman) : (m.modRaman p f).cfe = m.cfe := rfl
@[simp] theorem Mach.modRaman_hkc (m : Mach) (p : Port) (f : Raman → Raman) : (m.modRaman p f).hkc = m.hkc := rfl
@[simp] theorem Mach.modRaman_adc (m : Mach) (p : Port) (f : Raman → Raman) : (m.modRaman p f).adc = m.adc := rfl
@[simp] theorem Mach.modRaman_dts (m : Mach) (p : Port) (f : Raman → Raman) : (m.modRaman p f).dts = m.dts.put p (f (m.dts.at p)) := rfl
@[simp] theorem Mach.modRaman_grid (m : Mach) (p : Port) (f : Raman → Raman) : (m.modRaman p f).grid = m.grid := rfl
@[simp] theorem Mach.modRaman_cal (m : Mach) (p : Port) (f : Raman → Raman) : (m.modRaman p f).cal = m.cal := rfl
@[simp] theorem Mach.modRaman_free (m : Mach) (p : Port) (f : Raman → Raman) : (m.modRaman p f).free = m.free := rfl
@[simp] theorem Mach.modRaman_get (m : Mach) (p : Port) (f : Raman → Raman) (g : Fld) : (m.modRaman p f).get g = m.get g := rfl

@[simp] theorem Mach.modZone_regs (m : Mach) (p : Port) (f : ZoneUnit → ZoneUnit) : (m.modZone p f).regs = m.regs := rfl
@[simp] theorem Mach.modZone_pwr (m : Mach) (p : Port) (f : ZoneUnit → ZoneUnit) : (m.modZone p f).pwr = m.pwr := rfl
@[simp] theorem Mach.modZone_boot (m : Mach) (p : Port) (f : ZoneUnit → ZoneUnit) : (m.modZone p f).boot = m.boot := rfl
@[simp] theorem Mach.modZone_commit (m : Mach) (p : Port) (f : ZoneUnit → ZoneUnit) : (m.modZone p f).commit = m.commit := rfl
@[simp] theorem Mach.modZone_evt (m : Mach) (p : Port) (f : ZoneUnit → ZoneUnit) : (m.modZone p f).evt = m.evt := rfl
@[simp] theorem Mach.modZone_bus (m : Mach) (p : Port) (f : ZoneUnit → ZoneUnit) : (m.modZone p f).bus = m.bus := rfl
@[simp] theorem Mach.modZone_clk (m : Mach) (p : Port) (f : ZoneUnit → ZoneUnit) : (m.modZone p f).clk = m.clk := rfl
@[simp] theorem Mach.modZone_tis (m : Mach) (p : Port) (f : ZoneUnit → ZoneUnit) : (m.modZone p f).tis = m.tis := rfl
@[simp] theorem Mach.modZone_mgmt (m : Mach) (p : Port) (f : ZoneUnit → ZoneUnit) : (m.modZone p f).mgmt = m.mgmt := rfl
@[simp] theorem Mach.modZone_latch (m : Mach) (p : Port) (f : ZoneUnit → ZoneUnit) : (m.modZone p f).latch = m.latch := rfl
@[simp] theorem Mach.modZone_train (m : Mach) (p : Port) (f : ZoneUnit → ZoneUnit) : (m.modZone p f).train = m.train := rfl
@[simp] theorem Mach.modZone_zones (m : Mach) (p : Port) (f : ZoneUnit → ZoneUnit) : (m.modZone p f).zones = m.zones.put p (f (m.zones.at p)) := rfl
@[simp] theorem Mach.modZone_chans (m : Mach) (p : Port) (f : ZoneUnit → ZoneUnit) : (m.modZone p f).chans = m.chans := rfl
@[simp] theorem Mach.modZone_caps (m : Mach) (p : Port) (f : ZoneUnit → ZoneUnit) : (m.modZone p f).caps = m.caps := rfl
@[simp] theorem Mach.modZone_codec (m : Mach) (p : Port) (f : ZoneUnit → ZoneUnit) : (m.modZone p f).codec = m.codec := rfl
@[simp] theorem Mach.modZone_mcs (m : Mach) (p : Port) (f : ZoneUnit → ZoneUnit) : (m.modZone p f).mcs = m.mcs := rfl
@[simp] theorem Mach.modZone_rsv (m : Mach) (p : Port) (f : ZoneUnit → ZoneUnit) : (m.modZone p f).rsv = m.rsv := rfl
@[simp] theorem Mach.modZone_net (m : Mach) (p : Port) (f : ZoneUnit → ZoneUnit) : (m.modZone p f).net = m.net := rfl
@[simp] theorem Mach.modZone_ptp (m : Mach) (p : Port) (f : ZoneUnit → ZoneUnit) : (m.modZone p f).ptp = m.ptp := rfl
@[simp] theorem Mach.modZone_recs (m : Mach) (p : Port) (f : ZoneUnit → ZoneUnit) : (m.modZone p f).recs = m.recs := rfl
@[simp] theorem Mach.modZone_acq (m : Mach) (p : Port) (f : ZoneUnit → ZoneUnit) : (m.modZone p f).acq = m.acq := rfl
@[simp] theorem Mach.modZone_cfe (m : Mach) (p : Port) (f : ZoneUnit → ZoneUnit) : (m.modZone p f).cfe = m.cfe := rfl
@[simp] theorem Mach.modZone_hkc (m : Mach) (p : Port) (f : ZoneUnit → ZoneUnit) : (m.modZone p f).hkc = m.hkc := rfl
@[simp] theorem Mach.modZone_adc (m : Mach) (p : Port) (f : ZoneUnit → ZoneUnit) : (m.modZone p f).adc = m.adc := rfl
@[simp] theorem Mach.modZone_dts (m : Mach) (p : Port) (f : ZoneUnit → ZoneUnit) : (m.modZone p f).dts = m.dts := rfl
@[simp] theorem Mach.modZone_grid (m : Mach) (p : Port) (f : ZoneUnit → ZoneUnit) : (m.modZone p f).grid = m.grid := rfl
@[simp] theorem Mach.modZone_cal (m : Mach) (p : Port) (f : ZoneUnit → ZoneUnit) : (m.modZone p f).cal = m.cal := rfl
@[simp] theorem Mach.modZone_free (m : Mach) (p : Port) (f : ZoneUnit → ZoneUnit) : (m.modZone p f).free = m.free := rfl
@[simp] theorem Mach.modZone_get (m : Mach) (p : Port) (f : ZoneUnit → ZoneUnit) (g : Fld) : (m.modZone p f).get g = m.get g := rfl

@[simp] theorem Mach.putRanger_regs (m : Mach) (p : Port) (y : Pol) (r : Ranger) : (m.putRanger p y r).regs = m.regs := rfl
@[simp] theorem Mach.putRanger_pwr (m : Mach) (p : Port) (y : Pol) (r : Ranger) : (m.putRanger p y r).pwr = m.pwr := rfl
@[simp] theorem Mach.putRanger_boot (m : Mach) (p : Port) (y : Pol) (r : Ranger) : (m.putRanger p y r).boot = m.boot := rfl
@[simp] theorem Mach.putRanger_commit (m : Mach) (p : Port) (y : Pol) (r : Ranger) : (m.putRanger p y r).commit = m.commit := rfl
@[simp] theorem Mach.putRanger_evt (m : Mach) (p : Port) (y : Pol) (r : Ranger) : (m.putRanger p y r).evt = m.evt := rfl
@[simp] theorem Mach.putRanger_bus (m : Mach) (p : Port) (y : Pol) (r : Ranger) : (m.putRanger p y r).bus = m.bus := rfl
@[simp] theorem Mach.putRanger_clk (m : Mach) (p : Port) (y : Pol) (r : Ranger) : (m.putRanger p y r).clk = m.clk := rfl
@[simp] theorem Mach.putRanger_tis (m : Mach) (p : Port) (y : Pol) (r : Ranger) : (m.putRanger p y r).tis = m.tis := rfl
@[simp] theorem Mach.putRanger_mgmt (m : Mach) (p : Port) (y : Pol) (r : Ranger) : (m.putRanger p y r).mgmt = m.mgmt := rfl
@[simp] theorem Mach.putRanger_latch (m : Mach) (p : Port) (y : Pol) (r : Ranger) : (m.putRanger p y r).latch = m.latch := rfl
@[simp] theorem Mach.putRanger_train (m : Mach) (p : Port) (y : Pol) (r : Ranger) : (m.putRanger p y r).train = m.train := rfl
@[simp] theorem Mach.putRanger_zones (m : Mach) (p : Port) (y : Pol) (r : Ranger) : (m.putRanger p y r).zones = m.zones := rfl
@[simp] theorem Mach.putRanger_chans (m : Mach) (p : Port) (y : Pol) (r : Ranger) : (m.putRanger p y r).chans = m.chans := rfl
@[simp] theorem Mach.putRanger_caps (m : Mach) (p : Port) (y : Pol) (r : Ranger) : (m.putRanger p y r).caps = m.caps := rfl
@[simp] theorem Mach.putRanger_codec (m : Mach) (p : Port) (y : Pol) (r : Ranger) : (m.putRanger p y r).codec = m.codec := rfl
@[simp] theorem Mach.putRanger_mcs (m : Mach) (p : Port) (y : Pol) (r : Ranger) : (m.putRanger p y r).mcs = m.mcs := rfl
@[simp] theorem Mach.putRanger_rsv (m : Mach) (p : Port) (y : Pol) (r : Ranger) : (m.putRanger p y r).rsv = m.rsv := rfl
@[simp] theorem Mach.putRanger_net (m : Mach) (p : Port) (y : Pol) (r : Ranger) : (m.putRanger p y r).net = m.net := rfl
@[simp] theorem Mach.putRanger_ptp (m : Mach) (p : Port) (y : Pol) (r : Ranger) : (m.putRanger p y r).ptp = m.ptp := rfl
@[simp] theorem Mach.putRanger_recs (m : Mach) (p : Port) (y : Pol) (r : Ranger) : (m.putRanger p y r).recs = m.recs := rfl
@[simp] theorem Mach.putRanger_acq (m : Mach) (p : Port) (y : Pol) (r : Ranger) : (m.putRanger p y r).acq = m.acq := rfl
@[simp] theorem Mach.putRanger_hkc (m : Mach) (p : Port) (y : Pol) (r : Ranger) : (m.putRanger p y r).hkc = m.hkc := rfl
@[simp] theorem Mach.putRanger_adc (m : Mach) (p : Port) (y : Pol) (r : Ranger) : (m.putRanger p y r).adc = m.adc := rfl
@[simp] theorem Mach.putRanger_dts (m : Mach) (p : Port) (y : Pol) (r : Ranger) : (m.putRanger p y r).dts = m.dts := rfl
@[simp] theorem Mach.putRanger_grid (m : Mach) (p : Port) (y : Pol) (r : Ranger) : (m.putRanger p y r).grid = m.grid := rfl
@[simp] theorem Mach.putRanger_cal (m : Mach) (p : Port) (y : Pol) (r : Ranger) : (m.putRanger p y r).cal = m.cal := rfl
@[simp] theorem Mach.putRanger_free (m : Mach) (p : Port) (y : Pol) (r : Ranger) : (m.putRanger p y r).free = m.free := rfl
@[simp] theorem Mach.putRanger_get (m : Mach) (p : Port) (y : Pol) (r : Ranger) (g : Fld) : (m.putRanger p y r).get g = m.get g := rfl

@[simp] theorem Mach.modMc_regs (m : Mach) (c : Nat) (f : MemChan → MemChan) : (m.modMc c f).regs = m.regs := rfl
@[simp] theorem Mach.modMc_pwr (m : Mach) (c : Nat) (f : MemChan → MemChan) : (m.modMc c f).pwr = m.pwr := rfl
@[simp] theorem Mach.modMc_boot (m : Mach) (c : Nat) (f : MemChan → MemChan) : (m.modMc c f).boot = m.boot := rfl
@[simp] theorem Mach.modMc_commit (m : Mach) (c : Nat) (f : MemChan → MemChan) : (m.modMc c f).commit = m.commit := rfl
@[simp] theorem Mach.modMc_evt (m : Mach) (c : Nat) (f : MemChan → MemChan) : (m.modMc c f).evt = m.evt := rfl
@[simp] theorem Mach.modMc_bus (m : Mach) (c : Nat) (f : MemChan → MemChan) : (m.modMc c f).bus = m.bus := rfl
@[simp] theorem Mach.modMc_clk (m : Mach) (c : Nat) (f : MemChan → MemChan) : (m.modMc c f).clk = m.clk := rfl
@[simp] theorem Mach.modMc_tis (m : Mach) (c : Nat) (f : MemChan → MemChan) : (m.modMc c f).tis = m.tis := rfl
@[simp] theorem Mach.modMc_mgmt (m : Mach) (c : Nat) (f : MemChan → MemChan) : (m.modMc c f).mgmt = m.mgmt := rfl
@[simp] theorem Mach.modMc_latch (m : Mach) (c : Nat) (f : MemChan → MemChan) : (m.modMc c f).latch = m.latch := rfl
@[simp] theorem Mach.modMc_train (m : Mach) (c : Nat) (f : MemChan → MemChan) : (m.modMc c f).train = m.train := rfl
@[simp] theorem Mach.modMc_zones (m : Mach) (c : Nat) (f : MemChan → MemChan) : (m.modMc c f).zones = m.zones := rfl
@[simp] theorem Mach.modMc_chans (m : Mach) (c : Nat) (f : MemChan → MemChan) : (m.modMc c f).chans = m.chans := rfl
@[simp] theorem Mach.modMc_caps (m : Mach) (c : Nat) (f : MemChan → MemChan) : (m.modMc c f).caps = m.caps := rfl
@[simp] theorem Mach.modMc_codec (m : Mach) (c : Nat) (f : MemChan → MemChan) : (m.modMc c f).codec = m.codec := rfl
@[simp] theorem Mach.modMc_mcs (m : Mach) (c : Nat) (f : MemChan → MemChan) : (m.modMc c f).mcs = m.mcs.putIx c (f (m.mcs.ix c)) := rfl
@[simp] theorem Mach.modMc_rsv (m : Mach) (c : Nat) (f : MemChan → MemChan) : (m.modMc c f).rsv = m.rsv := rfl
@[simp] theorem Mach.modMc_net (m : Mach) (c : Nat) (f : MemChan → MemChan) : (m.modMc c f).net = m.net := rfl
@[simp] theorem Mach.modMc_ptp (m : Mach) (c : Nat) (f : MemChan → MemChan) : (m.modMc c f).ptp = m.ptp := rfl
@[simp] theorem Mach.modMc_recs (m : Mach) (c : Nat) (f : MemChan → MemChan) : (m.modMc c f).recs = m.recs := rfl
@[simp] theorem Mach.modMc_acq (m : Mach) (c : Nat) (f : MemChan → MemChan) : (m.modMc c f).acq = m.acq := rfl
@[simp] theorem Mach.modMc_cfe (m : Mach) (c : Nat) (f : MemChan → MemChan) : (m.modMc c f).cfe = m.cfe := rfl
@[simp] theorem Mach.modMc_hkc (m : Mach) (c : Nat) (f : MemChan → MemChan) : (m.modMc c f).hkc = m.hkc := rfl
@[simp] theorem Mach.modMc_adc (m : Mach) (c : Nat) (f : MemChan → MemChan) : (m.modMc c f).adc = m.adc := rfl
@[simp] theorem Mach.modMc_dts (m : Mach) (c : Nat) (f : MemChan → MemChan) : (m.modMc c f).dts = m.dts := rfl
@[simp] theorem Mach.modMc_grid (m : Mach) (c : Nat) (f : MemChan → MemChan) : (m.modMc c f).grid = m.grid := rfl
@[simp] theorem Mach.modMc_cal (m : Mach) (c : Nat) (f : MemChan → MemChan) : (m.modMc c f).cal = m.cal := rfl
@[simp] theorem Mach.modMc_free (m : Mach) (c : Nat) (f : MemChan → MemChan) : (m.modMc c f).free = m.free := rfl
@[simp] theorem Mach.modMc_get (m : Mach) (c : Nat) (f : MemChan → MemChan) (g : Fld) : (m.modMc c f).get g = m.get g := rfl

@[simp] theorem Mach.modChan_regs (m : Mach) (c : Nat) (f : Channel → Channel) : (m.modChan c f).regs = m.regs := rfl
@[simp] theorem Mach.modChan_pwr (m : Mach) (c : Nat) (f : Channel → Channel) : (m.modChan c f).pwr = m.pwr := rfl
@[simp] theorem Mach.modChan_boot (m : Mach) (c : Nat) (f : Channel → Channel) : (m.modChan c f).boot = m.boot := rfl
@[simp] theorem Mach.modChan_commit (m : Mach) (c : Nat) (f : Channel → Channel) : (m.modChan c f).commit = m.commit := rfl
@[simp] theorem Mach.modChan_evt (m : Mach) (c : Nat) (f : Channel → Channel) : (m.modChan c f).evt = m.evt := rfl
@[simp] theorem Mach.modChan_bus (m : Mach) (c : Nat) (f : Channel → Channel) : (m.modChan c f).bus = m.bus := rfl
@[simp] theorem Mach.modChan_clk (m : Mach) (c : Nat) (f : Channel → Channel) : (m.modChan c f).clk = m.clk := rfl
@[simp] theorem Mach.modChan_tis (m : Mach) (c : Nat) (f : Channel → Channel) : (m.modChan c f).tis = m.tis := rfl
@[simp] theorem Mach.modChan_mgmt (m : Mach) (c : Nat) (f : Channel → Channel) : (m.modChan c f).mgmt = m.mgmt := rfl
@[simp] theorem Mach.modChan_latch (m : Mach) (c : Nat) (f : Channel → Channel) : (m.modChan c f).latch = m.latch := rfl
@[simp] theorem Mach.modChan_train (m : Mach) (c : Nat) (f : Channel → Channel) : (m.modChan c f).train = m.train := rfl
@[simp] theorem Mach.modChan_zones (m : Mach) (c : Nat) (f : Channel → Channel) : (m.modChan c f).zones = m.zones := rfl
@[simp] theorem Mach.modChan_chans (m : Mach) (c : Nat) (f : Channel → Channel) : (m.modChan c f).chans = mapPut {} m.chans c (f (mapGet {} m.chans c)) := rfl
@[simp] theorem Mach.modChan_caps (m : Mach) (c : Nat) (f : Channel → Channel) : (m.modChan c f).caps = m.caps := rfl
@[simp] theorem Mach.modChan_codec (m : Mach) (c : Nat) (f : Channel → Channel) : (m.modChan c f).codec = m.codec := rfl
@[simp] theorem Mach.modChan_mcs (m : Mach) (c : Nat) (f : Channel → Channel) : (m.modChan c f).mcs = m.mcs := rfl
@[simp] theorem Mach.modChan_rsv (m : Mach) (c : Nat) (f : Channel → Channel) : (m.modChan c f).rsv = m.rsv := rfl
@[simp] theorem Mach.modChan_net (m : Mach) (c : Nat) (f : Channel → Channel) : (m.modChan c f).net = m.net := rfl
@[simp] theorem Mach.modChan_ptp (m : Mach) (c : Nat) (f : Channel → Channel) : (m.modChan c f).ptp = m.ptp := rfl
@[simp] theorem Mach.modChan_recs (m : Mach) (c : Nat) (f : Channel → Channel) : (m.modChan c f).recs = m.recs := rfl
@[simp] theorem Mach.modChan_acq (m : Mach) (c : Nat) (f : Channel → Channel) : (m.modChan c f).acq = m.acq := rfl
@[simp] theorem Mach.modChan_cfe (m : Mach) (c : Nat) (f : Channel → Channel) : (m.modChan c f).cfe = m.cfe := rfl
@[simp] theorem Mach.modChan_hkc (m : Mach) (c : Nat) (f : Channel → Channel) : (m.modChan c f).hkc = m.hkc := rfl
@[simp] theorem Mach.modChan_adc (m : Mach) (c : Nat) (f : Channel → Channel) : (m.modChan c f).adc = m.adc := rfl
@[simp] theorem Mach.modChan_dts (m : Mach) (c : Nat) (f : Channel → Channel) : (m.modChan c f).dts = m.dts := rfl
@[simp] theorem Mach.modChan_grid (m : Mach) (c : Nat) (f : Channel → Channel) : (m.modChan c f).grid = m.grid := rfl
@[simp] theorem Mach.modChan_cal (m : Mach) (c : Nat) (f : Channel → Channel) : (m.modChan c f).cal = m.cal := rfl
@[simp] theorem Mach.modChan_free (m : Mach) (c : Nat) (f : Channel → Channel) : (m.modChan c f).free = m.free := rfl
@[simp] theorem Mach.modChan_get (m : Mach) (c : Nat) (f : Channel → Channel) (g : Fld) : (m.modChan c f).get g = m.get g := rfl

@[simp] theorem Mach.modOc_regs (m : Mach) (d : Nat) (f : OrdClock → OrdClock) : (m.modOc d f).regs = m.regs := rfl
@[simp] theorem Mach.modOc_pwr (m : Mach) (d : Nat) (f : OrdClock → OrdClock) : (m.modOc d f).pwr = m.pwr := rfl
@[simp] theorem Mach.modOc_boot (m : Mach) (d : Nat) (f : OrdClock → OrdClock) : (m.modOc d f).boot = m.boot := rfl
@[simp] theorem Mach.modOc_commit (m : Mach) (d : Nat) (f : OrdClock → OrdClock) : (m.modOc d f).commit = m.commit := rfl
@[simp] theorem Mach.modOc_evt (m : Mach) (d : Nat) (f : OrdClock → OrdClock) : (m.modOc d f).evt = m.evt := rfl
@[simp] theorem Mach.modOc_bus (m : Mach) (d : Nat) (f : OrdClock → OrdClock) : (m.modOc d f).bus = m.bus := rfl
@[simp] theorem Mach.modOc_clk (m : Mach) (d : Nat) (f : OrdClock → OrdClock) : (m.modOc d f).clk = m.clk := rfl
@[simp] theorem Mach.modOc_tis (m : Mach) (d : Nat) (f : OrdClock → OrdClock) : (m.modOc d f).tis = m.tis := rfl
@[simp] theorem Mach.modOc_mgmt (m : Mach) (d : Nat) (f : OrdClock → OrdClock) : (m.modOc d f).mgmt = m.mgmt := rfl
@[simp] theorem Mach.modOc_latch (m : Mach) (d : Nat) (f : OrdClock → OrdClock) : (m.modOc d f).latch = m.latch := rfl
@[simp] theorem Mach.modOc_train (m : Mach) (d : Nat) (f : OrdClock → OrdClock) : (m.modOc d f).train = m.train := rfl
@[simp] theorem Mach.modOc_zones (m : Mach) (d : Nat) (f : OrdClock → OrdClock) : (m.modOc d f).zones = m.zones := rfl
@[simp] theorem Mach.modOc_chans (m : Mach) (d : Nat) (f : OrdClock → OrdClock) : (m.modOc d f).chans = m.chans := rfl
@[simp] theorem Mach.modOc_caps (m : Mach) (d : Nat) (f : OrdClock → OrdClock) : (m.modOc d f).caps = m.caps := rfl
@[simp] theorem Mach.modOc_codec (m : Mach) (d : Nat) (f : OrdClock → OrdClock) : (m.modOc d f).codec = m.codec := rfl
@[simp] theorem Mach.modOc_mcs (m : Mach) (d : Nat) (f : OrdClock → OrdClock) : (m.modOc d f).mcs = m.mcs := rfl
@[simp] theorem Mach.modOc_rsv (m : Mach) (d : Nat) (f : OrdClock → OrdClock) : (m.modOc d f).rsv = m.rsv := rfl
@[simp] theorem Mach.modOc_net (m : Mach) (d : Nat) (f : OrdClock → OrdClock) : (m.modOc d f).net = m.net := rfl
@[simp] theorem Mach.modOc_ptp (m : Mach) (d : Nat) (f : OrdClock → OrdClock) : (m.modOc d f).ptp = { clocks := mapMod {} m.ptp.clocks d f } := rfl
@[simp] theorem Mach.modOc_recs (m : Mach) (d : Nat) (f : OrdClock → OrdClock) : (m.modOc d f).recs = m.recs := rfl
@[simp] theorem Mach.modOc_acq (m : Mach) (d : Nat) (f : OrdClock → OrdClock) : (m.modOc d f).acq = m.acq := rfl
@[simp] theorem Mach.modOc_cfe (m : Mach) (d : Nat) (f : OrdClock → OrdClock) : (m.modOc d f).cfe = m.cfe := rfl
@[simp] theorem Mach.modOc_hkc (m : Mach) (d : Nat) (f : OrdClock → OrdClock) : (m.modOc d f).hkc = m.hkc := rfl
@[simp] theorem Mach.modOc_adc (m : Mach) (d : Nat) (f : OrdClock → OrdClock) : (m.modOc d f).adc = m.adc := rfl
@[simp] theorem Mach.modOc_dts (m : Mach) (d : Nat) (f : OrdClock → OrdClock) : (m.modOc d f).dts = m.dts := rfl
@[simp] theorem Mach.modOc_grid (m : Mach) (d : Nat) (f : OrdClock → OrdClock) : (m.modOc d f).grid = m.grid := rfl
@[simp] theorem Mach.modOc_cal (m : Mach) (d : Nat) (f : OrdClock → OrdClock) : (m.modOc d f).cal = m.cal := rfl
@[simp] theorem Mach.modOc_free (m : Mach) (d : Nat) (f : OrdClock → OrdClock) : (m.modOc d f).free = m.free := rfl
@[simp] theorem Mach.modOc_get (m : Mach) (d : Nat) (f : OrdClock → OrdClock) (g : Fld) : (m.modOc d f).get g = m.get g := rfl

@[simp] theorem Mach.modPort_regs (m : Mach) (n : Nat) (f : NetPort → NetPort) : (m.modPort n f).regs = m.regs := rfl
@[simp] theorem Mach.modPort_pwr (m : Mach) (n : Nat) (f : NetPort → NetPort) : (m.modPort n f).pwr = m.pwr := rfl
@[simp] theorem Mach.modPort_boot (m : Mach) (n : Nat) (f : NetPort → NetPort) : (m.modPort n f).boot = m.boot := rfl
@[simp] theorem Mach.modPort_commit (m : Mach) (n : Nat) (f : NetPort → NetPort) : (m.modPort n f).commit = m.commit := rfl
@[simp] theorem Mach.modPort_evt (m : Mach) (n : Nat) (f : NetPort → NetPort) : (m.modPort n f).evt = m.evt := rfl
@[simp] theorem Mach.modPort_bus (m : Mach) (n : Nat) (f : NetPort → NetPort) : (m.modPort n f).bus = m.bus := rfl
@[simp] theorem Mach.modPort_clk (m : Mach) (n : Nat) (f : NetPort → NetPort) : (m.modPort n f).clk = m.clk := rfl
@[simp] theorem Mach.modPort_tis (m : Mach) (n : Nat) (f : NetPort → NetPort) : (m.modPort n f).tis = m.tis := rfl
@[simp] theorem Mach.modPort_mgmt (m : Mach) (n : Nat) (f : NetPort → NetPort) : (m.modPort n f).mgmt = m.mgmt := rfl
@[simp] theorem Mach.modPort_latch (m : Mach) (n : Nat) (f : NetPort → NetPort) : (m.modPort n f).latch = m.latch := rfl
@[simp] theorem Mach.modPort_train (m : Mach) (n : Nat) (f : NetPort → NetPort) : (m.modPort n f).train = m.train := rfl
@[simp] theorem Mach.modPort_zones (m : Mach) (n : Nat) (f : NetPort → NetPort) : (m.modPort n f).zones = m.zones := rfl
@[simp] theorem Mach.modPort_chans (m : Mach) (n : Nat) (f : NetPort → NetPort) : (m.modPort n f).chans = m.chans := rfl
@[simp] theorem Mach.modPort_caps (m : Mach) (n : Nat) (f : NetPort → NetPort) : (m.modPort n f).caps = m.caps := rfl
@[simp] theorem Mach.modPort_codec (m : Mach) (n : Nat) (f : NetPort → NetPort) : (m.modPort n f).codec = m.codec := rfl
@[simp] theorem Mach.modPort_mcs (m : Mach) (n : Nat) (f : NetPort → NetPort) : (m.modPort n f).mcs = m.mcs := rfl
@[simp] theorem Mach.modPort_rsv (m : Mach) (n : Nat) (f : NetPort → NetPort) : (m.modPort n f).rsv = m.rsv := rfl
@[simp] theorem Mach.modPort_ptp (m : Mach) (n : Nat) (f : NetPort → NetPort) : (m.modPort n f).ptp = m.ptp := rfl
@[simp] theorem Mach.modPort_recs (m : Mach) (n : Nat) (f : NetPort → NetPort) : (m.modPort n f).recs = m.recs := rfl
@[simp] theorem Mach.modPort_acq (m : Mach) (n : Nat) (f : NetPort → NetPort) : (m.modPort n f).acq = m.acq := rfl
@[simp] theorem Mach.modPort_cfe (m : Mach) (n : Nat) (f : NetPort → NetPort) : (m.modPort n f).cfe = m.cfe := rfl
@[simp] theorem Mach.modPort_hkc (m : Mach) (n : Nat) (f : NetPort → NetPort) : (m.modPort n f).hkc = m.hkc := rfl
@[simp] theorem Mach.modPort_adc (m : Mach) (n : Nat) (f : NetPort → NetPort) : (m.modPort n f).adc = m.adc := rfl
@[simp] theorem Mach.modPort_dts (m : Mach) (n : Nat) (f : NetPort → NetPort) : (m.modPort n f).dts = m.dts := rfl
@[simp] theorem Mach.modPort_grid (m : Mach) (n : Nat) (f : NetPort → NetPort) : (m.modPort n f).grid = m.grid := rfl
@[simp] theorem Mach.modPort_cal (m : Mach) (n : Nat) (f : NetPort → NetPort) : (m.modPort n f).cal = m.cal := rfl
@[simp] theorem Mach.modPort_free (m : Mach) (n : Nat) (f : NetPort → NetPort) : (m.modPort n f).free = m.free := rfl
@[simp] theorem Mach.modPort_get (m : Mach) (n : Nat) (f : NetPort → NetPort) (g : Fld) : (m.modPort n f).get g = m.get g := rfl

@[simp] theorem Mach.putJewel_regs (m : Mach) (e : Nat) (j : Jewel) : (m.putJewel e j).regs = m.regs := rfl
@[simp] theorem Mach.putJewel_pwr (m : Mach) (e : Nat) (j : Jewel) : (m.putJewel e j).pwr = m.pwr := rfl
@[simp] theorem Mach.putJewel_boot (m : Mach) (e : Nat) (j : Jewel) : (m.putJewel e j).boot = m.boot := rfl
@[simp] theorem Mach.putJewel_commit (m : Mach) (e : Nat) (j : Jewel) : (m.putJewel e j).commit = m.commit := rfl
@[simp] theorem Mach.putJewel_evt (m : Mach) (e : Nat) (j : Jewel) : (m.putJewel e j).evt = m.evt := rfl
@[simp] theorem Mach.putJewel_bus (m : Mach) (e : Nat) (j : Jewel) : (m.putJewel e j).bus = m.bus := rfl
@[simp] theorem Mach.putJewel_clk (m : Mach) (e : Nat) (j : Jewel) : (m.putJewel e j).clk = m.clk := rfl
@[simp] theorem Mach.putJewel_tis (m : Mach) (e : Nat) (j : Jewel) : (m.putJewel e j).tis = m.tis := rfl
@[simp] theorem Mach.putJewel_mgmt (m : Mach) (e : Nat) (j : Jewel) : (m.putJewel e j).mgmt = m.mgmt := rfl
@[simp] theorem Mach.putJewel_latch (m : Mach) (e : Nat) (j : Jewel) : (m.putJewel e j).latch = m.latch := rfl
@[simp] theorem Mach.putJewel_train (m : Mach) (e : Nat) (j : Jewel) : (m.putJewel e j).train = { m.train with jewels := mapPut {} m.train.jewels e j } := rfl
@[simp] theorem Mach.putJewel_zones (m : Mach) (e : Nat) (j : Jewel) : (m.putJewel e j).zones = m.zones := rfl
@[simp] theorem Mach.putJewel_chans (m : Mach) (e : Nat) (j : Jewel) : (m.putJewel e j).chans = m.chans := rfl
@[simp] theorem Mach.putJewel_caps (m : Mach) (e : Nat) (j : Jewel) : (m.putJewel e j).caps = m.caps := rfl
@[simp] theorem Mach.putJewel_codec (m : Mach) (e : Nat) (j : Jewel) : (m.putJewel e j).codec = m.codec := rfl
@[simp] theorem Mach.putJewel_mcs (m : Mach) (e : Nat) (j : Jewel) : (m.putJewel e j).mcs = m.mcs := rfl
@[simp] theorem Mach.putJewel_rsv (m : Mach) (e : Nat) (j : Jewel) : (m.putJewel e j).rsv = m.rsv := rfl
@[simp] theorem Mach.putJewel_net (m : Mach) (e : Nat) (j : Jewel) : (m.putJewel e j).net = m.net := rfl
@[simp] theorem Mach.putJewel_ptp (m : Mach) (e : Nat) (j : Jewel) : (m.putJewel e j).ptp = m.ptp := rfl
@[simp] theorem Mach.putJewel_recs (m : Mach) (e : Nat) (j : Jewel) : (m.putJewel e j).recs = m.recs := rfl
@[simp] theorem Mach.putJewel_acq (m : Mach) (e : Nat) (j : Jewel) : (m.putJewel e j).acq = m.acq := rfl
@[simp] theorem Mach.putJewel_cfe (m : Mach) (e : Nat) (j : Jewel) : (m.putJewel e j).cfe = m.cfe := rfl
@[simp] theorem Mach.putJewel_hkc (m : Mach) (e : Nat) (j : Jewel) : (m.putJewel e j).hkc = m.hkc := rfl
@[simp] theorem Mach.putJewel_adc (m : Mach) (e : Nat) (j : Jewel) : (m.putJewel e j).adc = m.adc := rfl
@[simp] theorem Mach.putJewel_dts (m : Mach) (e : Nat) (j : Jewel) : (m.putJewel e j).dts = m.dts := rfl
@[simp] theorem Mach.putJewel_grid (m : Mach) (e : Nat) (j : Jewel) : (m.putJewel e j).grid = m.grid := rfl
@[simp] theorem Mach.putJewel_cal (m : Mach) (e : Nat) (j : Jewel) : (m.putJewel e j).cal = m.cal := rfl
@[simp] theorem Mach.putJewel_free (m : Mach) (e : Nat) (j : Jewel) : (m.putJewel e j).free = m.free := rfl
@[simp] theorem Mach.putJewel_get (m : Mach) (e : Nat) (j : Jewel) (g : Fld) : (m.putJewel e j).get g = m.get g := rfl

@[simp] theorem Mach.putSlot_regs (m : Mach) (n : Nat) (x : Slot) : (m.putSlot n x).regs = m.regs := rfl
@[simp] theorem Mach.putSlot_pwr (m : Mach) (n : Nat) (x : Slot) : (m.putSlot n x).pwr = m.pwr := rfl
@[simp] theorem Mach.putSlot_boot (m : Mach) (n : Nat) (x : Slot) : (m.putSlot n x).boot = m.boot := rfl
@[simp] theorem Mach.putSlot_commit (m : Mach) (n : Nat) (x : Slot) : (m.putSlot n x).commit = m.commit := rfl
@[simp] theorem Mach.putSlot_evt (m : Mach) (n : Nat) (x : Slot) : (m.putSlot n x).evt = m.evt := rfl
@[simp] theorem Mach.putSlot_bus (m : Mach) (n : Nat) (x : Slot) : (m.putSlot n x).bus = m.bus := rfl
@[simp] theorem Mach.putSlot_clk (m : Mach) (n : Nat) (x : Slot) : (m.putSlot n x).clk = m.clk := rfl
@[simp] theorem Mach.putSlot_tis (m : Mach) (n : Nat) (x : Slot) : (m.putSlot n x).tis = m.tis := rfl
@[simp] theorem Mach.putSlot_mgmt (m : Mach) (n : Nat) (x : Slot) : (m.putSlot n x).mgmt = m.mgmt := rfl
@[simp] theorem Mach.putSlot_latch (m : Mach) (n : Nat) (x : Slot) : (m.putSlot n x).latch = m.latch := rfl
@[simp] theorem Mach.putSlot_train (m : Mach) (n : Nat) (x : Slot) : (m.putSlot n x).train = m.train := rfl
@[simp] theorem Mach.putSlot_zones (m : Mach) (n : Nat) (x : Slot) : (m.putSlot n x).zones = m.zones := rfl
@[simp] theorem Mach.putSlot_chans (m : Mach) (n : Nat) (x : Slot) : (m.putSlot n x).chans = m.chans := rfl
@[simp] theorem Mach.putSlot_caps (m : Mach) (n : Nat) (x : Slot) : (m.putSlot n x).caps = m.caps := rfl
@[simp] theorem Mach.putSlot_codec (m : Mach) (n : Nat) (x : Slot) : (m.putSlot n x).codec = m.codec := rfl
@[simp] theorem Mach.putSlot_mcs (m : Mach) (n : Nat) (x : Slot) : (m.putSlot n x).mcs = m.mcs := rfl
@[simp] theorem Mach.putSlot_rsv (m : Mach) (n : Nat) (x : Slot) : (m.putSlot n x).rsv = m.rsv := rfl
@[simp] theorem Mach.putSlot_net (m : Mach) (n : Nat) (x : Slot) : (m.putSlot n x).net = m.net := rfl
@[simp] theorem Mach.putSlot_ptp (m : Mach) (n : Nat) (x : Slot) : (m.putSlot n x).ptp = m.ptp := rfl
@[simp] theorem Mach.putSlot_recs (m : Mach) (n : Nat) (x : Slot) : (m.putSlot n x).recs = { m.recs with slots := mapPut {} m.recs.slots n x } := rfl
@[simp] theorem Mach.putSlot_acq (m : Mach) (n : Nat) (x : Slot) : (m.putSlot n x).acq = m.acq := rfl
@[simp] theorem Mach.putSlot_cfe (m : Mach) (n : Nat) (x : Slot) : (m.putSlot n x).cfe = m.cfe := rfl
@[simp] theorem Mach.putSlot_hkc (m : Mach) (n : Nat) (x : Slot) : (m.putSlot n x).hkc = m.hkc := rfl
@[simp] theorem Mach.putSlot_adc (m : Mach) (n : Nat) (x : Slot) : (m.putSlot n x).adc = m.adc := rfl
@[simp] theorem Mach.putSlot_dts (m : Mach) (n : Nat) (x : Slot) : (m.putSlot n x).dts = m.dts := rfl
@[simp] theorem Mach.putSlot_grid (m : Mach) (n : Nat) (x : Slot) : (m.putSlot n x).grid = m.grid := rfl
@[simp] theorem Mach.putSlot_cal (m : Mach) (n : Nat) (x : Slot) : (m.putSlot n x).cal = m.cal := rfl
@[simp] theorem Mach.putSlot_free (m : Mach) (n : Nat) (x : Slot) : (m.putSlot n x).free = m.free := rfl
@[simp] theorem Mach.putSlot_get (m : Mach) (n : Nat) (x : Slot) (g : Fld) : (m.putSlot n x).get g = m.get g := rfl

@[simp] theorem Mach.draft_regs (m : Mach) (d : Draft) : (m.draft d).regs = m.regs := rfl
@[simp] theorem Mach.draft_pwr (m : Mach) (d : Draft) : (m.draft d).pwr = m.pwr := rfl
@[simp] theorem Mach.draft_boot (m : Mach) (d : Draft) : (m.draft d).boot = m.boot := rfl
@[simp] theorem Mach.draft_commit (m : Mach) (d : Draft) : (m.draft d).commit = m.commit := rfl
@[simp] theorem Mach.draft_evt (m : Mach) (d : Draft) : (m.draft d).evt = m.evt := rfl
@[simp] theorem Mach.draft_bus (m : Mach) (d : Draft) : (m.draft d).bus = m.bus := rfl
@[simp] theorem Mach.draft_clk (m : Mach) (d : Draft) : (m.draft d).clk = m.clk := rfl
@[simp] theorem Mach.draft_tis (m : Mach) (d : Draft) : (m.draft d).tis = m.tis := rfl
@[simp] theorem Mach.draft_mgmt (m : Mach) (d : Draft) : (m.draft d).mgmt = m.mgmt := rfl
@[simp] theorem Mach.draft_latch (m : Mach) (d : Draft) : (m.draft d).latch = m.latch := rfl
@[simp] theorem Mach.draft_train (m : Mach) (d : Draft) : (m.draft d).train = m.train := rfl
@[simp] theorem Mach.draft_zones (m : Mach) (d : Draft) : (m.draft d).zones = m.zones := rfl
@[simp] theorem Mach.draft_chans (m : Mach) (d : Draft) : (m.draft d).chans = m.chans := rfl
@[simp] theorem Mach.draft_caps (m : Mach) (d : Draft) : (m.draft d).caps = m.caps := rfl
@[simp] theorem Mach.draft_codec (m : Mach) (d : Draft) : (m.draft d).codec = m.codec := rfl
@[simp] theorem Mach.draft_mcs (m : Mach) (d : Draft) : (m.draft d).mcs = m.mcs := rfl
@[simp] theorem Mach.draft_rsv (m : Mach) (d : Draft) : (m.draft d).rsv = m.rsv := rfl
@[simp] theorem Mach.draft_net (m : Mach) (d : Draft) : (m.draft d).net = m.net := rfl
@[simp] theorem Mach.draft_ptp (m : Mach) (d : Draft) : (m.draft d).ptp = m.ptp := rfl
@[simp] theorem Mach.draft_recs (m : Mach) (d : Draft) : (m.draft d).recs = { m.recs with ready := m.recs.ready ++ [d] } := rfl
@[simp] theorem Mach.draft_acq (m : Mach) (d : Draft) : (m.draft d).acq = m.acq := rfl
@[simp] theorem Mach.draft_cfe (m : Mach) (d : Draft) : (m.draft d).cfe = m.cfe := rfl
@[simp] theorem Mach.draft_hkc (m : Mach) (d : Draft) : (m.draft d).hkc = m.hkc := rfl
@[simp] theorem Mach.draft_adc (m : Mach) (d : Draft) : (m.draft d).adc = m.adc := rfl
@[simp] theorem Mach.draft_dts (m : Mach) (d : Draft) : (m.draft d).dts = m.dts := rfl
@[simp] theorem Mach.draft_grid (m : Mach) (d : Draft) : (m.draft d).grid = m.grid := rfl
@[simp] theorem Mach.draft_cal (m : Mach) (d : Draft) : (m.draft d).cal = m.cal := rfl
@[simp] theorem Mach.draft_free (m : Mach) (d : Draft) : (m.draft d).free = m.free := rfl
@[simp] theorem Mach.draft_get (m : Mach) (d : Draft) (g : Fld) : (m.draft d).get g = m.get g := rfl

/-! ### The register bank -/

/-- A field after a write: the value cut to the field's width at its key, every other field as before. -/
theorem Mach.get_put (m : Mach) (f g : Fld) (v : Nat) : (m.put f v).get g = if g.key = f.key then v % 2 ^ f.width else m.get g := by
  simp only [Mach.get, Mach.put, mapGet_mapPut]

@[simp] theorem Mach.get_put_same (m : Mach) (f : Fld) (v : Nat) : (m.put f v).get f = v % 2 ^ f.width := by simp [Mach.get_put]

theorem Mach.get_put_ne (m : Mach) {f g : Fld} (v : Nat) (h : g.key ≠ f.key) : (m.put f v).get g = m.get g := by simp [Mach.get_put, h]

@[simp] theorem Mach.putB_eq (m : Mach) (f : Fld) (b : Bool) : m.putB f b = m.put f (bit b) := rfl
@[simp] theorem Mach.bump_eq (m : Mach) (f : Fld) : m.bump f = m.put f (min (m.get f + 1) f.max) := rfl
@[simp] theorem Mach.bumpBy_eq (m : Mach) (f : Fld) (n : Nat) : m.bumpBy f n = m.put f (min (m.get f + n) f.max) := rfl
@[simp] theorem Mach.putBit_eq (m : Mach) (f : Fld) (n : Nat) (b : Bool) : m.putBit f n b = m.put f (setBit (m.get f) n b) := rfl
@[simp] theorem Mach.put64_eq (m : Mach) (lo hi : Fld) (v : Nat) : m.put64 lo hi v = (m.put lo v).put hi (v / 2 ^ 32) := rfl

/-- A write of a field keeps the canonical form of the bank. -/
theorem Mach.put_wf (m : Mach) (f : Fld) (v : Nat) (w : mapWf 0 m.regs.act = true) : mapWf 0 (m.put f v).regs.act = true := mapPut_wf _ _ w

/-! ### Pairs -/

@[simp] theorem Pair.at_put {α : Type} (x : Pair α) (p q : Port) (v : α) : (x.put p v).at q = if q = p then v else x.at q := by
  cases p <;> cases q <;> rfl

@[simp] theorem Mach.acqOf_modAcq (m : Mach) (p q : Port) (f : Acq → Acq) : (m.modAcq p f).acqOf q = if q = p then f (m.acqOf q) else m.acqOf q := by
  cases p <;> cases q <;> rfl

@[simp] theorem Mach.ramanOf_modRaman (m : Mach) (p q : Port) (f : Raman → Raman) :
    (m.modRaman p f).ramanOf q = if q = p then f (m.ramanOf q) else m.ramanOf q := by
  cases p <;> cases q <;> rfl

@[simp] theorem Mach.zone_modZone (m : Mach) (p q : Port) (f : ZoneUnit → ZoneUnit) :
    (m.modZone p f).zone q = if q = p then f (m.zone q) else m.zone q := by
  cases p <;> cases q <;> rfl

@[simp] theorem Mach.slot_putSlot (m : Mach) (a b : Nat) (x : Slot) : (m.putSlot a x).slot b = if b = a then x else m.slot b := by
  simp [Mach.slot, Mach.putSlot, mapGet_mapPut]

@[simp] theorem Mach.slot_modSlot (m : Mach) (a b : Nat) (f : Slot → Slot) : (m.modSlot a f).slot b = if b = a then f (m.slot b) else m.slot b := by
  simp only [Mach.modSlot, Mach.slot_putSlot]
  split <;> simp_all

@[simp] theorem Mach.jewel_putJewel (m : Mach) (a b : Nat) (j : Jewel) : (m.putJewel a j).jewel b = if b = a then j else m.jewel b := by
  simp [Mach.jewel, Mach.putJewel, mapGet_mapPut]

/-! ### Events -/

/-- An event pin's drive leaves every register. -/
@[simp] theorem Mach.driveLevels_regs (m : Mach) : m.driveLevels.regs = m.regs := rfl

@[simp] theorem Mach.driveLevels_get (m : Mach) (g : Fld) : m.driveLevels.get g = m.get g := rfl

@[simp] theorem Mach.driveLevels_recs (m : Mach) : m.driveLevels.recs = m.recs := rfl

/-- What an event leaves (R94, R95, R391): its class is pending; no other field but EVT.PEND and the log's LOST count changes. -/
theorem Mach.get_emit2 (m : Mach) (cls n port arg arg2 : Nat) (g : Fld) (h1 : g.key ≠ F.EVT_PEND.key) (h2 : g.key ≠ F.EVT_LOG_COUNT_LOST.key) :
    (m.emit2 cls n port arg arg2).get g = m.get g := by
  unfold Mach.emit2
  dsimp only
  split <;> simp [Mach.get, Mach.draft, Mach.driveLevels, Mach.putBit, Mach.bump, Mach.bumpBy, Mach.put, mapGet_mapPut] <;>
    simp_all [Mach.get]

@[simp] theorem Mach.emit2_pwr (m : Mach) (cls n port arg arg2 : Nat) : (m.emit2 cls n port arg arg2).pwr = m.pwr := by
  unfold Mach.emit2; dsimp only; split <;> rfl
@[simp] theorem Mach.emit2_boot (m : Mach) (cls n port arg arg2 : Nat) : (m.emit2 cls n port arg arg2).boot = m.boot := by
  unfold Mach.emit2; dsimp only; split <;> rfl
@[simp] theorem Mach.emit2_commit (m : Mach) (cls n port arg arg2 : Nat) : (m.emit2 cls n port arg arg2).commit = m.commit := by
  unfold Mach.emit2; dsimp only; split <;> rfl
@[simp] theorem Mach.emit2_bus (m : Mach) (cls n port arg arg2 : Nat) : (m.emit2 cls n port arg arg2).bus = m.bus := by
  unfold Mach.emit2; dsimp only; split <;> rfl
@[simp] theorem Mach.emit2_clk (m : Mach) (cls n port arg arg2 : Nat) : (m.emit2 cls n port arg arg2).clk = m.clk := by
  unfold Mach.emit2; dsimp only; split <;> rfl
@[simp] theorem Mach.emit2_tis (m : Mach) (cls n port arg arg2 : Nat) : (m.emit2 cls n port arg arg2).tis = m.tis := by
  unfold Mach.emit2; dsimp only; split <;> rfl
@[simp] theorem Mach.emit2_mgmt (m : Mach) (cls n port arg arg2 : Nat) : (m.emit2 cls n port arg arg2).mgmt = m.mgmt := by
  unfold Mach.emit2; dsimp only; split <;> rfl
@[simp] theorem Mach.emit2_latch (m : Mach) (cls n port arg arg2 : Nat) : (m.emit2 cls n port arg arg2).latch = m.latch := by
  unfold Mach.emit2; dsimp only; split <;> rfl
@[simp] theorem Mach.emit2_train (m : Mach) (cls n port arg arg2 : Nat) : (m.emit2 cls n port arg arg2).train = m.train := by
  unfold Mach.emit2; dsimp only; split <;> rfl
@[simp] theorem Mach.emit2_zones (m : Mach) (cls n port arg arg2 : Nat) : (m.emit2 cls n port arg arg2).zones = m.zones := by
  unfold Mach.emit2; dsimp only; split <;> rfl
@[simp] theorem Mach.emit2_chans (m : Mach) (cls n port arg arg2 : Nat) : (m.emit2 cls n port arg arg2).chans = m.chans := by
  unfold Mach.emit2; dsimp only; split <;> rfl
@[simp] theorem Mach.emit2_caps (m : Mach) (cls n port arg arg2 : Nat) : (m.emit2 cls n port arg arg2).caps = m.caps := by
  unfold Mach.emit2; dsimp only; split <;> rfl
@[simp] theorem Mach.emit2_codec (m : Mach) (cls n port arg arg2 : Nat) : (m.emit2 cls n port arg arg2).codec = m.codec := by
  unfold Mach.emit2; dsimp only; split <;> rfl
@[simp] theorem Mach.emit2_mcs (m : Mach) (cls n port arg arg2 : Nat) : (m.emit2 cls n port arg arg2).mcs = m.mcs := by
  unfold Mach.emit2; dsimp only; split <;> rfl
@[simp] theorem Mach.emit2_rsv (m : Mach) (cls n port arg arg2 : Nat) : (m.emit2 cls n port arg arg2).rsv = m.rsv := by
  unfold Mach.emit2; dsimp only; split <;> rfl
@[simp] theorem Mach.emit2_net (m : Mach) (cls n port arg arg2 : Nat) : (m.emit2 cls n port arg arg2).net = m.net := by
  unfold Mach.emit2; dsimp only; split <;> rfl
@[simp] theorem Mach.emit2_ptp (m : Mach) (cls n port arg arg2 : Nat) : (m.emit2 cls n port arg arg2).ptp = m.ptp := by
  unfold Mach.emit2; dsimp only; split <;> rfl
@[simp] theorem Mach.emit2_acq (m : Mach) (cls n port arg arg2 : Nat) : (m.emit2 cls n port arg arg2).acq = m.acq := by
  unfold Mach.emit2; dsimp only; split <;> rfl
@[simp] theorem Mach.emit2_cfe (m : Mach) (cls n port arg arg2 : Nat) : (m.emit2 cls n port arg arg2).cfe = m.cfe := by
  unfold Mach.emit2; dsimp only; split <;> rfl
@[simp] theorem Mach.emit2_hkc (m : Mach) (cls n port arg arg2 : Nat) : (m.emit2 cls n port arg arg2).hkc = m.hkc := by
  unfold Mach.emit2; dsimp only; split <;> rfl
@[simp] theorem Mach.emit2_adc (m : Mach) (cls n port arg arg2 : Nat) : (m.emit2 cls n port arg arg2).adc = m.adc := by
  unfold Mach.emit2; dsimp only; split <;> rfl
@[simp] theorem Mach.emit2_dts (m : Mach) (cls n port arg arg2 : Nat) : (m.emit2 cls n port arg arg2).dts = m.dts := by
  unfold Mach.emit2; dsimp only; split <;> rfl
@[simp] theorem Mach.emit2_grid (m : Mach) (cls n port arg arg2 : Nat) : (m.emit2 cls n port arg arg2).grid = m.grid := by
  unfold Mach.emit2; dsimp only; split <;> rfl
@[simp] theorem Mach.emit2_cal (m : Mach) (cls n port arg arg2 : Nat) : (m.emit2 cls n port arg arg2).cal = m.cal := by
  unfold Mach.emit2; dsimp only; split <;> rfl
@[simp] theorem Mach.emit2_free (m : Mach) (cls n port arg arg2 : Nat) : (m.emit2 cls n port arg arg2).free = m.free := by
  unfold Mach.emit2; dsimp only; split <;> rfl

@[simp] theorem Mach.emit_eq (m : Mach) (cls n port arg : Nat) : m.emit cls n port arg = m.emit2 cls n port arg 0 := rfl

/-! ### A command's effect on the machine -/

@[simp] theorem State.upd_m (s : State) (f : Mach → Mach) : (s.upd f).m = f s.m := rfl
@[simp] theorem State.upd_nv (s : State) (f : Mach → Mach) : (s.upd f).nv = s.nv := rfl
@[simp] theorem State.upd_pending (s : State) (f : Mach → Mach) : (s.upd f).pending = s.pending := rfl

theorem State.under_true (s : State) (f : Mach → Mach) : s.under true f = s.upd f := rfl
theorem State.under_false (s : State) (f : Mach → Mach) : s.under false f = s := rfl

/-- A command of a running block under its condition. -/
theorem State.live_of (s : State) (f : Mach → Mach) (h : s.m.fabricUp = true) : s.live f = s.upd f := by simp [State.live, State.under, h]

theorem State.liveAt_of (s : State) {n i : Nat} (f : Mach → Mach) (h : s.m.fabricUp = true) (hi : i < n) : s.liveAt n i f = s.upd f := by
  simp [State.liveAt, State.under, h, hi]

theorem State.aliveAt_of (s : State) {n i : Nat} (f : Mach → Mach) (h : s.m.alive = true) (hi : i < n) : s.aliveAt n i f = s.upd f := by
  simp [State.aliveAt, State.under, h, hi]

theorem State.powered_of (s : State) (f : Mach → Mach) (h : s.m.pwr.supply = true) : s.powered f = s.upd f := by
  simp [State.powered, State.under, h]

@[simp] theorem State.under_nv (s : State) (c : Bool) (f : Mach → Mach) : (s.under c f).nv = s.nv := by cases c <;> rfl
@[simp] theorem State.live_nv (s : State) (f : Mach → Mach) : (s.live f).nv = s.nv := State.under_nv _ _ _
@[simp] theorem State.liveAt_nv (s : State) (n i : Nat) (f : Mach → Mach) : (s.liveAt n i f).nv = s.nv := State.under_nv _ _ _
@[simp] theorem State.aliveAt_nv (s : State) (n i : Nat) (f : Mach → Mach) : (s.aliveAt n i f).nv = s.nv := State.under_nv _ _ _
@[simp] theorem State.powered_nv (s : State) (f : Mach → Mach) : (s.powered f).nv = s.nv := State.under_nv _ _ _

end Sys2Proof.Machine
end

