-- ==== Sys2Proof/Laws/Bus.lean ====
section
/-!
SUPPORT. Laws/Bus.lean: what a write by a master comes to when it is performed, what a write that is not performed leaves, and what an event leaves, as the
statements say it.
-/
namespace Sys2Proof.Machine

/-! ### Accesses -/

theorem Mach.accessOf_cls (m : Mach) (who : Master) (v : Bool) (h : ∀ e, who ≠ .jewel e) : (m.accessOf who v).cls ≠ 3 := by
  cases who with
  | supervisor => exact (by decide : (0 : Nat) ≠ 3)
  | spi => exact (by decide : (1 : Nat) ≠ 3)
  | session n => exact (by decide : (2 : Nat) ≠ 3)
  | jewel e => exact absurd rfl (h e)

/-- A write that is performed (R69, R71, R75, R76): the row of the register takes the whole word, and the bus ends without error. -/
theorem Mach.writeBy_of {m : Mach} {who : Master} {a w : Nat} {r : RegRow} (may : MayAccess m who a) (ht : targetOf a = .reg a)
    (hr : findRow (unifyMc a) = some r) (hk : a ≠ F.SYS_RESET_KEY.addr) :
    m.writeBy who a w = (m.regWrite (m.accessOf who false) r (unifyMc a) (2 ^ 32 - 1) w none).answer 0 false := by
  obtain ⟨hs, hj, hg, ha, hh⟩ := may
  have hg' : (guardedAt a && !(m.accessOf who false).secure) = false := by
    cases h : guardedAt a with
    | false => rfl
    | true => rw [hg h]; rfl
  have hke : (a == F.SYS_RESET_KEY.addr) = false := beq_eq_false_iff_ne.mpr hk
  have hm : (r.acts (2 ^ 32 - 1) w) = true := by simp [RegRow.acts]
  simp only [Mach.writeBy, Mach.writeLogBy, Mach.busWriteLog, Mach.writeAt, hs, ht, hg', hr, ha, hh, hm, hke, Mach.accessOf_cls m who false hj]
  rfl

/-- A write by a master of a register whose operation leaves the boot epoch counter: only the machine changes, by that write. -/
theorem State.writes_of {s : State} {who : Master} {a w : Nat} (h : (s.m.writeBy who a w).boot.counter ≤ s.m.boot.counter) :
    s.writes who a w = { s with m := s.m.writeBy who a w } := by
  unfold State.writes State.saves
  exact if_neg (by exact Nat.not_lt.mpr h)

/-- Without its supply a write changes nothing. -/
theorem Mach.writeBy_off {m : Mach} {who : Master} {a w : Nat} (h : m.pwr.supply = false) : m.writeBy who a w = m := by
  simp [Mach.writeBy, Mach.writeLogBy, Mach.busWriteLog, h]

/-! ### Events -/

theorem bitOf_setBit (v n : Nat) : bitOf (setBit v n true) n = true := by
  unfold setBit
  cases h : bitOf v n with
  | true => exact h
  | false =>
    have h1 : v / 2 ^ n % 2 ≠ 1 := by simpa [bitOf] using h
    have h2 : (v + 2 ^ n) / 2 ^ n = v / 2 ^ n + 1 := Nat.add_div_right v (Nat.two_pow_pos n)
    show ((v + 2 ^ n) / 2 ^ n % 2 == 1) = true
    rw [h2]
    exact beq_iff_eq.mpr (by omega)

/-- A bit below the width of a field is the bit of the value that is put into it. -/
theorem bitOf_mod {v n w : Nat} (h : n < w) : bitOf (v % 2 ^ w) n = bitOf v n := by
  obtain ⟨k, rfl⟩ : ∃ k, w = n + (k + 1) := ⟨w - n - 1, by omega⟩
  unfold bitOf
  rw [Nat.pow_add, Nat.mod_mul_right_div_self, Nat.pow_succ, Nat.mod_mul_left_mod]

/-- What an event says (R94, R95). -/
theorem Mach.emit2_issues (m : Mach) {cls : Nat} (n port arg arg2 : Nat) (h : cls < 32) : Issues cls n port arg m (m.emit2 cls n port arg arg2) := by
  have key : F.EVT_PEND.key ≠ F.EVT_LOG_COUNT_LOST.key := by decide
  have pend : bitOf (setBit (m.get F.EVT_PEND) cls true % 2 ^ F.EVT_PEND.width) cls = true :=
    (bitOf_mod (show cls < F.EVT_PEND.width from h)).trans (bitOf_setBit _ _)
  refine ⟨?_, fun hl => ?_, fun hl => ?_⟩
  · unfold Mach.emit2
    dsimp only
    split
    · simpa [Mach.putBit, Mach.draft_get, Mach.get, Mach.driveLevels, Mach.put] using pend
    · simpa [Mach.putBit, Mach.draft_get, Mach.get, Mach.driveLevels, Mach.put, Mach.bump, Mach.bumpBy, mapGet_mapPut, key] using pend
  · unfold Mach.emit2
    dsimp only
    rw [if_pos (show (m.putBit F.EVT_PEND cls true).evt.log.length < 16 from hl)]
    rfl
  · unfold Mach.emit2
    dsimp only
    rw [if_neg (show ¬ (m.putBit F.EVT_PEND cls true).evt.log.length < 16 from Nat.not_lt.mpr hl)]
    rfl

/-- What an event leaves as it was (R94, R95, R391). -/
theorem Mach.emit2_eventful (m : Mach) (cls n port arg arg2 : Nat) : Eventful [] m (m.emit2 cls n port arg arg2) := by
  refine ⟨?_, fun k hk => ?_⟩
  · unfold Mach.emit2
    dsimp only
    split <;> rfl
  · have h1 : k ≠ F.EVT_PEND.key := fun e => hk (by simp [e])
    have h2 : k ≠ F.EVT_LOG_COUNT_LOST.key := fun e => hk (by simp [e])
    unfold Mach.emit2
    dsimp only
    split <;>
      simp [Mach.draft, Mach.driveLevels, Mach.putBit, Mach.put, Mach.bump, Mach.bumpBy, mapGet_mapPut, h1, h2]

/-- What an event leaves beside more fields that were written before it. -/
theorem Mach.eventful_of_put {m m' : Mach} {f : Fld} {fs : List Fld} {v : Nat} (h : Eventful fs (m.put f v) m') : Eventful (f :: fs) m m' := by
  obtain ⟨h1, h2⟩ := h
  refine ⟨h1, fun k hk => ?_⟩
  simp only [List.map_cons, List.mem_cons, not_or] at hk
  have := h2 k (by simp only [List.map_cons, List.mem_cons, not_or]; exact ⟨hk.1, hk.2.1, hk.2.2.2⟩)
  rw [this]
  exact mapGet_mapPut_ne 0 m.regs.act _ hk.2.2.1

theorem Mach.eventful_refl (m : Mach) : Eventful [] m m := ⟨rfl, fun _ _ => rfl⟩

end Sys2Proof.Machine
end

