-- ==== Sys2Proof/Laws/PerInstr.lean ====
section
/-!
SUPPORT. Laws/PerInstr.lean: the family Operands: the numbers by which a well-formed command names an engine, a slot, a channel, a lane, a register, lie below
how many of them there are.
-/

/-- The numbers with which a command names things, each with how many of those things the spec has. -/
def Sys2Proof.Laws.Operands.indices : Sys2Proof.Instr → List (Nat × Nat)
  | .uvloRising => []
  | .pgoodRise => []
  | .startSequence _ _ _ => []
  | .trainingComplete ch _ _ _ _ => [(ch, 2)]
  | .firstBeat _ => []
  | .warningClear => []
  | .powerFailWarning => []
  | .uvloFalling => []
  | .pfRecoverRestart => []
  | .feedWindowChange _ _ => []
  | .feedOverVoltage _ => []
  | .feedReconnect _ => []
  | .outputOvercurrent _ => []
  | .dieTempSample _ _ _ => []
  | .thermalRestart => []
  | .pinReset => []
  | .warmReset _ _ => []
  | .watchdogReset => []
  | .fatalError => []
  | .portReset _ _ _ => []
  | .laneReset _ _ lane => [(lane, 4)]
  | .engineReset _ _ e => [(e, 64)]
  | .moduleBoundary => []
  | .scheduledWake _ => []
  | .unscheduledWake _ => []
  | .commit _ _ => []
  | .abort _ _ => []
  | .configCheckPass => []
  | .configReload => []
  | .imageVerify _ => []
  | .keyProgram _ slot _ => [(slot, 4)]
  | .keyRevoke _ slot => [(slot, 4)]
  | .attestPeriodic => []
  | .mgmtRead _ _ => []
  | .mgmtWrite _ _ _ _ => []
  | .mgmtStatus _ => []
  | .mgmtFrameCut _ _ _ => []
  | .registerWrite _ _ _ => []
  | .rcRead _ _ => []
  | .latchingRead _ _ => []
  | .bitAliasAccess _ _ _ _ => []
  | .logPop _ _ => []
  | .evtOutPulseEnd pin => [(pin, 4)]
  | .crystalFail => []
  | .standbyCrystalFail => []
  | .bothCrystalsFail => []
  | .xoFailRestart _ _ => []
  | .xoReturn _ _ => []
  | .xoCompareWindow _ _ => []
  | .regulatorUpdate src => [(src, 8)]
  | .sourceLost src => [(src, 8)]
  | .sourceTake src => [(src, 8)]
  | .ageingSample => []
  | .ageClear _ _ => []
  | .domStep _ d _ => [(d, 4)]
  | .domSetSec _ d _ => [(d, 4)]
  | .ppsOutEdge => []
  | .tisStamp edge _ _ => [(edge.input, 8)]
  | .tisPop _ input _ => [(input, 8)]
  | .coarseWrap => []
  | .iuArm _ u _ => [(u, 4)]
  | .iuTimeout u => [(u, 4)]
  | .fuStart _ f _ => [(f, 2)]
  | .fuGateEnd f => [(f, 2)]
  | .beatBoundary _ => []
  | .subbandLaunch _ _ => []
  | .lmonWindowClose _ => []
  | .planRestartEnd _ => []
  | .acquisitionStart _ => []
  | .intlkNLow _ => []
  | .intlkNHigh => []
  | .energyTrip _ => []
  | .tripClear _ _ _ => []
  | .ramanShot _ _ _ _ => []
  | .switchSettleEnd _ => []
  | .rangerBlockEval _ _ _ => []
  | .rangerStepUp _ _ => []
  | .cmFaultDeclare _ x => [(x.input, 4)]
  | .cmRecovery _ input => [(input, 4)]
  | .rfeFault ch => [(ch, 4)]
  | .apdLimit o => [(o, 4)]
  | .apdLimitClear _ o _ => [(o, 4)]
  | .apdSettleEnd _ => []
  | .hkcScanStart => []
  | .hkcSlot _ => []
  | .injReq _ _ => []
  | .gapLendingStart _ => []
  | .lendingEnd _ => []
  | .backgroundMeasurement slice _ _ => [(slice, 146)]
  | .conversionWatchdog slice => [(slice, 146)]
  | .sliceRetire _ _ => []
  | .ramanBackgroundMeasure _ _ _ => []
  | .rawWindowGo _ _ => []
  | .rawWindowDone _ => []
  | .pipeTickEmit _ _ _ _ _ => []
  | .ramanFrameBoundary _ => []
  | .ramanIdleEnd _ => []
  | .dtsProfileComplete _ => []
  | .tileArrival _ => []
  | .tileStart e => [(e, 64)]
  | .tileSteal e => [(e, 64)]
  | .resultHandoff _ => []
  | .engineFault x => [(x.engine, 64)]
  | .engineRetire _ _ => []
  | .nop e _ => [(e, 64)]
  | .mac2 e o _ => [(e, 64), (o.slot, 2), (o.acc, 8), (o.a, 32), (o.b, 32)]
  | .msu2 e o _ => [(e, 64), (o.slot, 2), (o.acc, 8), (o.a, 32), (o.b, 32)]
  | .mpy2 e o _ => [(e, 64), (o.slot, 2), (o.acc, 8), (o.a, 32), (o.b, 32)]
  | .dot2 e o _ => [(e, 64), (o.slot, 2), (o.acc, 8), (o.a, 32), (o.b, 32)]
  | .cmac e o _ => [(e, 64), (o.slot, 2), (o.acc, 8), (o.a, 32), (o.b, 32)]
  | .cmacj e o _ => [(e, 64), (o.slot, 2), (o.acc, 8), (o.a, 32), (o.b, 32)]
  | .cmpy e o _ => [(e, 64), (o.slot, 2), (o.acc, 8), (o.a, 32), (o.b, 32)]
  | .cmpyj e o _ => [(e, 64), (o.slot, 2), (o.acc, 8), (o.a, 32), (o.b, 32)]
  | .add2 e o _ => [(e, 64), (o.dst, 32), (o.a, 32), (o.b, 32)]
  | .adds2 e o _ => [(e, 64), (o.dst, 32), (o.a, 32), (o.b, 32)]
  | .sub2 e o _ => [(e, 64), (o.dst, 32), (o.a, 32), (o.b, 32)]
  | .subs2 e o _ => [(e, 64), (o.dst, 32), (o.a, 32), (o.b, 32)]
  | .and e o _ => [(e, 64), (o.dst, 32), (o.a, 32), (o.b, 32)]
  | .or e o _ => [(e, 64), (o.dst, 32), (o.a, 32), (o.b, 32)]
  | .xor e o _ => [(e, 64), (o.dst, 32), (o.a, 32), (o.b, 32)]
  | .shl2 e dst a _ _ => [(e, 64), (dst, 32), (a, 32)]
  | .asr2 e dst a _ _ => [(e, 64), (dst, 32), (a, 32)]
  | .lsr e dst a _ _ => [(e, 64), (dst, 32), (a, 32)]
  | .max2 e o _ => [(e, 64), (o.dst, 32), (o.a, 32), (o.b, 32)]
  | .min2 e o _ => [(e, 64), (o.dst, 32), (o.a, 32), (o.b, 32)]
  | .abs2 e dst a _ => [(e, 64), (dst, 32), (a, 32)]
  | .cmpeq2 e o _ => [(e, 64), (o.dst, 32), (o.a, 32), (o.b, 32)]
  | .qz2 e o _ _ => [(e, 64), (o.dst, 32), (o.a, 32), (o.b, 32)]
  | .byte e dst a sub _ => [(e, 64), (dst, 32), (a, 32), (sub, 4)]
  | .pack e o _ => [(e, 64), (o.dst, 32), (o.a, 32), (o.b, 32)]
  | .mov e dst a _ => [(e, 64), (dst, 32), (a, 32)]
  | .movs e dst a _ _ => [(e, 64), (dst, 32), (a, 32)]
  | .extr2 e dst acc _ _ => [(e, 64), (dst, 32), (acc, 8)]
  | .extr e dst a _ _ => [(e, 64), (dst, 32), (a.acc, 8)]
  | .exp e dst a _ => [(e, 64), (dst, 32), (a.acc, 8)]
  | .norm e dst a _ => [(e, 64), (dst, 32), (a.acc, 8)]
  | .dnrm e dst a _ _ => [(e, 64), (dst, 32), (a, 32)]
  | .clra e acc _ => [(e, 64), (acc, 8)]
  | .fold e acc _ => [(e, 64), (acc, 8)]
  | .ld32 e o _ => [(e, 64), (o.d, 32), (o.ptr, 8), (o.mode, 5), (o.mod, 8)]
  | .st32 e o _ => [(e, 64), (o.d, 32), (o.ptr, 8), (o.mode, 5), (o.mod, 8)]
  | .ld16 e o _ => [(e, 64), (o.d, 32), (o.ptr, 8), (o.mode, 5), (o.mod, 8)]
  | .st16 e o _ => [(e, 64), (o.d, 32), (o.ptr, 8), (o.mode, 5), (o.mod, 8)]
  | .rot e _ => [(e, 64)]
  | .ldi e dst _ => [(e, 64), (dst, 32)]
  | .ldis e dst _ => [(e, 64), (dst, 32)]
  | .br e _ cond d => [(e, 64), (cond, 4), (d, 32)]
  | .loop e _ _ _ _ => [(e, 64)]
  | .done e => [(e, 64)]
  | .rdreg e dst addrReg => [(e, 64), (dst, 32), (addrReg, 32)]
  | .rdregComplete e => [(e, 64)]
  | .trap e _ => [(e, 64)]
  | .zoneIntervalEnd _ => []
  | .overviewIntervalEnd _ => []
  | .channelRowEval c => [(c, 32)]
  | .captureTickRead slot => [(slot, 16)]
  | .chrArm _ _ => []
  | .rearmEnd c => [(c, 32)]
  | .codecBlock _ _ => []
  | .reserveBlockWrite => []
  | .dramRefresh ch rank _ => [(ch, 2), (rank, 4)]
  | .refreshWindowEnd ch => [(ch, 2)]
  | .neighbourRefresh ch rank _ _ _ => [(ch, 2), (rank, 4)]
  | .patrolScrub ch _ _ _ _ => [(ch, 2)]
  | .ceWindowClose ch => [(ch, 2)]
  | .migrate _ ch _ => [(ch, 2)]
  | .migrationComplete ch _ => [(ch, 2)]
  | .caParityError ch _ _ => [(ch, 2)]
  | .freeze _ ch _ _ => [(ch, 2)]
  | .journalCopyComplete => []
  | .refclkLoss => []
  | .refclkOk => []
  | .laneTrainingDone n _ => [(n, 4)]
  | .laneTrainTimeout n => [(n, 4)]
  | .laneLockHeld n => [(n, 4)]
  | .laneAcquireTimeout n => [(n, 4)]
  | .laneFault n x => [(n, 4), (x.cause, 9)]
  | .laneRetry n => [(n, 4)]
  | .prbsEnable _ line _ => [(line.lane, 4)]
  | .prbsInject _ line _ => [(line.lane, 4)]
  | .frameReceive n _ => [(n, 4)]
  | .pauseReceive n _ _ => [(n, 4)]
  | .announceReceive domain n _ => [(domain, 256), (n, 4)]
  | .syncReceive n x _ => [(n, 4), (x.domain, 256)]
  | .delayReqSend x => [(x.unit, 4)]
  | .ptpPortFail d => [(d, 4)]
  | .ptpRevert d => [(d, 4)]
  | .followUpReceive n _ => [(n, 4)]
  | .tcEntryExpire n _ _ _ => [(n, 4)]
  | .pdelayReqSend x => [(x.unit, 4)]
  | .pdelayReqReceive x => [(x.port, 4)]
  | .arpRequest n _ => [(n, 4)]
  | .neighbourExpire n _ => [(n, 4)]
  | .connectReq r => [(r.ethPort, 4)]
  | .helloTimeout slot => [(slot, 64)]
  | .hello h _ _ _ _ _ => [(h.slot, 64)]
  | .auth h _ _ _ _ => [(h.slot, 64)]
  | .read h _ _ => [(h.slot, 64)]
  | .write h _ _ => [(h.slot, 64)]
  | .getCert h _ => [(h.slot, 64)]
  | .attestNow h _ => [(h.slot, 64)]
  | .close h => [(h.slot, 64)]
  | .ping h => [(h.slot, 64)]
  | .doorbellWrite slot _ _ => [(slot, 64)]
  | .rdmaAck slot _ => [(slot, 64)]
  | .ackTimeout slot => [(slot, 64)]
  | .sequenceNak slot => [(slot, 64)]
  | .cnpReceive slot => [(slot, 64)]
  | .rateRecovery slot => [(slot, 64)]
  | .recordProduce => []
  | .journalResume slot => [(slot, 64)]
  | .piWrite slot stream => [(slot, 64), (stream, 7)]
  | .sessionPathFail slot => [(slot, 64)]
  | .housekeepingPeriodEnd _ => []
  | .udpRecordSend policy _ => [(policy, 64)]
  | .dacScope _ => []
  | .adcScope _ _ => []
  | .cfeScope _ _ _ => []
  | .rfeScope _ _ => []
  | .hkcScope _ _ _ => []
  | .tisScope _ => []
  | .freqScope _ => []
  | .calResultWrite => []
  | .calAbort _ _ => []
  | .refInMeasurement _ => []
  | .delayRespReceive n x => [(n, 4), (x.domain, 256)]
  | .pdelayRespReceive n _ => [(n, 4)]
  | .pauseExpire n => [(n, 4)]
  | .ppsOutPulseEnd => []
  | .neighbourUnreachable n _ => [(n, 4)]
  | .authFailClose slot => [(slot, 64)]
  | .calCommand _ _ => []
  | .nvmWindowWrite _ _ _ => []

/-- The family's statement of a command: when it is well-formed, every number in it names a thing that exists. -/
def Sys2Proof.Laws.Operands.Statement (i : Sys2Proof.Instr) : Prop :=
  i.wf = true → ∀ x ∈ Sys2Proof.Laws.Operands.indices i, x.1 < x.2

/-- The statement holds of every command. -/
theorem Sys2Proof.Laws.Operands.of_all (i : Sys2Proof.Instr) : Sys2Proof.Laws.Operands.Statement i := by
  cases i <;>
    simp +contextual [Sys2Proof.Laws.Operands.Statement, Sys2Proof.Laws.Operands.indices, Sys2Proof.Instr.wf, Sys2Proof.macWf,
      Sys2Proof.aluWf, Sys2Proof.memWf, Sys2Proof.headWf]

theorem Sys2Proof.Laws.Operands.uvloRising : Sys2Proof.Laws.Operands.Statement (.uvloRising) :=
  Sys2Proof.Laws.Operands.of_all _
theorem Sys2Proof.Laws.Operands.pgoodRise : Sys2Proof.Laws.Operands.Statement (.pgoodRise) :=
  Sys2Proof.Laws.Operands.of_all _
theorem Sys2Proof.Laws.Operands.startSequence : ∀ a0 a1 a2, Sys2Proof.Laws.Operands.Statement (.startSequence a0 a1 a2) :=
  fun _ _ _ => Sys2Proof.Laws.Operands.of_all _
theorem Sys2Proof.Laws.Operands.trainingComplete : ∀ a0 a1 a2 a3 a4, Sys2Proof.Laws.Operands.Statement (.trainingComplete a0 a1 a2 a3 a4) :=
  fun _ _ _ _ _ => Sys2Proof.Laws.Operands.of_all _
theorem Sys2Proof.Laws.Operands.firstBeat : ∀ a0, Sys2Proof.Laws.Operands.Statement (.firstBeat a0) :=
  fun _ => Sys2Proof.Laws.Operands.of_all _
theorem Sys2Proof.Laws.Operands.warningClear : Sys2Proof.Laws.Operands.Statement (.warningClear) :=
  Sys2Proof.Laws.Operands.of_all _
theorem Sys2Proof.Laws.Operands.powerFailWarning : Sys2Proof.Laws.Operands.Statement (.powerFailWarning) :=
  Sys2Proof.Laws.Operands.of_all _
theorem Sys2Proof.Laws.Operands.uvloFalling : Sys2Proof.Laws.Operands.Statement (.uvloFalling) :=
  Sys2Proof.Laws.Operands.of_all _
theorem Sys2Proof.Laws.Operands.pfRecoverRestart : Sys2Proof.Laws.Operands.Statement (.pfRecoverRestart) :=
  Sys2Proof.Laws.Operands.of_all _
theorem Sys2Proof.Laws.Operands.feedWindowChange : ∀ a0 a1, Sys2Proof.Laws.Operands.Statement (.feedWindowChange a0 a1) :=
  fun _ _ => Sys2Proof.Laws.Operands.of_all _
theorem Sys2Proof.Laws.Operands.feedOverVoltage : ∀ a0, Sys2Proof.Laws.Operands.Statement (.feedOverVoltage a0) :=
  fun _ => Sys2Proof.Laws.Operands.of_all _
theorem Sys2Proof.Laws.Operands.feedReconnect : ∀ a0, Sys2Proof.Laws.Operands.Statement (.feedReconnect a0) :=
  fun _ => Sys2Proof.Laws.Operands.of_all _
theorem Sys2Proof.Laws.Operands.outputOvercurrent : ∀ a0, Sys2Proof.Laws.Operands.Statement (.outputOvercurrent a0) :=
  fun _ => Sys2Proof.Laws.Operands.of_all _
theorem Sys2Proof.Laws.Operands.dieTempSample : ∀ a0 a1 a2, Sys2Proof.Laws.Operands.Statement (.dieTempSample a0 a1 a2) :=
  fun _ _ _ => Sys2Proof.Laws.Operands.of_all _
theorem Sys2Proof.Laws.Operands.thermalRestart : Sys2Proof.Laws.Operands.Statement (.thermalRestart) :=
  Sys2Proof.Laws.Operands.of_all _
theorem Sys2Proof.Laws.Operands.pinReset : Sys2Proof.Laws.Operands.Statement (.pinReset) :=
  Sys2Proof.Laws.Operands.of_all _
theorem Sys2Proof.Laws.Operands.warmReset : ∀ a0 a1, Sys2Proof.Laws.Operands.Statement (.warmReset a0 a1) :=
  fun _ _ => Sys2Proof.Laws.Operands.of_all _
theorem Sys2Proof.Laws.Operands.watchdogReset : Sys2Proof.Laws.Operands.Statement (.watchdogReset) :=
  Sys2Proof.Laws.Operands.of_all _
theorem Sys2Proof.Laws.Operands.fatalError : Sys2Proof.Laws.Operands.Statement (.fatalError) :=
  Sys2Proof.Laws.Operands.of_all _
theorem Sys2Proof.Laws.Operands.portReset : ∀ a0 a1 a2, Sys2Proof.Laws.Operands.Statement (.portReset a0 a1 a2) :=
  fun _ _ _ => Sys2Proof.Laws.Operands.of_all _
theorem Sys2Proof.Laws.Operands.laneReset : ∀ a0 a1 a2, Sys2Proof.Laws.Operands.Statement (.laneReset a0 a1 a2) :=
  fun _ _ _ => Sys2Proof.Laws.Operands.of_all _
theorem Sys2Proof.Laws.Operands.engineReset : ∀ a0 a1 a2, Sys2Proof.Laws.Operands.Statement (.engineReset a0 a1 a2) :=
  fun _ _ _ => Sys2Proof.Laws.Operands.of_all _
theorem Sys2Proof.Laws.Operands.moduleBoundary : Sys2Proof.Laws.Operands.Statement (.moduleBoundary) :=
  Sys2Proof.Laws.Operands.of_all _
theorem Sys2Proof.Laws.Operands.scheduledWake : ∀ a0, Sys2Proof.Laws.Operands.Statement (.scheduledWake a0) :=
  fun _ => Sys2Proof.Laws.Operands.of_all _
theorem Sys2Proof.Laws.Operands.unscheduledWake : ∀ a0, Sys2Proof.Laws.Operands.Statement (.unscheduledWake a0) :=
  fun _ => Sys2Proof.Laws.Operands.of_all _
theorem Sys2Proof.Laws.Operands.commit : ∀ a0 a1, Sys2Proof.Laws.Operands.Statement (.commit a0 a1) :=
  fun _ _ => Sys2Proof.Laws.Operands.of_all _
theorem Sys2Proof.Laws.Operands.abort : ∀ a0 a1, Sys2Proof.Laws.Operands.Statement (.abort a0 a1) :=
  fun _ _ => Sys2Proof.Laws.Operands.of_all _
theorem Sys2Proof.Laws.Operands.configCheckPass : Sys2Proof.Laws.Operands.Statement (.configCheckPass) :=
  Sys2Proof.Laws.Operands.of_all _
theorem Sys2Proof.Laws.Operands.configReload : Sys2Proof.Laws.Operands.Statement (.configReload) :=
  Sys2Proof.Laws.Operands.of_all _
theorem Sys2Proof.Laws.Operands.imageVerify : ∀ a0, Sys2Proof.Laws.Operands.Statement (.imageVerify a0) :=
  fun _ => Sys2Proof.Laws.Operands.of_all _
theorem Sys2Proof.Laws.Operands.keyProgram : ∀ a0 a1 a2, Sys2Proof.Laws.Operands.Statement (.keyProgram a0 a1 a2) :=
  fun _ _ _ => Sys2Proof.Laws.Operands.of_all _
theorem Sys2Proof.Laws.Operands.keyRevoke : ∀ a0 a1, Sys2Proof.Laws.Operands.Statement (.keyRevoke a0 a1) :=
  fun _ _ => Sys2Proof.Laws.Operands.of_all _
theorem Sys2Proof.Laws.Operands.attestPeriodic : Sys2Proof.Laws.Operands.Statement (.attestPeriodic) :=
  Sys2Proof.Laws.Operands.of_all _
theorem Sys2Proof.Laws.Operands.mgmtRead : ∀ a0 a1, Sys2Proof.Laws.Operands.Statement (.mgmtRead a0 a1) :=
  fun _ _ => Sys2Proof.Laws.Operands.of_all _
theorem Sys2Proof.Laws.Operands.mgmtWrite : ∀ a0 a1 a2 a3, Sys2Proof.Laws.Operands.Statement (.mgmtWrite a0 a1 a2 a3) :=
  fun _ _ _ _ => Sys2Proof.Laws.Operands.of_all _
theorem Sys2Proof.Laws.Operands.mgmtStatus : ∀ a0, Sys2Proof.Laws.Operands.Statement (.mgmtStatus a0) :=
  fun _ => Sys2Proof.Laws.Operands.of_all _
theorem Sys2Proof.Laws.Operands.mgmtFrameCut : ∀ a0 a1 a2, Sys2Proof.Laws.Operands.Statement (.mgmtFrameCut a0 a1 a2) :=
  fun _ _ _ => Sys2Proof.Laws.Operands.of_all _
theorem Sys2Proof.Laws.Operands.registerWrite : ∀ a0 a1 a2, Sys2Proof.Laws.Operands.Statement (.registerWrite a0 a1 a2) :=
  fun _ _ _ => Sys2Proof.Laws.Operands.of_all _
theorem Sys2Proof.Laws.Operands.rcRead : ∀ a0 a1, Sys2Proof.Laws.Operands.Statement (.rcRead a0 a1) :=
  fun _ _ => Sys2Proof.Laws.Operands.of_all _
theorem Sys2Proof.Laws.Operands.latchingRead : ∀ a0 a1, Sys2Proof.Laws.Operands.Statement (.latchingRead a0 a1) :=
  fun _ _ => Sys2Proof.Laws.Operands.of_all _
theorem Sys2Proof.Laws.Operands.bitAliasAccess : ∀ a0 a1 a2 a3, Sys2Proof.Laws.Operands.Statement (.bitAliasAccess a0 a1 a2 a3) :=
  fun _ _ _ _ => Sys2Proof.Laws.Operands.of_all _
theorem Sys2Proof.Laws.Operands.logPop : ∀ a0 a1, Sys2Proof.Laws.Operands.Statement (.logPop a0 a1) :=
  fun _ _ => Sys2Proof.Laws.Operands.of_all _
theorem Sys2Proof.Laws.Operands.evtOutPulseEnd : ∀ a0, Sys2Proof.Laws.Operands.Statement (.evtOutPulseEnd a0) :=
  fun _ => Sys2Proof.Laws.Operands.of_all _
theorem Sys2Proof.Laws.Operands.crystalFail : Sys2Proof.Laws.Operands.Statement (.crystalFail) :=
  Sys2Proof.Laws.Operands.of_all _
theorem Sys2Proof.Laws.Operands.standbyCrystalFail : Sys2Proof.Laws.Operands.Statement (.standbyCrystalFail) :=
  Sys2Proof.Laws.Operands.of_all _
theorem Sys2Proof.Laws.Operands.bothCrystalsFail : Sys2Proof.Laws.Operands.Statement (.bothCrystalsFail) :=
  Sys2Proof.Laws.Operands.of_all _
theorem Sys2Proof.Laws.Operands.xoFailRestart : ∀ a0 a1, Sys2Proof.Laws.Operands.Statement (.xoFailRestart a0 a1) :=
  fun _ _ => Sys2Proof.Laws.Operands.of_all _
theorem Sys2Proof.Laws.Operands.xoReturn : ∀ a0 a1, Sys2Proof.Laws.Operands.Statement (.xoReturn a0 a1) :=
  fun _ _ => Sys2Proof.Laws.Operands.of_all _
theorem Sys2Proof.Laws.Operands.xoCompareWindow : ∀ a0 a1, Sys2Proof.Laws.Operands.Statement (.xoCompareWindow a0 a1) :=
  fun _ _ => Sys2Proof.Laws.Operands.of_all _
theorem Sys2Proof.Laws.Operands.regulatorUpdate : ∀ a0, Sys2Proof.Laws.Operands.Statement (.regulatorUpdate a0) :=
  fun _ => Sys2Proof.Laws.Operands.of_all _
theorem Sys2Proof.Laws.Operands.sourceLost : ∀ a0, Sys2Proof.Laws.Operands.Statement (.sourceLost a0) :=
  fun _ => Sys2Proof.Laws.Operands.of_all _
theorem Sys2Proof.Laws.Operands.sourceTake : ∀ a0, Sys2Proof.Laws.Operands.Statement (.sourceTake a0) :=
  fun _ => Sys2Proof.Laws.Operands.of_all _
theorem Sys2Proof.Laws.Operands.ageingSample : Sys2Proof.Laws.Operands.Statement (.ageingSample) :=
  Sys2Proof.Laws.Operands.of_all _
theorem Sys2Proof.Laws.Operands.ageClear : ∀ a0 a1, Sys2Proof.Laws.Operands.Statement (.ageClear a0 a1) :=
  fun _ _ => Sys2Proof.Laws.Operands.of_all _
theorem Sys2Proof.Laws.Operands.domStep : ∀ a0 a1 a2, Sys2Proof.Laws.Operands.Statement (.domStep a0 a1 a2) :=
  fun _ _ _ => Sys2Proof.Laws.Operands.of_all _
theorem Sys2Proof.Laws.Operands.domSetSec : ∀ a0 a1 a2, Sys2Proof.Laws.Operands.Statement (.domSetSec a0 a1 a2) :=
  fun _ _ _ => Sys2Proof.Laws.Operands.of_all _
theorem Sys2Proof.Laws.Operands.ppsOutEdge : Sys2Proof.Laws.Operands.Statement (.ppsOutEdge) :=
  Sys2Proof.Laws.Operands.of_all _
theorem Sys2Proof.Laws.Operands.tisStamp : ∀ a0 a1 a2, Sys2Proof.Laws.Operands.Statement (.tisStamp a0 a1 a2) :=
  fun _ _ _ => Sys2Proof.Laws.Operands.of_all _
theorem Sys2Proof.Laws.Operands.tisPop : ∀ a0 a1 a2, Sys2Proof.Laws.Operands.Statement (.tisPop a0 a1 a2) :=
  fun _ _ _ => Sys2Proof.Laws.Operands.of_all _
theorem Sys2Proof.Laws.Operands.coarseWrap : Sys2Proof.Laws.Operands.Statement (.coarseWrap) :=
  Sys2Proof.Laws.Operands.of_all _
theorem Sys2Proof.Laws.Operands.iuArm : ∀ a0 a1 a2, Sys2Proof.Laws.Operands.Statement (.iuArm a0 a1 a2) :=
  fun _ _ _ => Sys2Proof.Laws.Operands.of_all _
theorem Sys2Proof.Laws.Operands.iuTimeout : ∀ a0, Sys2Proof.Laws.Operands.Statement (.iuTimeout a0) :=
  fun _ => Sys2Proof.Laws.Operands.of_all _
theorem Sys2Proof.Laws.Operands.fuStart : ∀ a0 a1 a2, Sys2Proof.Laws.Operands.Statement (.fuStart a0 a1 a2) :=
  fun _ _ _ => Sys2Proof.Laws.Operands.of_all _
theorem Sys2Proof.Laws.Operands.fuGateEnd : ∀ a0, Sys2Proof.Laws.Operands.Statement (.fuGateEnd a0) :=
  fun _ => Sys2Proof.Laws.Operands.of_all _
theorem Sys2Proof.Laws.Operands.beatBoundary : ∀ a0, Sys2Proof.Laws.Operands.Statement (.beatBoundary a0) :=
  fun _ => Sys2Proof.Laws.Operands.of_all _
theorem Sys2Proof.Laws.Operands.subbandLaunch : ∀ a0 a1, Sys2Proof.Laws.Operands.Statement (.subbandLaunch a0 a1) :=
  fun _ _ => Sys2Proof.Laws.Operands.of_all _
theorem Sys2Proof.Laws.Operands.lmonWindowClose : ∀ a0, Sys2Proof.Laws.Operands.Statement (.lmonWindowClose a0) :=
  fun _ => Sys2Proof.Laws.Operands.of_all _
theorem Sys2Proof.Laws.Operands.planRestartEnd : ∀ a0, Sys2Proof.Laws.Operands.Statement (.planRestartEnd a0) :=
  fun _ => Sys2Proof.Laws.Operands.of_all _
theorem Sys2Proof.Laws.Operands.acquisitionStart : ∀ a0, Sys2Proof.Laws.Operands.Statement (.acquisitionStart a0) :=
  fun _ => Sys2Proof.Laws.Operands.of_all _
theorem Sys2Proof.Laws.Operands.intlkNLow : ∀ a0, Sys2Proof.Laws.Operands.Statement (.intlkNLow a0) :=
  fun _ => Sys2Proof.Laws.Operands.of_all _
theorem Sys2Proof.Laws.Operands.intlkNHigh : Sys2Proof.Laws.Operands.Statement (.intlkNHigh) :=
  Sys2Proof.Laws.Operands.of_all _
theorem Sys2Proof.Laws.Operands.energyTrip : ∀ a0, Sys2Proof.Laws.Operands.Statement (.energyTrip a0) :=
  fun _ => Sys2Proof.Laws.Operands.of_all _
theorem Sys2Proof.Laws.Operands.tripClear : ∀ a0 a1 a2, Sys2Proof.Laws.Operands.Statement (.tripClear a0 a1 a2) :=
  fun _ _ _ => Sys2Proof.Laws.Operands.of_all _
theorem Sys2Proof.Laws.Operands.ramanShot : ∀ a0 a1 a2 a3, Sys2Proof.Laws.Operands.Statement (.ramanShot a0 a1 a2 a3) :=
  fun _ _ _ _ => Sys2Proof.Laws.Operands.of_all _
theorem Sys2Proof.Laws.Operands.switchSettleEnd : ∀ a0, Sys2Proof.Laws.Operands.Statement (.switchSettleEnd a0) :=
  fun _ => Sys2Proof.Laws.Operands.of_all _
theorem Sys2Proof.Laws.Operands.rangerBlockEval : ∀ a0 a1 a2, Sys2Proof.Laws.Operands.Statement (.rangerBlockEval a0 a1 a2) :=
  fun _ _ _ => Sys2Proof.Laws.Operands.of_all _
theorem Sys2Proof.Laws.Operands.rangerStepUp : ∀ a0 a1, Sys2Proof.Laws.Operands.Statement (.rangerStepUp a0 a1) :=
  fun _ _ => Sys2Proof.Laws.Operands.of_all _
theorem Sys2Proof.Laws.Operands.cmFaultDeclare : ∀ a0 a1, Sys2Proof.Laws.Operands.Statement (.cmFaultDeclare a0 a1) :=
  fun _ _ => Sys2Proof.Laws.Operands.of_all _
theorem Sys2Proof.Laws.Operands.cmRecovery : ∀ a0 a1, Sys2Proof.Laws.Operands.Statement (.cmRecovery a0 a1) :=
  fun _ _ => Sys2Proof.Laws.Operands.of_all _
theorem Sys2Proof.Laws.Operands.rfeFault : ∀ a0, Sys2Proof.Laws.Operands.Statement (.rfeFault a0) :=
  fun _ => Sys2Proof.Laws.Operands.of_all _
theorem Sys2Proof.Laws.Operands.apdLimit : ∀ a0, Sys2Proof.Laws.Operands.Statement (.apdLimit a0) :=
  fun _ => Sys2Proof.Laws.Operands.of_all _
theorem Sys2Proof.Laws.Operands.apdLimitClear : ∀ a0 a1 a2, Sys2Proof.Laws.Operands.Statement (.apdLimitClear a0 a1 a2) :=
  fun _ _ _ => Sys2Proof.Laws.Operands.of_all _
theorem Sys2Proof.Laws.Operands.apdSettleEnd : ∀ a0, Sys2Proof.Laws.Operands.Statement (.apdSettleEnd a0) :=
  fun _ => Sys2Proof.Laws.Operands.of_all _
theorem Sys2Proof.Laws.Operands.hkcScanStart : Sys2Proof.Laws.Operands.Statement (.hkcScanStart) :=
  Sys2Proof.Laws.Operands.of_all _
theorem Sys2Proof.Laws.Operands.hkcSlot : ∀ a0, Sys2Proof.Laws.Operands.Statement (.hkcSlot a0) :=
  fun _ => Sys2Proof.Laws.Operands.of_all _
theorem Sys2Proof.Laws.Operands.injReq : ∀ a0 a1, Sys2Proof.Laws.Operands.Statement (.injReq a0 a1) :=
  fun _ _ => Sys2Proof.Laws.Operands.of_all _
theorem Sys2Proof.Laws.Operands.gapLendingStart : ∀ a0, Sys2Proof.Laws.Operands.Statement (.gapLendingStart a0) :=
  fun _ => Sys2Proof.Laws.Operands.of_all _
theorem Sys2Proof.Laws.Operands.lendingEnd : ∀ a0, Sys2Proof.Laws.Operands.Statement (.lendingEnd a0) :=
  fun _ => Sys2Proof.Laws.Operands.of_all _
theorem Sys2Proof.Laws.Operands.backgroundMeasurement : ∀ a0 a1 a2, Sys2Proof.Laws.Operands.Statement (.backgroundMeasurement a0 a1 a2) :=
  fun _ _ _ => Sys2Proof.Laws.Operands.of_all _
theorem Sys2Proof.Laws.Operands.conversionWatchdog : ∀ a0, Sys2Proof.Laws.Operands.Statement (.conversionWatchdog a0) :=
  fun _ => Sys2Proof.Laws.Operands.of_all _
theorem Sys2Proof.Laws.Operands.sliceRetire : ∀ a0 a1, Sys2Proof.Laws.Operands.Statement (.sliceRetire a0 a1) :=
  fun _ _ => Sys2Proof.Laws.Operands.of_all _
theorem Sys2Proof.Laws.Operands.ramanBackgroundMeasure : ∀ a0 a1 a2, Sys2Proof.Laws.Operands.Statement (.ramanBackgroundMeasure a0 a1 a2) :=
  fun _ _ _ => Sys2Proof.Laws.Operands.of_all _
theorem Sys2Proof.Laws.Operands.rawWindowGo : ∀ a0 a1, Sys2Proof.Laws.Operands.Statement (.rawWindowGo a0 a1) :=
  fun _ _ => Sys2Proof.Laws.Operands.of_all _
theorem Sys2Proof.Laws.Operands.rawWindowDone : ∀ a0, Sys2Proof.Laws.Operands.Statement (.rawWindowDone a0) :=
  fun _ => Sys2Proof.Laws.Operands.of_all _
theorem Sys2Proof.Laws.Operands.pipeTickEmit : ∀ a0 a1 a2 a3 a4, Sys2Proof.Laws.Operands.Statement (.pipeTickEmit a0 a1 a2 a3 a4) :=
  fun _ _ _ _ _ => Sys2Proof.Laws.Operands.of_all _
theorem Sys2Proof.Laws.Operands.ramanFrameBoundary : ∀ a0, Sys2Proof.Laws.Operands.Statement (.ramanFrameBoundary a0) :=
  fun _ => Sys2Proof.Laws.Operands.of_all _
theorem Sys2Proof.Laws.Operands.ramanIdleEnd : ∀ a0, Sys2Proof.Laws.Operands.Statement (.ramanIdleEnd a0) :=
  fun _ => Sys2Proof.Laws.Operands.of_all _
theorem Sys2Proof.Laws.Operands.dtsProfileComplete : ∀ a0, Sys2Proof.Laws.Operands.Statement (.dtsProfileComplete a0) :=
  fun _ => Sys2Proof.Laws.Operands.of_all _
theorem Sys2Proof.Laws.Operands.tileArrival : ∀ a0, Sys2Proof.Laws.Operands.Statement (.tileArrival a0) :=
  fun _ => Sys2Proof.Laws.Operands.of_all _
theorem Sys2Proof.Laws.Operands.tileStart : ∀ a0, Sys2Proof.Laws.Operands.Statement (.tileStart a0) :=
  fun _ => Sys2Proof.Laws.Operands.of_all _
theorem Sys2Proof.Laws.Operands.tileSteal : ∀ a0, Sys2Proof.Laws.Operands.Statement (.tileSteal a0) :=
  fun _ => Sys2Proof.Laws.Operands.of_all _
theorem Sys2Proof.Laws.Operands.resultHandoff : ∀ a0, Sys2Proof.Laws.Operands.Statement (.resultHandoff a0) :=
  fun _ => Sys2Proof.Laws.Operands.of_all _
theorem Sys2Proof.Laws.Operands.engineFault : ∀ a0, Sys2Proof.Laws.Operands.Statement (.engineFault a0) :=
  fun _ => Sys2Proof.Laws.Operands.of_all _
theorem Sys2Proof.Laws.Operands.engineRetire : ∀ a0 a1, Sys2Proof.Laws.Operands.Statement (.engineRetire a0 a1) :=
  fun _ _ => Sys2Proof.Laws.Operands.of_all _
theorem Sys2Proof.Laws.Operands.nop : ∀ a0 a1, Sys2Proof.Laws.Operands.Statement (.nop a0 a1) :=
  fun _ _ => Sys2Proof.Laws.Operands.of_all _
theorem Sys2Proof.Laws.Operands.mac2 : ∀ a0 a1 a2, Sys2Proof.Laws.Operands.Statement (.mac2 a0 a1 a2) :=
  fun _ _ _ => Sys2Proof.Laws.Operands.of_all _
theorem Sys2Proof.Laws.Operands.msu2 : ∀ a0 a1 a2, Sys2Proof.Laws.Operands.Statement (.msu2 a0 a1 a2) :=
  fun _ _ _ => Sys2Proof.Laws.Operands.of_all _
theorem Sys2Proof.Laws.Operands.mpy2 : ∀ a0 a1 a2, Sys2Proof.Laws.Operands.Statement (.mpy2 a0 a1 a2) :=
  fun _ _ _ => Sys2Proof.Laws.Operands.of_all _
theorem Sys2Proof.Laws.Operands.dot2 : ∀ a0 a1 a2, Sys2Proof.Laws.Operands.Statement (.dot2 a0 a1 a2) :=
  fun _ _ _ => Sys2Proof.Laws.Operands.of_all _
theorem Sys2Proof.Laws.Operands.cmac : ∀ a0 a1 a2, Sys2Proof.Laws.Operands.Statement (.cmac a0 a1 a2) :=
  fun _ _ _ => Sys2Proof.Laws.Operands.of_all _
theorem Sys2Proof.Laws.Operands.cmacj : ∀ a0 a1 a2, Sys2Proof.Laws.Operands.Statement (.cmacj a0 a1 a2) :=
  fun _ _ _ => Sys2Proof.Laws.Operands.of_all _
theorem Sys2Proof.Laws.Operands.cmpy : ∀ a0 a1 a2, Sys2Proof.Laws.Operands.Statement (.cmpy a0 a1 a2) :=
  fun _ _ _ => Sys2Proof.Laws.Operands.of_all _
theorem Sys2Proof.Laws.Operands.cmpyj : ∀ a0 a1 a2, Sys2Proof.Laws.Operands.Statement (.cmpyj a0 a1 a2) :=
  fun _ _ _ => Sys2Proof.Laws.Operands.of_all _
theorem Sys2Proof.Laws.Operands.add2 : ∀ a0 a1 a2, Sys2Proof.Laws.Operands.Statement (.add2 a0 a1 a2) :=
  fun _ _ _ => Sys2Proof.Laws.Operands.of_all _
theorem Sys2Proof.Laws.Operands.adds2 : ∀ a0 a1 a2, Sys2Proof.Laws.Operands.Statement (.adds2 a0 a1 a2) :=
  fun _ _ _ => Sys2Proof.Laws.Operands.of_all _
theorem Sys2Proof.Laws.Operands.sub2 : ∀ a0 a1 a2, Sys2Proof.Laws.Operands.Statement (.sub2 a0 a1 a2) :=
  fun _ _ _ => Sys2Proof.Laws.Operands.of_all _
theorem Sys2Proof.Laws.Operands.subs2 : ∀ a0 a1 a2, Sys2Proof.Laws.Operands.Statement (.subs2 a0 a1 a2) :=
  fun _ _ _ => Sys2Proof.Laws.Operands.of_all _
theorem Sys2Proof.Laws.Operands.and : ∀ a0 a1 a2, Sys2Proof.Laws.Operands.Statement (.and a0 a1 a2) :=
  fun _ _ _ => Sys2Proof.Laws.Operands.of_all _
theorem Sys2Proof.Laws.Operands.or : ∀ a0 a1 a2, Sys2Proof.Laws.Operands.Statement (.or a0 a1 a2) :=
  fun _ _ _ => Sys2Proof.Laws.Operands.of_all _
theorem Sys2Proof.Laws.Operands.xor : ∀ a0 a1 a2, Sys2Proof.Laws.Operands.Statement (.xor a0 a1 a2) :=
  fun _ _ _ => Sys2Proof.Laws.Operands.of_all _
theorem Sys2Proof.Laws.Operands.shl2 : ∀ a0 a1 a2 a3 a4, Sys2Proof.Laws.Operands.Statement (.shl2 a0 a1 a2 a3 a4) :=
  fun _ _ _ _ _ => Sys2Proof.Laws.Operands.of_all _
theorem Sys2Proof.Laws.Operands.asr2 : ∀ a0 a1 a2 a3 a4, Sys2Proof.Laws.Operands.Statement (.asr2 a0 a1 a2 a3 a4) :=
  fun _ _ _ _ _ => Sys2Proof.Laws.Operands.of_all _
theorem Sys2Proof.Laws.Operands.lsr : ∀ a0 a1 a2 a3 a4, Sys2Proof.Laws.Operands.Statement (.lsr a0 a1 a2 a3 a4) :=
  fun _ _ _ _ _ => Sys2Proof.Laws.Operands.of_all _
theorem Sys2Proof.Laws.Operands.max2 : ∀ a0 a1 a2, Sys2Proof.Laws.Operands.Statement (.max2 a0 a1 a2) :=
  fun _ _ _ => Sys2Proof.Laws.Operands.of_all _
theorem Sys2Proof.Laws.Operands.min2 : ∀ a0 a1 a2, Sys2Proof.Laws.Operands.Statement (.min2 a0 a1 a2) :=
  fun _ _ _ => Sys2Proof.Laws.Operands.of_all _
theorem Sys2Proof.Laws.Operands.abs2 : ∀ a0 a1 a2 a3, Sys2Proof.Laws.Operands.Statement (.abs2 a0 a1 a2 a3) :=
  fun _ _ _ _ => Sys2Proof.Laws.Operands.of_all _
theorem Sys2Proof.Laws.Operands.cmpeq2 : ∀ a0 a1 a2, Sys2Proof.Laws.Operands.Statement (.cmpeq2 a0 a1 a2) :=
  fun _ _ _ => Sys2Proof.Laws.Operands.of_all _
theorem Sys2Proof.Laws.Operands.qz2 : ∀ a0 a1 a2 a3, Sys2Proof.Laws.Operands.Statement (.qz2 a0 a1 a2 a3) :=
  fun _ _ _ _ => Sys2Proof.Laws.Operands.of_all _
theorem Sys2Proof.Laws.Operands.byte : ∀ a0 a1 a2 a3 a4, Sys2Proof.Laws.Operands.Statement (.byte a0 a1 a2 a3 a4) :=
  fun _ _ _ _ _ => Sys2Proof.Laws.Operands.of_all _
theorem Sys2Proof.Laws.Operands.pack : ∀ a0 a1 a2, Sys2Proof.Laws.Operands.Statement (.pack a0 a1 a2) :=
  fun _ _ _ => Sys2Proof.Laws.Operands.of_all _
theorem Sys2Proof.Laws.Operands.mov : ∀ a0 a1 a2 a3, Sys2Proof.Laws.Operands.Statement (.mov a0 a1 a2 a3) :=
  fun _ _ _ _ => Sys2Proof.Laws.Operands.of_all _
theorem Sys2Proof.Laws.Operands.movs : ∀ a0 a1 a2 a3 a4, Sys2Proof.Laws.Operands.Statement (.movs a0 a1 a2 a3 a4) :=
  fun _ _ _ _ _ => Sys2Proof.Laws.Operands.of_all _
theorem Sys2Proof.Laws.Operands.extr2 : ∀ a0 a1 a2 a3 a4, Sys2Proof.Laws.Operands.Statement (.extr2 a0 a1 a2 a3 a4) :=
  fun _ _ _ _ _ => Sys2Proof.Laws.Operands.of_all _
theorem Sys2Proof.Laws.Operands.extr : ∀ a0 a1 a2 a3 a4, Sys2Proof.Laws.Operands.Statement (.extr a0 a1 a2 a3 a4) :=
  fun _ _ _ _ _ => Sys2Proof.Laws.Operands.of_all _
theorem Sys2Proof.Laws.Operands.exp : ∀ a0 a1 a2 a3, Sys2Proof.Laws.Operands.Statement (.exp a0 a1 a2 a3) :=
  fun _ _ _ _ => Sys2Proof.Laws.Operands.of_all _
theorem Sys2Proof.Laws.Operands.norm : ∀ a0 a1 a2 a3, Sys2Proof.Laws.Operands.Statement (.norm a0 a1 a2 a3) :=
  fun _ _ _ _ => Sys2Proof.Laws.Operands.of_all _
theorem Sys2Proof.Laws.Operands.dnrm : ∀ a0 a1 a2 a3 a4, Sys2Proof.Laws.Operands.Statement (.dnrm a0 a1 a2 a3 a4) :=
  fun _ _ _ _ _ => Sys2Proof.Laws.Operands.of_all _
theorem Sys2Proof.Laws.Operands.clra : ∀ a0 a1 a2, Sys2Proof.Laws.Operands.Statement (.clra a0 a1 a2) :=
  fun _ _ _ => Sys2Proof.Laws.Operands.of_all _
theorem Sys2Proof.Laws.Operands.fold : ∀ a0 a1 a2, Sys2Proof.Laws.Operands.Statement (.fold a0 a1 a2) :=
  fun _ _ _ => Sys2Proof.Laws.Operands.of_all _
theorem Sys2Proof.Laws.Operands.ld32 : ∀ a0 a1 a2, Sys2Proof.Laws.Operands.Statement (.ld32 a0 a1 a2) :=
  fun _ _ _ => Sys2Proof.Laws.Operands.of_all _
theorem Sys2Proof.Laws.Operands.st32 : ∀ a0 a1 a2, Sys2Proof.Laws.Operands.Statement (.st32 a0 a1 a2) :=
  fun _ _ _ => Sys2Proof.Laws.Operands.of_all _
theorem Sys2Proof.Laws.Operands.ld16 : ∀ a0 a1 a2, Sys2Proof.Laws.Operands.Statement (.ld16 a0 a1 a2) :=
  fun _ _ _ => Sys2Proof.Laws.Operands.of_all _
theorem Sys2Proof.Laws.Operands.st16 : ∀ a0 a1 a2, Sys2Proof.Laws.Operands.Statement (.st16 a0 a1 a2) :=
  fun _ _ _ => Sys2Proof.Laws.Operands.of_all _
theorem Sys2Proof.Laws.Operands.rot : ∀ a0 a1, Sys2Proof.Laws.Operands.Statement (.rot a0 a1) :=
  fun _ _ => Sys2Proof.Laws.Operands.of_all _
theorem Sys2Proof.Laws.Operands.ldi : ∀ a0 a1 a2, Sys2Proof.Laws.Operands.Statement (.ldi a0 a1 a2) :=
  fun _ _ _ => Sys2Proof.Laws.Operands.of_all _
theorem Sys2Proof.Laws.Operands.ldis : ∀ a0 a1 a2, Sys2Proof.Laws.Operands.Statement (.ldis a0 a1 a2) :=
  fun _ _ _ => Sys2Proof.Laws.Operands.of_all _
theorem Sys2Proof.Laws.Operands.br : ∀ a0 a1 a2 a3, Sys2Proof.Laws.Operands.Statement (.br a0 a1 a2 a3) :=
  fun _ _ _ _ => Sys2Proof.Laws.Operands.of_all _
theorem Sys2Proof.Laws.Operands.loop : ∀ a0 a1 a2 a3 a4, Sys2Proof.Laws.Operands.Statement (.loop a0 a1 a2 a3 a4) :=
  fun _ _ _ _ _ => Sys2Proof.Laws.Operands.of_all _
theorem Sys2Proof.Laws.Operands.done : ∀ a0, Sys2Proof.Laws.Operands.Statement (.done a0) :=
  fun _ => Sys2Proof.Laws.Operands.of_all _
theorem Sys2Proof.Laws.Operands.rdreg : ∀ a0 a1 a2, Sys2Proof.Laws.Operands.Statement (.rdreg a0 a1 a2) :=
  fun _ _ _ => Sys2Proof.Laws.Operands.of_all _
theorem Sys2Proof.Laws.Operands.rdregComplete : ∀ a0, Sys2Proof.Laws.Operands.Statement (.rdregComplete a0) :=
  fun _ => Sys2Proof.Laws.Operands.of_all _
theorem Sys2Proof.Laws.Operands.trap : ∀ a0 a1, Sys2Proof.Laws.Operands.Statement (.trap a0 a1) :=
  fun _ _ => Sys2Proof.Laws.Operands.of_all _
theorem Sys2Proof.Laws.Operands.zoneIntervalEnd : ∀ a0, Sys2Proof.Laws.Operands.Statement (.zoneIntervalEnd a0) :=
  fun _ => Sys2Proof.Laws.Operands.of_all _
theorem Sys2Proof.Laws.Operands.overviewIntervalEnd : ∀ a0, Sys2Proof.Laws.Operands.Statement (.overviewIntervalEnd a0) :=
  fun _ => Sys2Proof.Laws.Operands.of_all _
theorem Sys2Proof.Laws.Operands.channelRowEval : ∀ a0, Sys2Proof.Laws.Operands.Statement (.channelRowEval a0) :=
  fun _ => Sys2Proof.Laws.Operands.of_all _
theorem Sys2Proof.Laws.Operands.captureTickRead : ∀ a0, Sys2Proof.Laws.Operands.Statement (.captureTickRead a0) :=
  fun _ => Sys2Proof.Laws.Operands.of_all _
theorem Sys2Proof.Laws.Operands.chrArm : ∀ a0 a1, Sys2Proof.Laws.Operands.Statement (.chrArm a0 a1) :=
  fun _ _ => Sys2Proof.Laws.Operands.of_all _
theorem Sys2Proof.Laws.Operands.rearmEnd : ∀ a0, Sys2Proof.Laws.Operands.Statement (.rearmEnd a0) :=
  fun _ => Sys2Proof.Laws.Operands.of_all _
theorem Sys2Proof.Laws.Operands.codecBlock : ∀ a0 a1, Sys2Proof.Laws.Operands.Statement (.codecBlock a0 a1) :=
  fun _ _ => Sys2Proof.Laws.Operands.of_all _
theorem Sys2Proof.Laws.Operands.reserveBlockWrite : Sys2Proof.Laws.Operands.Statement (.reserveBlockWrite) :=
  Sys2Proof.Laws.Operands.of_all _
theorem Sys2Proof.Laws.Operands.dramRefresh : ∀ a0 a1 a2, Sys2Proof.Laws.Operands.Statement (.dramRefresh a0 a1 a2) :=
  fun _ _ _ => Sys2Proof.Laws.Operands.of_all _
theorem Sys2Proof.Laws.Operands.refreshWindowEnd : ∀ a0, Sys2Proof.Laws.Operands.Statement (.refreshWindowEnd a0) :=
  fun _ => Sys2Proof.Laws.Operands.of_all _
theorem Sys2Proof.Laws.Operands.neighbourRefresh : ∀ a0 a1 a2 a3 a4, Sys2Proof.Laws.Operands.Statement (.neighbourRefresh a0 a1 a2 a3 a4) :=
  fun _ _ _ _ _ => Sys2Proof.Laws.Operands.of_all _
theorem Sys2Proof.Laws.Operands.patrolScrub : ∀ a0 a1 a2 a3 a4, Sys2Proof.Laws.Operands.Statement (.patrolScrub a0 a1 a2 a3 a4) :=
  fun _ _ _ _ _ => Sys2Proof.Laws.Operands.of_all _
theorem Sys2Proof.Laws.Operands.ceWindowClose : ∀ a0, Sys2Proof.Laws.Operands.Statement (.ceWindowClose a0) :=
  fun _ => Sys2Proof.Laws.Operands.of_all _
theorem Sys2Proof.Laws.Operands.migrate : ∀ a0 a1 a2, Sys2Proof.Laws.Operands.Statement (.migrate a0 a1 a2) :=
  fun _ _ _ => Sys2Proof.Laws.Operands.of_all _
theorem Sys2Proof.Laws.Operands.migrationComplete : ∀ a0 a1, Sys2Proof.Laws.Operands.Statement (.migrationComplete a0 a1) :=
  fun _ _ => Sys2Proof.Laws.Operands.of_all _
theorem Sys2Proof.Laws.Operands.caParityError : ∀ a0 a1 a2, Sys2Proof.Laws.Operands.Statement (.caParityError a0 a1 a2) :=
  fun _ _ _ => Sys2Proof.Laws.Operands.of_all _
theorem Sys2Proof.Laws.Operands.freeze : ∀ a0 a1 a2 a3, Sys2Proof.Laws.Operands.Statement (.freeze a0 a1 a2 a3) :=
  fun _ _ _ _ => Sys2Proof.Laws.Operands.of_all _
theorem Sys2Proof.Laws.Operands.journalCopyComplete : Sys2Proof.Laws.Operands.Statement (.journalCopyComplete) :=
  Sys2Proof.Laws.Operands.of_all _
theorem Sys2Proof.Laws.Operands.refclkLoss : Sys2Proof.Laws.Operands.Statement (.refclkLoss) :=
  Sys2Proof.Laws.Operands.of_all _
theorem Sys2Proof.Laws.Operands.refclkOk : Sys2Proof.Laws.Operands.Statement (.refclkOk) :=
  Sys2Proof.Laws.Operands.of_all _
theorem Sys2Proof.Laws.Operands.laneTrainingDone : ∀ a0 a1, Sys2Proof.Laws.Operands.Statement (.laneTrainingDone a0 a1) :=
  fun _ _ => Sys2Proof.Laws.Operands.of_all _
theorem Sys2Proof.Laws.Operands.laneTrainTimeout : ∀ a0, Sys2Proof.Laws.Operands.Statement (.laneTrainTimeout a0) :=
  fun _ => Sys2Proof.Laws.Operands.of_all _
theorem Sys2Proof.Laws.Operands.laneLockHeld : ∀ a0, Sys2Proof.Laws.Operands.Statement (.laneLockHeld a0) :=
  fun _ => Sys2Proof.Laws.Operands.of_all _
theorem Sys2Proof.Laws.Operands.laneAcquireTimeout : ∀ a0, Sys2Proof.Laws.Operands.Statement (.laneAcquireTimeout a0) :=
  fun _ => Sys2Proof.Laws.Operands.of_all _
theorem Sys2Proof.Laws.Operands.laneFault : ∀ a0 a1, Sys2Proof.Laws.Operands.Statement (.laneFault a0 a1) :=
  fun _ _ => Sys2Proof.Laws.Operands.of_all _
theorem Sys2Proof.Laws.Operands.laneRetry : ∀ a0, Sys2Proof.Laws.Operands.Statement (.laneRetry a0) :=
  fun _ => Sys2Proof.Laws.Operands.of_all _
theorem Sys2Proof.Laws.Operands.prbsEnable : ∀ a0 a1 a2, Sys2Proof.Laws.Operands.Statement (.prbsEnable a0 a1 a2) :=
  fun _ _ _ => Sys2Proof.Laws.Operands.of_all _
theorem Sys2Proof.Laws.Operands.prbsInject : ∀ a0 a1 a2, Sys2Proof.Laws.Operands.Statement (.prbsInject a0 a1 a2) :=
  fun _ _ _ => Sys2Proof.Laws.Operands.of_all _
theorem Sys2Proof.Laws.Operands.frameReceive : ∀ a0 a1, Sys2Proof.Laws.Operands.Statement (.frameReceive a0 a1) :=
  fun _ _ => Sys2Proof.Laws.Operands.of_all _
theorem Sys2Proof.Laws.Operands.pauseReceive : ∀ a0 a1 a2, Sys2Proof.Laws.Operands.Statement (.pauseReceive a0 a1 a2) :=
  fun _ _ _ => Sys2Proof.Laws.Operands.of_all _
theorem Sys2Proof.Laws.Operands.announceReceive : ∀ a0 a1 a2, Sys2Proof.Laws.Operands.Statement (.announceReceive a0 a1 a2) :=
  fun _ _ _ => Sys2Proof.Laws.Operands.of_all _
theorem Sys2Proof.Laws.Operands.syncReceive : ∀ a0 a1 a2, Sys2Proof.Laws.Operands.Statement (.syncReceive a0 a1 a2) :=
  fun _ _ _ => Sys2Proof.Laws.Operands.of_all _
theorem Sys2Proof.Laws.Operands.delayReqSend : ∀ a0, Sys2Proof.Laws.Operands.Statement (.delayReqSend a0) :=
  fun _ => Sys2Proof.Laws.Operands.of_all _
theorem Sys2Proof.Laws.Operands.ptpPortFail : ∀ a0, Sys2Proof.Laws.Operands.Statement (.ptpPortFail a0) :=
  fun _ => Sys2Proof.Laws.Operands.of_all _
theorem Sys2Proof.Laws.Operands.ptpRevert : ∀ a0, Sys2Proof.Laws.Operands.Statement (.ptpRevert a0) :=
  fun _ => Sys2Proof.Laws.Operands.of_all _
theorem Sys2Proof.Laws.Operands.followUpReceive : ∀ a0 a1, Sys2Proof.Laws.Operands.Statement (.followUpReceive a0 a1) :=
  fun _ _ => Sys2Proof.Laws.Operands.of_all _
theorem Sys2Proof.Laws.Operands.tcEntryExpire : ∀ a0 a1 a2 a3, Sys2Proof.Laws.Operands.Statement (.tcEntryExpire a0 a1 a2 a3) :=
  fun _ _ _ _ => Sys2Proof.Laws.Operands.of_all _
theorem Sys2Proof.Laws.Operands.pdelayReqSend : ∀ a0, Sys2Proof.Laws.Operands.Statement (.pdelayReqSend a0) :=
  fun _ => Sys2Proof.Laws.Operands.of_all _
theorem Sys2Proof.Laws.Operands.pdelayReqReceive : ∀ a0, Sys2Proof.Laws.Operands.Statement (.pdelayReqReceive a0) :=
  fun _ => Sys2Proof.Laws.Operands.of_all _
theorem Sys2Proof.Laws.Operands.arpRequest : ∀ a0 a1, Sys2Proof.Laws.Operands.Statement (.arpRequest a0 a1) :=
  fun _ _ => Sys2Proof.Laws.Operands.of_all _
theorem Sys2Proof.Laws.Operands.neighbourExpire : ∀ a0 a1, Sys2Proof.Laws.Operands.Statement (.neighbourExpire a0 a1) :=
  fun _ _ => Sys2Proof.Laws.Operands.of_all _
theorem Sys2Proof.Laws.Operands.connectReq : ∀ a0, Sys2Proof.Laws.Operands.Statement (.connectReq a0) :=
  fun _ => Sys2Proof.Laws.Operands.of_all _
theorem Sys2Proof.Laws.Operands.helloTimeout : ∀ a0, Sys2Proof.Laws.Operands.Statement (.helloTimeout a0) :=
  fun _ => Sys2Proof.Laws.Operands.of_all _
theorem Sys2Proof.Laws.Operands.hello : ∀ a0 a1 a2 a3 a4 a5, Sys2Proof.Laws.Operands.Statement (.hello a0 a1 a2 a3 a4 a5) :=
  fun _ _ _ _ _ _ => Sys2Proof.Laws.Operands.of_all _
theorem Sys2Proof.Laws.Operands.auth : ∀ a0 a1 a2 a3 a4, Sys2Proof.Laws.Operands.Statement (.auth a0 a1 a2 a3 a4) :=
  fun _ _ _ _ _ => Sys2Proof.Laws.Operands.of_all _
theorem Sys2Proof.Laws.Operands.read : ∀ a0 a1 a2, Sys2Proof.Laws.Operands.Statement (.read a0 a1 a2) :=
  fun _ _ _ => Sys2Proof.Laws.Operands.of_all _
theorem Sys2Proof.Laws.Operands.write : ∀ a0 a1 a2, Sys2Proof.Laws.Operands.Statement (.write a0 a1 a2) :=
  fun _ _ _ => Sys2Proof.Laws.Operands.of_all _
theorem Sys2Proof.Laws.Operands.getCert : ∀ a0 a1, Sys2Proof.Laws.Operands.Statement (.getCert a0 a1) :=
  fun _ _ => Sys2Proof.Laws.Operands.of_all _
theorem Sys2Proof.Laws.Operands.attestNow : ∀ a0 a1, Sys2Proof.Laws.Operands.Statement (.attestNow a0 a1) :=
  fun _ _ => Sys2Proof.Laws.Operands.of_all _
theorem Sys2Proof.Laws.Operands.close : ∀ a0, Sys2Proof.Laws.Operands.Statement (.close a0) :=
  fun _ => Sys2Proof.Laws.Operands.of_all _
theorem Sys2Proof.Laws.Operands.ping : ∀ a0, Sys2Proof.Laws.Operands.Statement (.ping a0) :=
  fun _ => Sys2Proof.Laws.Operands.of_all _
theorem Sys2Proof.Laws.Operands.doorbellWrite : ∀ a0 a1 a2, Sys2Proof.Laws.Operands.Statement (.doorbellWrite a0 a1 a2) :=
  fun _ _ _ => Sys2Proof.Laws.Operands.of_all _
theorem Sys2Proof.Laws.Operands.rdmaAck : ∀ a0 a1, Sys2Proof.Laws.Operands.Statement (.rdmaAck a0 a1) :=
  fun _ _ => Sys2Proof.Laws.Operands.of_all _
theorem Sys2Proof.Laws.Operands.ackTimeout : ∀ a0, Sys2Proof.Laws.Operands.Statement (.ackTimeout a0) :=
  fun _ => Sys2Proof.Laws.Operands.of_all _
theorem Sys2Proof.Laws.Operands.sequenceNak : ∀ a0, Sys2Proof.Laws.Operands.Statement (.sequenceNak a0) :=
  fun _ => Sys2Proof.Laws.Operands.of_all _
theorem Sys2Proof.Laws.Operands.cnpReceive : ∀ a0, Sys2Proof.Laws.Operands.Statement (.cnpReceive a0) :=
  fun _ => Sys2Proof.Laws.Operands.of_all _
theorem Sys2Proof.Laws.Operands.rateRecovery : ∀ a0, Sys2Proof.Laws.Operands.Statement (.rateRecovery a0) :=
  fun _ => Sys2Proof.Laws.Operands.of_all _
theorem Sys2Proof.Laws.Operands.recordProduce : Sys2Proof.Laws.Operands.Statement (.recordProduce) :=
  Sys2Proof.Laws.Operands.of_all _
theorem Sys2Proof.Laws.Operands.journalResume : ∀ a0, Sys2Proof.Laws.Operands.Statement (.journalResume a0) :=
  fun _ => Sys2Proof.Laws.Operands.of_all _
theorem Sys2Proof.Laws.Operands.piWrite : ∀ a0 a1, Sys2Proof.Laws.Operands.Statement (.piWrite a0 a1) :=
  fun _ _ => Sys2Proof.Laws.Operands.of_all _
theorem Sys2Proof.Laws.Operands.sessionPathFail : ∀ a0, Sys2Proof.Laws.Operands.Statement (.sessionPathFail a0) :=
  fun _ => Sys2Proof.Laws.Operands.of_all _
theorem Sys2Proof.Laws.Operands.housekeepingPeriodEnd : ∀ a0, Sys2Proof.Laws.Operands.Statement (.housekeepingPeriodEnd a0) :=
  fun _ => Sys2Proof.Laws.Operands.of_all _
theorem Sys2Proof.Laws.Operands.udpRecordSend : ∀ a0 a1, Sys2Proof.Laws.Operands.Statement (.udpRecordSend a0 a1) :=
  fun _ _ => Sys2Proof.Laws.Operands.of_all _
theorem Sys2Proof.Laws.Operands.dacScope : ∀ a0, Sys2Proof.Laws.Operands.Statement (.dacScope a0) :=
  fun _ => Sys2Proof.Laws.Operands.of_all _
theorem Sys2Proof.Laws.Operands.adcScope : ∀ a0 a1, Sys2Proof.Laws.Operands.Statement (.adcScope a0 a1) :=
  fun _ _ => Sys2Proof.Laws.Operands.of_all _
theorem Sys2Proof.Laws.Operands.cfeScope : ∀ a0 a1 a2, Sys2Proof.Laws.Operands.Statement (.cfeScope a0 a1 a2) :=
  fun _ _ _ => Sys2Proof.Laws.Operands.of_all _
theorem Sys2Proof.Laws.Operands.rfeScope : ∀ a0 a1, Sys2Proof.Laws.Operands.Statement (.rfeScope a0 a1) :=
  fun _ _ => Sys2Proof.Laws.Operands.of_all _
theorem Sys2Proof.Laws.Operands.hkcScope : ∀ a0 a1 a2, Sys2Proof.Laws.Operands.Statement (.hkcScope a0 a1 a2) :=
  fun _ _ _ => Sys2Proof.Laws.Operands.of_all _
theorem Sys2Proof.Laws.Operands.tisScope : ∀ a0, Sys2Proof.Laws.Operands.Statement (.tisScope a0) :=
  fun _ => Sys2Proof.Laws.Operands.of_all _
theorem Sys2Proof.Laws.Operands.freqScope : ∀ a0, Sys2Proof.Laws.Operands.Statement (.freqScope a0) :=
  fun _ => Sys2Proof.Laws.Operands.of_all _
theorem Sys2Proof.Laws.Operands.calResultWrite : Sys2Proof.Laws.Operands.Statement (.calResultWrite) :=
  Sys2Proof.Laws.Operands.of_all _
theorem Sys2Proof.Laws.Operands.calAbort : ∀ a0 a1, Sys2Proof.Laws.Operands.Statement (.calAbort a0 a1) :=
  fun _ _ => Sys2Proof.Laws.Operands.of_all _
theorem Sys2Proof.Laws.Operands.refInMeasurement : ∀ a0, Sys2Proof.Laws.Operands.Statement (.refInMeasurement a0) :=
  fun _ => Sys2Proof.Laws.Operands.of_all _
theorem Sys2Proof.Laws.Operands.delayRespReceive : ∀ a0 a1, Sys2Proof.Laws.Operands.Statement (.delayRespReceive a0 a1) :=
  fun _ _ => Sys2Proof.Laws.Operands.of_all _
theorem Sys2Proof.Laws.Operands.pdelayRespReceive : ∀ a0 a1, Sys2Proof.Laws.Operands.Statement (.pdelayRespReceive a0 a1) :=
  fun _ _ => Sys2Proof.Laws.Operands.of_all _
theorem Sys2Proof.Laws.Operands.pauseExpire : ∀ a0, Sys2Proof.Laws.Operands.Statement (.pauseExpire a0) :=
  fun _ => Sys2Proof.Laws.Operands.of_all _
theorem Sys2Proof.Laws.Operands.ppsOutPulseEnd : Sys2Proof.Laws.Operands.Statement (.ppsOutPulseEnd) :=
  Sys2Proof.Laws.Operands.of_all _
theorem Sys2Proof.Laws.Operands.neighbourUnreachable : ∀ a0 a1, Sys2Proof.Laws.Operands.Statement (.neighbourUnreachable a0 a1) :=
  fun _ _ => Sys2Proof.Laws.Operands.of_all _
theorem Sys2Proof.Laws.Operands.authFailClose : ∀ a0, Sys2Proof.Laws.Operands.Statement (.authFailClose a0) :=
  fun _ => Sys2Proof.Laws.Operands.of_all _
theorem Sys2Proof.Laws.Operands.calCommand : ∀ a0 a1, Sys2Proof.Laws.Operands.Statement (.calCommand a0 a1) :=
  fun _ _ => Sys2Proof.Laws.Operands.of_all _
theorem Sys2Proof.Laws.Operands.nvmWindowWrite : ∀ a0 a1 a2, Sys2Proof.Laws.Operands.Statement (.nvmWindowWrite a0 a1 a2) :=
  fun _ _ _ => Sys2Proof.Laws.Operands.of_all _
end

