-- ==== Sys2Proof/Tests/Slice0.lean ====
section
/-!
SUPPORT. Tests/Slice0.lean: the model's own tests: the WellFormed checks, the manual's worked examples, and for every statement a witness, a theorem that
shows concrete states and operands meeting the hypotheses of its clauses.
-/
namespace Sys2Proof.Tests
open Sys2Proof Sys2Proof.Machine

set_option Elab.async false

/-! ### WellFormed: an ill-formed term for each check, refused; a well-formed one beside it, accepted -/

def mac (slot acc a b : Nat) : MacOps := ⟨slot, acc, a, b, false⟩
def ptr (d p mode mod : Nat) : MemOps := ⟨.X, d, p, mode, mod⟩
def someDimm : Dimm := ⟨true, true, true, true, 1, 2, 0, 1, 32⟩
def someFrame : Frame := { dest := .own, len := 100, fcsGood := true, vid := none, ptp := .none, domain := 0, source := 0, seqId := 0, ptpUnicast := false,
                           correction := 0 }
def someErr : ReadErr := { devices := 1, beats := [1] }
def someAnn : Announce := ⟨1, 2, 3, 4, 5, 6, 7, 0⟩
def someLog : FreezeLog := ⟨[], 0, [], 0⟩
def head (slot seq : Nat) : CmdHead := ⟨slot, false, false, seq, none, 0⟩

theorem test_ill_formed_refused : (([
    .trainingComplete 2 someDimm someDimm false 0, .laneReset .spi 0 4, .engineReset .spi 0 64, .keyProgram .spi 4 0, .keyRevoke .spi 4,
    .registerWrite .spi (2 ^ 32) 0, .rcRead .spi (2 ^ 32), .latchingRead .spi (2 ^ 32), .bitAliasAccess .spi 0xFFFFFF false none,
    .bitAliasAccess .spi 0x2000000 false none, .evtOutPulseEnd 4, .sourceLost 8, .sourceTake 8, .domStep .spi 4 0, .domSetSec .spi 4 0, .tisStamp ⟨8, false⟩ 0 0,
    .tisPop .spi 8 0, .iuArm .spi 4 0, .iuTimeout 4, .fuStart .spi 2 0, .fuGateEnd 2, .subbandLaunch .A 8, .cmFaultDeclare .A ⟨4, 0, 0⟩, .regulatorUpdate 8, .cmRecovery .A 4,
    .rfeFault 4, .apdLimit 4, .apdLimitClear .spi 4 0, .backgroundMeasurement 146 ⟨0, 0, 0⟩ false, .conversionWatchdog 146, .tileStart 64, .tileSteal 64,
    .engineFault ⟨64, .single⟩, .nop 64 false, .mac2 0 (mac 2 0 0 0) false, .mac2 0 (mac 0 8 0 0) false, .mac2 0 (mac 0 0 32 0) false, .mac2 0 (mac 0 0 0 32) false,
    .msu2 64 (mac 0 0 0 0) false, .mpy2 0 (mac 2 0 0 0) false, .dot2 0 (mac 0 8 0 0) false, .cmac 0 (mac 0 0 32 0) false, .cmacj 0 (mac 0 0 0 32) false,
    .cmpy 64 (mac 0 0 0 0) false, .cmpyj 0 (mac 2 0 0 0) false, .add2 0 ⟨32, 0, 0⟩ false, .adds2 0 ⟨0, 32, 0⟩ false, .sub2 0 ⟨0, 0, 32⟩ false] :
    List Instr).all fun i => !i.wf) = true := by decide +kernel

theorem test_ill_formed_engine_words_refused : (([
    .subs2 64 ⟨0, 0, 0⟩ false, .and 0 ⟨32, 0, 0⟩ false, .or 0 ⟨0, 32, 0⟩ false, .xor 0 ⟨0, 0, 32⟩ false, .shl2 0 0 0 16 false, .asr2 0 0 0 16 false,
    .lsr 0 0 0 32 false, .max2 0 ⟨32, 0, 0⟩ false, .min2 0 ⟨32, 0, 0⟩ false, .abs2 0 32 0 false, .cmpeq2 0 ⟨32, 0, 0⟩ false, .qz2 0 ⟨32, 0, 0⟩ false false,
    .byte 0 0 0 4 false, .pack 0 ⟨32, 0, 0⟩ false, .mov 0 0 32 false, .movs 0 32 0 false false, .extr2 0 0 8 0 false, .extr2 0 0 0 40 false,
    .extr 0 0 ⟨8, .L⟩ 0 false, .extr 0 0 ⟨0, .H⟩ 40 false, .exp 0 32 ⟨0, .L⟩ false, .norm 0 0 ⟨8, .L⟩ false, .dnrm 0 0 0 128 false,
    .dnrm 0 0 0 (-129) false, .clra 0 8 false, .fold 0 8 false, .ld32 0 (ptr 32 0 0 0) false, .st32 0 (ptr 0 8 0 0) false, .ld16 0 (ptr 0 0 5 0) false,
    .st16 0 (ptr 0 0 0 8) false, .rot 64 false, .ldi 0 32 0, .ldis 0 32 0, .br 0 1024 0 0, .br 0 0 4 0, .br 0 0 0 32, .loop 0 1024 0 0 none,
    .loop 0 0 1024 0 none, .loop 0 0 0 65536 none, .loop 0 0 0 0 (some 32), .done 64, .rdreg 0 0 32, .rdregComplete 64, .trap 0 256] :
    List Instr).all fun i => !i.wf) = true := by decide +kernel

theorem test_ill_formed_later_rows_refused : (([
    .channelRowEval 32, .captureTickRead 16, .rearmEnd 32, .dramRefresh 0 4 false, .refreshWindowEnd 2, .neighbourRefresh 2 0 0 0 0,
    .patrolScrub 2 [] 0 [] false, .patrolScrub 0 [0, 63] 0 [] false, .ceWindowClose 2, .migrate .spi 2 0, .migrationComplete 2 [], .migrationComplete 0 [⟨63, someErr⟩], .caParityError 2 0 someLog,
    .freeze .spi 2 0 someLog, .laneTrainingDone 4 0, .laneTrainTimeout 4, .laneLockHeld 4, .laneAcquireTimeout 4, .laneFault 4 ⟨0, 0⟩, .laneFault 0 ⟨9, 0⟩,
    .laneRetry 4, .prbsEnable .spi ⟨4, 0, []⟩ 0, .prbsInject .spi ⟨4, 0, []⟩ 0, .frameReceive 4 someFrame, .pauseReceive 4 none 0, .announceReceive 256 0 someAnn,
    .announceReceive 0 4 someAnn, .syncReceive 4 ⟨0, 0, {}, 0, 0⟩ 0, .syncReceive 0 ⟨256, 0, {}, 0, 0⟩ 0, .delayReqSend ⟨4, {}⟩, .ptpPortFail 4, .ptpRevert 4, .followUpReceive 4 someFrame, .tcEntryExpire 4 0 0 0,
    .pdelayReqSend ⟨4, {}⟩, .pdelayReqReceive { port := 4 }, .arpRequest 4 0, .neighbourExpire 4 0, .connectReq ⟨4, 0, 0, 255, 0, 0, 0, 0, 0⟩,
    .connectReq ⟨0, 0, 0, 255, 3, 0, 0, 0, 0⟩, .helloTimeout 64, .hello (head 64 0) [] 0 0 0 [], .auth (head 0 (2 ^ 32)) 0 0 0 0, .read (head 64 0) 0 0,
    .write (head 64 0) 0 [], .getCert (head 64 0) 0, .attestNow (head 64 0) 0, .close (head 64 0), .ping (head 64 0), .doorbellWrite 64 .read 0,
    .doorbellWrite 0 (.index 512) 0, .ping { head 0 0 with otherOp := some 5 }, .rdmaAck 64 0, .ackTimeout 64, .sequenceNak 64, .cnpReceive 64, .rateRecovery 64, .journalResume 64, .piWrite 0 7,
    .sessionPathFail 64, .housekeepingPeriodEnd 0, .housekeepingPeriodEnd 65536, .udpRecordSend 64 false, .delayRespReceive 4 ⟨0, 0, 0⟩, .delayRespReceive 0 ⟨256, 0, 0⟩, .pdelayRespReceive 4 ⟨{}, 0⟩,
    .pauseExpire 4, .neighbourUnreachable 4 0, .authFailClose 64, .nvmWindowWrite .spi (2 ^ 32) 0] : List Instr).all fun i => !i.wf) = true := by decide +kernel

theorem test_well_formed_accepted : (([
    .trainingComplete 1 someDimm someDimm false 0, .bitAliasAccess .spi 0x1FFFFFC false none, .mac2 63 (mac 1 7 31 31) false, .add2 63 ⟨31, 31, 31⟩ true,
    .shl2 0 31 31 15 false, .lsr 0 0 0 31 false, .dnrm 0 0 0 (-128) false, .dnrm 0 0 0 127 false, .ld32 63 (ptr 31 7 4 7) false,
    .br 63 1023 3 31, .loop 63 1023 1023 65535 (some 31), .trap 0 255, .backgroundMeasurement 145 ⟨0, 0, 0⟩ false, .patrolScrub 1 [64] 3 [1] true, .migrationComplete 1 [⟨64, someErr⟩],
    .laneFault 3 ⟨8, 7⟩, .connectReq ⟨3, 0, 0, 255, 2, 0, 0, 0, 0⟩, .ping (head 63 (2 ^ 32 - 1)), .doorbellWrite 63 (.index 511) 0, .ping { head 0 0 with otherOp := some 9 }, .housekeepingPeriodEnd 65535] :
    List Instr).all fun i => i.wf) = true := by decide +kernel

/-! ### The manual's worked examples -/

def digits : List Byte := [0x31, 0x32, 0x33, 0x34, 0x35, 0x36, 0x37, 0x38, 0x39]

/-- The check values of the CRCs of R66 and R85 over the nine digits "123456789" (the values of the named CRCs). -/
theorem test_crc_check_values : crc32c digits = 0xE3069283 ∧ crc8 digits = 0xF4 := by decide +kernel

/-- "Probe synthesis": the words of sub-band 0 of the 66 km example (R128). -/
theorem test_probe_words : (makeProbe (-262500) 60000 9600 1800 1 0 0).w0 = -34304762786611 ∧ (makeProbe (-262500) 60000 9600 1800 1 0 0).dlt = 733007752 := by
  decide +kernel

/-- R253's example: NORM of 19,088,743 is 0x000A_48D1, exp is 14. -/
theorem test_norm : normLane 19088743 = 0x000A48D1 ∧ laneExp 19088743 = 14 ∧ normLane 0 = 0 := by decide +kernel

/-- The worked example of the codec: the mapped residues, and K = 2 at 58 bits. -/
theorem test_codec_group :
    let us := ([3, -2, 0, 5, -1, 1, -4, 2, 0, -3, 6, -1, 2, 0, -2, 1] : List Int).map mapResidue
    us = [6, 3, 0, 10, 1, 2, 7, 4, 0, 5, 12, 1, 4, 0, 3, 2] ∧ [0, 1, 2, 3].map (fun k => groupCost k us) = [76, 59, 58, 66] ∧ bestK us = 2 ∧
    resBits 2 6 = [true, false, true, false] ∧ resBits 2 3 = [false, true, true] := by decide +kernel

/-- "Checking REF_IN": FREQ of P = 256 points' slope 25.600 000 38 µs is 42,949,672,315,754,906 within the example's rounding of f (R117). -/
theorem test_frequency_example :
    let freq := roundAway (256 * 2 ^ 32 * 10 ^ 14) 2560000038
    (freq - 42949672315754906).natAbs < 42949672315754906 / 10 ^ 9 := by decide +kernel

/-- "A bin on the rail corridor": ln 0.1500 = −1.897 12, ln 0.1100 = −2.207 28 and T = 302,638 mK, each within the example's rounding (R229, R231, R235). -/
theorem test_raman_temperature :
    (roundRat (lnOf 15 100 * 100000) + 189712).natAbs ≤ 1 ∧ (roundRat (lnOf 11 100 * 100000) + 220728).natAbs ≤ 1 ∧
    ((tempOf { gamma := 633500 } 1 (209327 / 100000)).any fun t => decide ((roundRat t - 302638).natAbs ≤ 2)) = true := by decide +kernel

/-- "Scale on the crude line" (R211): SH = 24, and MANT within 0.01 % of the example, whose intermediate figures are rounded to five digits. -/
theorem test_scale_example : (planScale 1550120 4 8 51118 15 558600 10000).2 = 24 ∧
    ((planScale 1550120 4 8 51118 15 558600 10000).1 : Int) - 14582863 < 1458 ∧ (14582863 : Int) - (planScale 1550120 4 8 51118 15 558600 10000).1 < 1458 := by
  decide +kernel

/-! ### Small machines -/

/-- `m` with some fields set. -/
def sets (l : List (Fld × Nat)) (m : Mach) : Mach :=
  { m with regs := { m.regs with act := l.foldl (fun b (x : Fld × Nat) => mapPut 0 b x.1.key x.2) m.regs.act } }

/-- The same values of a field of several units. -/
def each (l : List Nat) (f : Nat → Fld) (v : Nat) : List (Fld × Nat) := l.map fun i => (f i, v)

/-- A machine in RUN with its supplies, nothing else set up. -/
def run0 : Mach :=
  sets [(F.SYS_POWER_PFAIL, 0), (F.SYS_STATE_MODE, 1), (F.CLK_XO_STATUS_XO0_OK, 1), (F.CLK_XO_STATUS_XO1_OK, 1), (F.CLK_XO_STATUS_PLL_LOCK, 1)]
    { Mach.reset with
      pwr := { phase := .running, supply := true, pgood := true, intlkN := true, vaux12 := true, v33 := true, startDone := true, mcPwrEn := true,
               dieMk := 300000 }
      clk := { Mach.reset.clk with dev := 5000123456, frac := 12345, coarse := 777777 }
      mgmt := { serving := true } }

/-- A machine held after a fault, for a cause. -/
def held (h : Hold) (m : Mach) : Mach := { m with pwr := { m.pwr with phase := .held, holds := [h] } }

def on (m : Mach) : State := { pending := [], nv := {}, m := m }

/-- Whether a command completes in a machine that then meets `P`. -/
def gives (c : Instr) (m : Mach) (P : Mach → Bool) : Bool := match exec c (on m) with | .next t => P t.m | _ => false

theorem may (m : Mach) (a : Nat) (h : (m.pwr.supply && m.answers a) = true) : MayAccess m .supervisor a := by
  have := Bool.and_eq_true_iff.mp h
  exact ⟨this.1, fun _ e => Master.noConfusion e, fun _ => rfl, this.2, rfl⟩

/-! ### One step -/

/-- "One bit of CFG.CRC_CTRL" (R78): each of the four alias words of CRC_AUTO sets its shadow bit and leaves ACTION alone. -/
theorem test_bit_alias : ([0x1200480, 0x12A0480, 0x1A00480, 0x1AA0480].all fun a => gives (.bitAliasAccess .spi a false (some 1)) run0 fun m =>
    m.shadow F.CFG_CRC_CTRL_CRC_AUTO == 1 && m.shadow F.CFG_CRC_CTRL_ACTION == run0.shadow F.CFG_CRC_CTRL_ACTION && !m.bus.err) = true := by decide +kernel

/-- Table 07-2: the X ranger at H = 8 through a reflection: code 0 from block 2, the eighth low block is block 13, code 1 from block 15. -/
theorem test_ranger_table :
    let m := sets [(F.ESC_STATUS_RUNNING 0, 1), (F.AFE_CFE_CTRL_H 0, 8), (gainFld .A .X, 3)] run0
    let low : List Half := List.replicate 32 310
    let m1 := m.rangerBlock .A .X (List.replicate 32 2047)
    let m2 := m1.rangerBlock .A .X low
    let m13 := (List.range 12).foldl (fun (x : Mach) _ => x.rangerBlock .A .X low) m2
    let m14 := (m13.rangerUp .A .X).rangerBlock .A .X low
    m1.get (gainFld .A .X) = 3 ∧ m2.get (gainFld .A .X) = 0 ∧ (m13.ranger .A .X).low = 8 ∧ m13.get (gainFld .A .X) = 0 ∧
    m14.get (gainFld .A .X) = 1 ∧ (m14.ranger .A .X).hold = 4 := by decide +kernel

/-! ### Witnesses: start, supplies, resets, configuration -/

theorem witness_IdleTick : State.reset.pending = [] ∧ State.reset.m.pwr.entering = none ∧ State.reset.m.fabricUp = false := by decide +kernel

/-- Steps that answer a next state, as OtpGrowsEveryStep and NorCanonicalEveryStep suppose: one programs a key, one writes a byte of the NOR. -/
theorem witness_every_step :
    (match step { on (sets [(F.SYS_STATE_MODE, 3)] run0) with pending := [.keyProgram .spi 0 5] } with | .next t => decide (t.nv.otp.keys ≠ ({} : NonVol).otp.keys) | _ => false) = true ∧
    (match step { on run0 with pending := [.nvmWindowWrite .supervisor 0x10000 5] } with | .next t => decide (t.nv.nor ≠ []) | _ => false) = true ∧
    mapWf 0xFF State.reset.nv.nor = true := by decide +kernel

theorem witness_SupplyRises : State.reset.m.pwr.supply = false ∧ (run0.pwr.supply = true ∧ run0.pwr.v33 = true ∧ run0.pwr.vaux12 = true) := by decide +kernel

def marked : Mach := { sets [(F.SYS_PWR_STATE_PSTATE, 4)] run0 with pwr := { run0.pwr with marker := some ⟨5, 6, 0, 0, 0, 0, 0, []⟩ } }

theorem witness_SupplyFalls : (run0.pwr.supply = true ∧ run0.alive = true ∧ run0.get F.SYS_PWR_STATE_PSTATE < 3) ∧
    ((held .thermal run0).pwr.supply = true ∧ (held .thermal run0).alive = false) ∧
    (let m := sets [(F.SYS_PWR_STATE_PSTATE, 3)] run0; m.alive = true ∧ m.get F.SYS_PWR_STATE_PSTATE = 3) ∧
    (marked.alive = true ∧ marked.get F.SYS_PWR_STATE_PSTATE = 4 ∧ marked.pwr.marker.isSome = true) := by decide +kernel

theorem witness_FeedsAndOutputs : run0.pwr.supply = true ∧ run0.pwr.vaux12 = true ∧ run0.pwr.v33 = true ∧ run0.pwr.feedSeen.a = false ∧ run0.pwr.feedSeen.b = false := by
  decide +kernel

/-- A held core whose die has a temperature. -/
def heated (mk : Int) : Mach := let m := held .thermal run0; { m with pwr := { m.pwr with dieMk := mk } }

/-- The thermal restart at its boundary: 95 °C is 368,150 mK. -/
theorem witness_CoreResets :
    (run0.pwr.supply = true ∧ run0.pwr.pgood = true ∧ .thermal ∉ run0.pwr.holds ∧ .crystals ∉ run0.pwr.holds) ∧
    ((held .output run0).pwr.supply = true ∧ .output ∈ (held .output run0).pwr.holds ∧ .thermal ∉ (held .output run0).pwr.holds ∧
      .crystals ∉ (held .output run0).pwr.holds) ∧
    (run0.alive = true ∧ run0.pwr.holds = [] ∧ run0.pwr.drain = none ∧ run0.running .A = false ∧ run0.running .B = false ∧ run0.forming .A = false ∧ run0.forming .B = false) ∧
    ((heated 368149).pwr.holds = [.thermal] ∧ (heated 368149).pwr.dieMk < 368150) ∧
    ((heated 368150).pwr.holds = [.thermal] ∧ 368150 ≤ (heated 368150).pwr.dieMk) ∧
    ((held .crystals run0).pwr.holds = [.crystals] ∧ (true || false) = true) ∧
    ((held .powerFail run0).pwr.holds = [.powerFail] ∧ (held .powerFail run0).on F.SYS_POWER_PFAIL = false) := by decide +kernel

def ports : Mach := sets (each [0, 1] F.ESC_STATUS_RUNNING 1 ++ each [0, 1] F.ESC_CTRL_RUN 1) run0

theorem witness_CoreResets_warm : MayAccess run0 .supervisor F.SYS_RESET_KEY.addr ∧
    (MayAccess ports .supervisor F.SYS_RESET_KEY.addr ∧ ports.alive = true ∧ ports.pwr.drain = none ∧ ports.running .A = true) :=
  ⟨may _ _ (by decide +kernel), may _ _ (by decide +kernel), by decide +kernel⟩

theorem witness_PartResets : (run0.calBusy = false ∧ run0.pwr.drain = none ∧ ports.pwr.drain = none) ∧ ((ports.acqOf .A).resetWrite = none ∧ ports.running .A = true ∧ ports.calBusy = false) ∧
    ((run0.acqOf .B).resetWrite = none ∧ run0.running .B = false) ∧ 3 < 4 ∧ 63 < 64 := by decide +kernel

theorem witness_PartResets_access : MayAccess run0 .supervisor F.SYS_RESET_KEY.addr ∧ MayAccess ports .supervisor F.SYS_RESET_KEY.addr :=
  ⟨may _ _ (by decide +kernel), may _ _ (by decide +kernel)⟩

def reset1 : Mach := { Mach.reset with pwr := { phase := .reset, supply := true, pgood := true } }
def keyed : NonVol := { otp := { keys := [{}, { hash := some 4 }, {}, {}] } }
def trains : Mach := sets (each [0, 1] F.MC_STATUS_STATE 1) run0
/-- Step 8: channel 0 trains and the other has done so, or is absent. -/
def training (other : Nat) : Mach :=
  let m := sets [(F.MC_STATUS_STATE 0, 1), (F.MC_STATUS_STATE 1, other), (F.SYS_STATE_MODE, 0), (F.SYS_STATE_START_STEP, 8)] run0; { m with pwr := { m.pwr with phase := .starting } }
def starting : Mach :=
  let m := sets [(F.ESC_CTRL_RUN 1, 1), (F.SYS_STATE_MODE, 0), (F.SYS_STATE_START_STEP, 11)] run0
  { m with pwr := { m.pwr with phase := .starting, lightAt := some 4000000000 }, acq := ⟨{}, { startAt := some 5000200000 }⟩ }

theorem witness_StartSequence :
    (reset1.pwr.phase = .reset ∧ reset1.pwr.supply = true ∧ reset1.pwr.pgood = true ∧ ∀ k ∈ ({} : NonVol).otp.keys, k.hash = none) ∧
    (¬ (∀ k ∈ keyed.otp.keys, k.hash = none) ∧ slotOrder keyed.nor = [] ∧ reset1.get F.SYS_STATE_MODE = 0 ∧ ∀ e ∈ keyed.calRegs, e.1 ≠ F.SYS_STATE_MODE.key) ∧
    (reset1.pwr.safeKept = 0 ∧ (slotOrder keyed.nor).find? (fun _ => true) = none) ∧
    ((training 2).pwr.phase = .starting ∧ (training 2).get F.SYS_STATE_START_STEP = 8 ∧ (training 2).get F.SYS_STATE_MODE = 0 ∧ (training 2).mcState 0 = 1 ∧
      (training 2).get F.SYS_PWR_STATE_PSTATE < 3 ∧ (training 2).mcState (1 - 0) = 2 ∧ ∀ i < 2, (training 2).on (F.ESC_CTRL_RUN i) = false) ∧
    ((training 0).pwr.phase = .starting ∧ (training 0).mcState (1 - 0) = 0 ∧ (trainResult someDimm someDimm true).isOk = false) ∧
    (trains.alive = true ∧ trains.mcState 1 = 1 ∧ trains.mcState (1 - 1) = 1) ∧
    (starting.pwr.phase = .starting ∧ starting.get F.SYS_STATE_START_STEP = 11 ∧ starting.calBusy = false ∧ starting.running .B = false ∧
      starting.on (F.ESC_CTRL_RUN (portIx .B)) = true ∧ starting.firstAt .B ≠ none ∧ starting.pwr.drain = none ∧ starting.pendingIn (portIx .B) = false ∧
      starting.get F.SYS_STATE_MODE ≠ 2) := by
  decide +kernel

/-- An image in slot A, whose key is burned: of the conditions under which slot selection takes it, all but those that stand on the open functions of the
configuration (the image format's support, the hash and the signature check) are its own. -/
def image0 : Image :=
  { fmtMajor := 1, hdrLen := 256, imgSeq := 1, secVer := 0, raiseSv := false, startCal := false, part := 0x7160, minFw := 0, lengthsOk := true, sections := [],
    keySlot := 1, keyHash := 4, pubX := 1, pubY := 2, sigR := 3, sigS := 4, digest := 5 }

theorem witness_StartSequence_image :
    (slotOrder [(slotBase 0, 0x4D), (slotBase 0 + 1, 0x4C), (slotBase 0 + 2, 0x4E), (slotBase 0 + 3, 0x49)]).map (·.1) = [0] ∧
    (∀ x ∈ image0.used, x.typ ≠ 1) ∧ image0.hdrLen = 256 ∧ image0.part = 0x7160 ∧ ¬ image0.secVer < keyed.otp.secVer ∧ ¬ run0.get F.SYS_FW_VER < image0.minFw ∧
    image0.lengthsOk = true ∧ keyed.otp.keys[image0.keySlot]? = some { hash := some image0.keyHash } := by decide +kernel

/-- A machine in a power state, with a wake due. -/
def asleep (n : Nat) : Mach := let m := sets [(F.SYS_PWR_STATE_PSTATE, n)] run0; { m with pwr := { m.pwr with wakeAt := some 5000500000 } }
def trimmed (x : Int) : Mach := sets [(F.CLK_TRIM, codeOf 32 x)] (held .thermal run0)

/-- A commit of the module domain that waits for its boundary. -/
def committing : Mach :=
  let m := sets [(F.CFG_COMMIT_STATUS_STATE, 2), (F.CFG_EPOCH_PEND_EPOCH, 77)] run0
  { m with regs := { m.regs with staged := [(F.TRAIN_CTRL_EN_A.key, 1)] }, commit := { m.commit with mask := 16 } }

theorem witness_TimeAndWakes :
    (State.reset.m.pwr.supply = false ∧ run0.pwr.supply = true ∧ run0.alive = true ∧ run0.get F.SYS_PWR_STATE_PSTATE < 3 ∧ run0.pwr.entering = none ∧
      run0.pwr.drain = none ∧ run0.pendingIn 4 = false ∧ run0.calBusy = false) ∧
    (committing.pwr.supply = true ∧ committing.alive = true ∧ committing.get F.SYS_PWR_STATE_PSTATE < 3 ∧ committing.pwr.entering = none ∧ committing.pwr.drain = none ∧
      committing.pendingIn 4 = true ∧ committing.commit.mask = 16 ∧ committing.get F.CFG_COMMIT_STATUS_APPLIED = 0 ∧ committing.commit.wantReload = 0) ∧
    ([-trimMax, 0, trimMax].all fun x => let m := trimmed x
      m.pwr.supply && !m.alive && m.pwr.entering.isNone && decide (-trimMax ≤ m.trim) && decide (m.trim ≤ trimMax) && m.trim == x && decide (m.clk.frac < 2 ^ 32) &&
        decide (m.clk.dev + 2000000 < 2 ^ 64)) = true ∧
    ((asleep 2).pwr.wakeAt = some 5000500000 ∧ (asleep 2).pwr.entering = none ∧ (asleep 2).get F.SYS_PWR_STATE_PSTATE = 2) ∧
    ((asleep 4).pwr.wakeAt = some 5000500000 ∧ (asleep 4).pwr.entering = none ∧ (asleep 4).pwr.holds = [] ∧ (asleep 4).get F.SYS_PWR_STATE_PSTATE = 4) ∧
    ((asleep 3).get F.SYS_PWR_STATE_PSTATE = 3 ∧ (asleep 3).pwr.entering = none ∧ (asleep 3).alive = true) := by decide +kernel

def temp (t : Int) : HkcConv := { code := 100, val := t, broke := false }
def warm : Mach := { run0 with pwr := { run0.pwr with thermWarn := true } }

theorem witness_DieTemperature : (held .thermal run0).alive = false ∧
    (run0.hkcVal 0 373150 = 373150 ∧ run0.hkcVal 1 (-5) = -5 ∧ run0.get F.SYS_PWR_STATE_PSTATE < 3 ∧ (asleep 3).alive = true ∧ 3 ≤ (asleep 3).get F.SYS_PWR_STATE_PSTATE) ∧
    (run0.alive = true ∧ max (temp 373150).val (max (temp 0).val (temp 0).val) = 373150 ∧ (373150 : Int) < 381150 ∧ run0.pwr.thermWarn = false) ∧
    (max (temp 0).val (max (temp 381149).val (temp 5).val) < 381150) ∧
    (warm.alive = true ∧ warm.pwr.thermWarn = true ∧ max (temp 370149).val (max (temp 3).val (temp 0).val) < 370150) ∧
    (381150 ≤ max (temp 0).val (max (temp 0).val (temp 381150).val)) := by decide +kernel

theorem witness_InterruptLine : run0.mgmt.serving = true := rfl

/-- A set of staged values in which every field that may not hold 0 holds the first of some values that it may hold. -/
def validShadow : List (Nat × Nat) :=
  let low := (List.range 20).flatMap fun blk => (blockRows blk).flatMap fun r =>
    (r.fields.filter fun f => f.acc == .rws && !okVal f.ok 0).flatMap fun f =>
      match [348966093, 0x10101010, 10000, 20000, 40000, 100000, 1000000, 1500000, 1, 2, 3, 4, 5, 8, 16, 20, 64, 80, 256, 1000].find? (okVal f.ok) with
      | none => []
      | some v => (if twoHalves blk then [0, 0x8000] else [0]).flatMap fun h => (List.range r.count).map fun i =>
          ((blk * 0x10000 + h + r.off + i * r.stride) * 32 + f.lsb, v)
  ([(F.TRAIN_POOL_LO_POOL.key, 2 ^ 32 - 1), (F.TRAIN_POOL_HI_POOL.key, 2 ^ 32 - 1), (F.CFG_CRC_CTRL_CRC_AUTO.key, 1), ((F.AFE_CFE_CM_CM_HI 0).key, 120),
    ((F.AFE_CFE_CM_CM_HI 1).key, 120)] ++ low.reverse).foldr (fun (e : Nat × Nat) b => mapPut 0 b e.1 e.2) []

def staging : Mach := { run0 with regs := { run0.regs with shd := validShadow } }

theorem witness_Commits_pass :
    staging.get F.CFG_COMMIT_STATUS_STATE = 0 ∧ staging.checks (settingsOf staging.regs.shd) (31 % 32) = none ∧ staging.get F.CFG_EPOCH % 65536 ≠ 65535 := by
  decide +kernel

theorem witness_Commits :
    staging.get F.CFG_EPOCH % 65536 ≠ 65535 ∧ (31 : Word).toNat % 32 ≠ 0 ∧ (sets [(F.CFG_EPOCH, 65535)] staging).get F.CFG_EPOCH % 65536 = 65535 ∧
    ({ boot0 := .valid 0 2 1 1 } : NonVol).record = some (0, 2) ∧ 0 ≤ staging.boot.counter ∧
    (run0.checks (settingsOf run0.regs.shd) (1 % 32)).isSome = true ∧
    (sets [(F.CFG_COMMIT_STATUS_STATE, 2)] run0).get F.CFG_COMMIT_STATUS_STATE ≠ 0 ∧ bitOf (1 : Word).toNat 0 = true ∧
    (let m := sets [(F.CFG_COMMIT_STATUS_STATE, 2)] run0
     m.get F.CFG_COMMIT_STATUS_APPLIED = 0 ∧ m.commit.reload = false ∧ m.commit.wantReload = 0) ∧
    (let m := sets [(F.CFG_COMMIT_STATUS_STATE, 2), (F.CFG_COMMIT_STATUS_APPLIED, 1)] run0
     m.get F.CFG_COMMIT_STATUS_STATE ≠ 0 ∧ m.get F.CFG_COMMIT_STATUS_APPLIED ≠ 0) := by decide +kernel

/-- A domain applies a commit of two domains first, then the other last; a commit fails on the plan of port A. -/
theorem witness_Commits_domains :
    (let m := { sets [(F.CFG_COMMIT_STATUS_STATE, 2), (F.CFG_EPOCH_PEND_EPOCH, 77)] run0 with commit := { run0.commit with mask := 17 } }
     m.pendingIn 4 = true ∧ bitOf m.commit.mask 0 = true ∧ bitOf (m.get F.CFG_COMMIT_STATUS_APPLIED) 0 = false) ∧
    (let m := { sets [(F.CFG_COMMIT_STATUS_STATE, 2), (F.CFG_COMMIT_STATUS_APPLIED, 1)] run0 with commit := { run0.commit with mask := 17 } }
     m.pendingIn 4 = true ∧ (∀ i < 5, bitOf m.commit.mask i = true → i = 4 ∨ bitOf (m.get F.CFG_COMMIT_STATUS_APPLIED) i = true) ∧
     m.get F.CFG_COMMIT_STATUS_APPLIED ||| m.commit.mask = m.commit.mask ∧ m.commit.wantReload = 0) ∧
    (run0.checks (settingsOf (mapPut 0 validShadow (F.ESC_CTRL_RUN 0).key 1)) 31).map (·.err) = some (.plan 0 1 0) := by decide +kernel

theorem witness_Commits_access : MayAccess staging .supervisor F.CFG_COMMIT_MASK.addr ∧ MayAccess run0 .supervisor F.CFG_COMMIT_MASK.addr ∧
    MayAccess (sets [(F.CFG_COMMIT_STATUS_STATE, 2), (F.CFG_COMMIT_STATUS_APPLIED, 1)] run0) .supervisor F.CFG_ABORT.addr :=
  ⟨may _ _ (by decide +kernel), may _ _ (by decide +kernel), may _ _ (by decide +kernel)⟩

/-- A machine whose configuration checker has a reference that differs by `d` from the CRC. -/
def checker (d : Nat) (l : List (Fld × Nat)) (reloaded : Bool) : Mach :=
  let m := sets ((F.CFG_CRC_CTRL_CRC_AUTO, 1) :: l) run0; { m with commit := { m.commit with ref := configCrc m.regs.act + d, reloaded := reloaded } }

theorem witness_ConfigChecker :
    (let m := sets [(F.CFG_COMMIT_STATUS_STATE, 2), (F.CFG_COMMIT_STATUS_APPLIED, 4)] run0
     m.fabricUp = true ∧ m.get F.CFG_COMMIT_STATUS_STATE = 2 ∧ m.get F.CFG_COMMIT_STATUS_APPLIED ≠ 0) ∧
    (let m := checker 1 [] false
     m.fabricUp = true ∧ m.get F.CFG_COMMIT_STATUS_APPLIED = 0 ∧ m.on F.CFG_CRC_CTRL_CRC_AUTO = true ∧ m.get F.CFG_CRC_CTRL_ACTION = 0 ∧
      m.commit.reloaded = false) ∧
    ((checker 1 [] true).commit.reloaded = true ∧ (checker 1 [] true).get F.SYS_STATE_MODE ≠ 2) ∧
    (let m := { checker 1 [(F.CFG_CRC_CTRL_ACTION, 1)] true with commit := { (checker 1 [(F.CFG_CRC_CTRL_ACTION, 1)] true).commit with wantReload := 3 } }
     m.get F.CFG_CRC_CTRL_ACTION = 1 ∧ m.commit.reload = false ∧ m.commit.reloaded = true ∧ m.get F.CFG_COMMIT_STATUS_STATE = 0 ∧ m.get F.SYS_STATE_MODE ≠ 2 ∧ m.commit.wantReload = 3) ∧
    (let m := checker 1 [(F.CFG_CRC_CTRL_ACTION, 2), (F.CFG_COMMIT_STATUS_STATE, 2)] true
     m.get F.CFG_COMMIT_STATUS_STATE ≠ 0 ∧ m.get F.CFG_COMMIT_STATUS_APPLIED = 0 ∧ m.commit.reload = false) ∧
    (({ run0.commit with wantReload := 1 } : Commit).wantReload ≠ 0 ∧ run0.get F.CFG_COMMIT_STATUS_STATE = 0) ∧ run0.commit.wantReload = 0 ∧
    (let m := checker 1 [(F.CFG_CRC_CTRL_ACTION, 2)] false
     m.fabricUp = true ∧ m.get F.CFG_COMMIT_STATUS_STATE = 0 ∧ m.get F.CFG_CRC_CTRL_ACTION = 2 ∧ m.commit.reloaded = false ∧ m.commit.reload = false) := by decide +kernel

theorem checker_ref (d : Nat) (l : List (Fld × Nat)) (r : Bool) : (checker d l r).commit.ref = configCrc (checker d l r).regs.act + d := by
  unfold checker; rfl

theorem apart {a b d : Nat} (h : b = a + d) : (d = 0 → a = b) ∧ (d ≠ 0 → a ≠ b) := by omega

theorem witness_ConfigChecker_crc : configCrc (checker 0 [] false).regs.act = (checker 0 [] false).commit.ref ∧
    configCrc (checker 1 [] true).regs.act ≠ (checker 1 [] true).commit.ref ∧
    configCrc (checker 1 [(F.CFG_CRC_CTRL_ACTION, 2)] false).regs.act ≠ (checker 1 [(F.CFG_CRC_CTRL_ACTION, 2)] false).commit.ref :=
  ⟨(apart (checker_ref 0 [] false)).1 rfl, (apart (checker_ref 1 [] true)).2 (by decide), (apart (checker_ref 1 [(F.CFG_CRC_CTRL_ACTION, 2)] false)).2 (by decide)⟩

def otpOf (l : List KeySlot) : NonVol := { otp := { keys := l } }
def slotRun : Mach := { run0 with boot := { run0.boot with slot := 1, image := some ⟨1, 1, 1, 1, true, true, 1, 1, true, [], 1, 1, 1, 1, 1, 1, 1⟩ } }

/-- Session slot 5 is open and not secure. -/
def opened5 : Mach := sets [(F.REC_SESS_STATE_STATE 5, 2)] run0

theorem witness_KeysAndImages :
    (run0.pwr.supply = true ∧ (run0.accessOf .supervisor false).secure = true ∧ run0.fabricUp = true) ∧
    (readImage [(slotBase 1, 0x4D), (slotBase 1 + 1, 0x4C), (slotBase 1 + 2, 0x4E), (slotBase 1 + 3, 0x49)] (1 - run0.boot.slot)).isSome = true ∧
    (let nv := otpOf [{ hash := some 5 }, {}, {}, { hash := some 7, revoked := true }]
     nv.otp.keys[0]? = some { hash := some 5 } ∧ (nv.otp.keys.filter KeySlot.live).length = 1) ∧
    (let nv := otpOf [{}, {}, { hash := some 6 }, { hash := some 7 }]
     nv.otp.keys[3]? = some { hash := some 7 } ∧ (nv.otp.keys.filter KeySlot.live).length ≠ 1 ∧ nv.otp.keys[0]? = some { hash := none } ∧ ({ hash := none } : KeySlot).hash.isSome = false) ∧
    0xFFFF < 0x10000 ∧
    (slotRun.boot.image.isSome = true ∧ slotBase slotRun.boot.slot ≤ slotBase 1 + slotBytes - 1 ∧ slotBase 1 + slotBytes - 1 < slotBase slotRun.boot.slot + slotBytes) ∧
    (0x1FEFFFC < 0x1FF0000 ∧ slotBase run0.boot.slot + slotBytes ≤ 0x1FEFFFC ∧ 0x10000 < slotBase slotRun.boot.slot) ∧
    (let m := sets [(F.SYS_STATE_MODE, 3)] run0
     m.pwr.supply = true ∧ m.fabricUp = true ∧ m.get F.SYS_STATE_MODE = 3 ∧ (otpOf [{}, {}, {}, {}]).otp.keys[3]? = some ({} : KeySlot)) ∧
    run0.get F.SYS_STATE_MODE ≠ 3 ∧ (opened5.heard (.session 5) = true ∧ opened5.pwr.supply = true ∧ (opened5.accessOf (.session 5) false).secure = false) ∧
    (∀ n < 64, (run0.slot n).streams.any (fun t => t.typ == 10) = false) := by decide +kernel

theorem witness_MgmtFrames :
    (3 ≤ (asleep 4).get F.SYS_PWR_STATE_PSTATE ∧ (asleep 4).pwr.waking = none ∧ addressesCore (frameAddr 0x00 0x40000 0) = true ∧ (asleep 4).mgmt.serving = true) ∧
    (0 < ({ bytes := 3, accessed := 0 } : FrameCut).bytes ∧ opOf 0x41 = 1 ∧ protError 0x41 3 = true ∧ ({ bytes := 0, accessed := 0 } : FrameCut).bytes = 0 ∧ opOf 0x80 = 2) ∧
    (run0.mgmt.serving = true ∧ opOf 0x01 = 0 ∧ protError 0x01 3 = true) ∧ opOf 0xC0 = 3 ∧
    (opOf 0x00 = 0 ∧ protError 0x00 (BitVec.ofNat 32 F.CLK_TRIM_MAN.addr) = false ∧ (0x00 : Byte).toNat % 16 = 0) ∧
    (opOf 0x40 = 1 ∧ protError 0x40 1 = true) ∧ (protError 0x41 0x30010 = false ∧ ([7] : List Word).length < (0x41 : Byte).toNat % 16 + 1) ∧
    (let m := sets [(F.SYS_MGMT_CTRL_CRC_EN, 1)] run0
     m.on F.SYS_MGMT_CTRL_CRC_EN = true ∧ protError 0x40 0x30010 = false ∧
     (5 : Byte) ≠ BitVec.ofNat 8 (crc8 (0x40 :: beBytes 4 (0x30010 : Word).toNat ++ ([7] : List Word).flatMap fun w => beBytes 4 w.toNat))) ∧
    ((0x40 : Byte).toNat % 16 = 0 ∧ run0.on F.SYS_MGMT_CTRL_CRC_EN = false) := by decide +kernel

/-- A register in whose row every field has the access `x`, which an address reaches directly. -/
def plainReg (a : Nat) (x : FieldSpec → Bool) : Bool :=
  decide (targetOf a = .reg a) && unifyMc a == a && (findRow a).any fun r => r.fields.all x && !r.fields.isEmpty

theorem witness_RegisterWrites :
    plainReg F.CLK_TRIM_MAN.addr (fun f => f.acc == .rws) = true ∧ F.CLK_TRIM_MAN.addr < 0x40000 ∧
    (((findRow F.CLK_TRIM_MAN.addr).bind fun r => r.fields.head?).any fun f => f.lsb == 0 && f.msb == 31) = true ∧
    ([0x0C00004, 0x0FC0010, 0x0E00008].all fun a => a % 4 == 0 && isTable a && tableWritable a) = true ∧ (run0.accessOf .supervisor false).secure = true ∧
    run0.get F.EVT_PEND < 2 ^ 32 ∧ bitOf (1 : Word).toNat 0 = true ∧ run0.pwr.supply = true ∧ run0.fabricUp = true ∧
    (let m := { run0 with evt := { run0.evt with pulsing := 8, pulseAt := [(3, 4999000000)] } }
     bitOf m.evt.pulsing 3 = true ∧ bitOf (m.get F.EVT_OUT_CTRL_LEVEL) 3 = false) := by decide +kernel

theorem witness_RegisterWrites_access : MayAccess run0 .supervisor F.CLK_TRIM_MAN.addr ∧ MayAccess run0 .supervisor F.EVT_PEND.addr ∧
    MayAccess run0 .supervisor F.EVT_LOG_POP_POP.addr := ⟨may _ _ (by decide +kernel), may _ _ (by decide +kernel), may _ _ (by decide +kernel)⟩

theorem witness_RegisterReads :
    plainReg F.SYS_ACC_ERR_CNT_COUNT.addr (fun f => f.acc == .rc) = true ∧ run0.latched F.SYS_ACC_ERR_CNT_COUNT.addr = none ∧ run0.clk.coarse < 2 ^ 48 ∧
    run0.latchOf (run0.accessOf .supervisor false) F.SYS_DEVTIME_LO_DEVTIME.addr < 2 ^ F.SYS_DEVTIME_HI_DEVTIME.width ∧
    run0.latchOf (run0.accessOf .supervisor false) F.TIS_COARSE_LO_COARSE.addr < 2 ^ F.TIS_COARSE_HI_COARSE.width ∧
    plainReg F.CLK_TRIM_MAN.addr (fun f => f.acc == .rws && decide (run0.get (fieldAt F.CLK_TRIM_MAN.addr f) < 2 ^ (f.msb - f.lsb + 1)) &&
      decide (run0.shadow (fieldAt F.CLK_TRIM_MAN.addr f) < 2 ^ (f.msb - f.lsb + 1))) = true := by decide +kernel

theorem witness_RegisterReads_access : MayAccess run0 .supervisor F.SYS_ACC_ERR_CNT_COUNT.addr ∧ MayAccess run0 .supervisor F.SYS_DEVTIME_LO_DEVTIME.addr ∧
    MayAccess run0 .supervisor F.TIS_COARSE_LO_COARSE.addr ∧ MayAccess run0 .supervisor F.SYS_DEVTIME_HI_DEVTIME.addr ∧
    MayAccess run0 .supervisor F.TIS_COARSE_HI_COARSE.addr :=
  ⟨may _ _ (by decide +kernel), may _ _ (by decide +kernel), may _ _ (by decide +kernel), may _ _ (by decide +kernel), may _ _ (by decide +kernel)⟩

theorem witness_AccessesRefused : run0.pwr.supply = true ∧ targetOf 0x3FFFFFC = .unmapped ∧ (targetOf F.SYS_RESET_KEY.addr = .reg F.SYS_RESET_KEY.addr ∧
    guardedAt F.SYS_RESET_KEY.addr = true ∧ opened5.pwr.supply = true ∧ opened5.heard (.session 5) = true ∧ (opened5.accessOf (.session 5) false).secure = false) ∧
    run0.heard .supervisor = true ∧ run0.heard (.session 5) = false ∧ run0.get F.SYS_ACC_ERR_CNT_COUNT = 0 ∧
    run0.get F.SYS_VIOL_CNT_COUNT = 0 := by decide +kernel

/-! ### Witnesses: clocks, the interval stamper, the Escapement, the front ends -/

def onXo1 : Mach := sets [(F.CLK_XO_STATUS_ACTIVE, 1)] run0
def disagreeing (n st : Nat) : Mach := let m := sets [(F.CLK_REG_STATUS_STATE, st)] run0; { m with clk := { m.clk with disagree := n } }

theorem witness_Crystals :
    (run0.pwr.supply = true ∧ run0.on F.CLK_XO_STATUS_XO0_OK = true ∧ run0.on F.CLK_XO_STATUS_XO1_OK = true ∧ run0.get F.CLK_XO_STATUS_ACTIVE = 0) ∧
    (onXo1.on F.CLK_XO_STATUS_XO0_OK = true ∧ onXo1.get F.CLK_XO_STATUS_ACTIVE = 1) ∧ run0.fabricUp = true ∧ (-20000000 : Int).natAbs ≤ 20000000 ∧
    20000000 < (-20000001 : Int).natAbs ∧ (disagreeing 0 0).clk.disagree = 0 ∧
    ((disagreeing 1 1).clk.disagree = 1 ∧ (disagreeing 1 1).get F.CLK_REG_STATUS_STATE ≠ 2) ∧
    (1 ≤ (disagreeing 1 2).clk.disagree ∧ (disagreeing 1 2).get F.CLK_REG_STATUS_STATE = 2) ∧ (run0.alive = true ∧ run0.pwr.supply = true ∧ .crystals ∉ run0.pwr.holds) ∧
    bitOf (1 : Word).toNat 0 = true ∧ (sets [(F.CLK_XO_STATUS_XO0_OK, 0)] onXo1).on F.CLK_XO_STATUS_XO0_OK = false := by decide +kernel

theorem witness_Crystals_access : MayAccess run0 .supervisor F.CLK_XO_CTRL_RETURN.addr ∧ MayAccess onXo1 .supervisor F.CLK_XO_CTRL_RETURN.addr :=
  ⟨may _ _ (by decide +kernel), may _ _ (by decide +kernel)⟩

/-- A Regulator in a state on a source, with some sources qualified. -/
def regul (st src : Nat) (qual : List (Nat × Nat)) (good : Nat) (r : Regul) : Mach :=
  let m := sets [(F.CLK_REG_STATUS_STATE, st), (F.CLK_REG_STATUS_SRC, src), (F.CLK_REG_CTRL_AUTO, 1), (F.CLK_REG_SRC_SRC, 0x09080D0C)] run0
  { m with clk := { m.clk with qual := qual, refGood := good, reg := r } }

theorem witness_Regulator :
    (run0.fabricUp = true ∧ run0.get F.CLK_REG_STATUS_STATE = 0 ∧ run0.get F.CAL_XO_TRIM_TRIM = 0) ∧
    (let m := regul 1 4 [(4, 100)] 9 { edge0 := some 5, edge := some (3, 3686400000005) }
     m.fabricUp = true ∧ m.get F.CLK_REG_STATUS_STATE = 1 ∧ m.get F.CLK_REG_STATUS_SRC = 4 ∧ m.clk.reg.edge0 = some 5 ∧ m.clk.reg.edge = some (3, 3686400000005) ∧
     -trimMax ≤ m.trim ∧ m.trim ≤ trimMax ∧ m.clk.reg.off = none ∧ (∀ n ∈ m.regSources, n = 4 ∨ m.qualified n = false) ∧ m.clk.refGood = 9) ∧
    (let m := { regul 2 1 [(1, 50)] 0 {} with ptp := { clocks := [(1, { last := some 700 })] } }
     m.fabricUp = true ∧ m.get F.CLK_REG_STATUS_STATE = 2 ∧ m.get F.CLK_REG_STATUS_SRC ≤ 3 ∧ m.phaseErr.isSome = true ∧ -trimMax ≤ m.trim ∧ m.trim ≤ trimMax) ∧
    ((regul 2 1 [(1, 50)] 0 {}).phaseErr = none ∧ (regul 2 1 [(1, 50)] 0 {}).get F.CLK_REG_STATUS_SRC ≤ 3) ∧
    ((regul 1 4 [(4, 100)] 0 {}).get F.CLK_REG_STATUS_STATE = 1 ∧ (regul 1 4 [(4, 100)] 0 {}).phaseErr = none) ∧
    ((regul 3 7 [] 0 {}).get F.CLK_REG_STATUS_STATE = 3 ∧ -trimMax ≤ (regul 3 7 [] 0 {}).trim ∧ (regul 3 7 [] 0 {}).trim ≤ trimMax) ∧
    (let m := regul 2 5 [(4, 100), (5, 200), (1, 50)] 8 {}; let m := { m with clk := { m.clk with dev := 70000000000 } }
     m.get F.CLK_REG_STATUS_STATE = 2 ∧ (m.regSources.filter fun k => k != 5 && m.qualified k).head? = some 4 ∧ 7 ≠ m.get F.CLK_REG_STATUS_SRC ∧
     m.on F.CLK_REG_CTRL_AUTO = true ∧ (m.clk.qual.find? fun k => k.1 == 4) = some (4, 100) ∧ m.sourceRank 4 < m.sourceRank 5 ∧
     (m.reachNs (100 + 60000000000)).regSources.find? (m.reachNs (100 + 60000000000)).proven = some 4 ∧
     m.clk.refGood < 9 ∧ m.qualified 0 = false ∧ m.sourceRank 5 ≤ m.sourceRank 1) ∧
    (-20000 : Int).natAbs ≤ 20000 ∧ run0.get F.CLK_REG_STATUS_SRC ≠ 5 ∧ run0.get F.CLK_REG_STATUS_STATE ≠ 2 ∧ bitOf (1 : Word).toNat 0 = true := by decide +kernel

theorem witness_Regulator_access : MayAccess run0 .supervisor F.CLK_AGE_CLEAR_CLEAR.addr := may _ _ (by decide +kernel)

/-- PPS_OUT on a source, high or low. -/
def pulsing (src : Nat) (high : Bool) : Mach :=
  let m := sets [(F.CLK_DOM_CTRL_EN 3, 1)] run0; { m with pwr := { m.pwr with ppsSrc := src, ppsOut := high, ppsEnd := 5009000000 } }

theorem witness_DomainClocks :
    (run0.clk.doms[3]?).isSome = true ∧ (sets [(F.PTP_OC_STATUS_STATE 3, 2)] run0).ocState 3 = 2 ∧ run0.ocState 0 ≠ 2 ∧ run0.pwr.ppsSrc ≠ 3 + 1 ∧ run0.fabricUp = true ∧
    (let m := pulsing 5 false
     m.ppsRuns = true ∧ m.pwr.ppsSrc = 5 ∧ m.get F.CLK_PPS_OUT_DELAY_DELAY = 0 ∧ -trimMax ≤ m.trim ∧ m.trim ≤ trimMax ∧ m.clk.frac < 2 ^ 32 ∧
     m.ppsNext * 10 ^ 9 + 2 < 2 ^ 64 ∧ m.pwr.ppsOut = false) ∧
    (pulsing 4 true).ppsRuns = true ∧ (pulsing 4 true).pwr.ppsOut = true ∧ (pulsing 0 false).ppsRuns = false ∧ (pulsing 3 false).ppsRuns = false := by decide +kernel

theorem witness_DomainClocks_access : MayAccess run0 .supervisor (F.CLK_DOM_STEP_STEP 3).addr ∧ MayAccess run0 .supervisor (F.CLK_DOM_SET_SEC_SEC 3).addr :=
  ⟨may _ _ (by decide +kernel), may _ _ (by decide +kernel)⟩

def stamper : Mach :=
  let m := sets [(F.TIS_CTRL_EN, 63), (F.TIS_CTRL_EN_A, 1), (F.TIS_CTRL_EN_B, 1)] run0
  { m with tis := { m.tis with inputs := [(3, { last := some ⟨700000, 10, true⟩, fifo := List.replicate 16 ⟨5, 3, false⟩ })] } }

/-- The dead time at its boundary: 3,071 LSB after the last stamp is dead, 3,072 is not. -/
theorem witness_Stamps :
    (stamper.fabricUp = true ∧ run0.tisEnabled 7 = false ∧ true ≠ stamper.tisFalls 3 ∧ false = stamper.tisFalls 3 ∧ false = stamper.tisFalls 7) ∧
    (stamper.tisEnabled 3 = true ∧ (⟨700003, 9, false⟩ : Stamp).lsb < (⟨700000, 10, true⟩ : Stamp).lsb + 3072) ∧
    ((⟨700000, 10, true⟩ : Stamp).lsb + 3072 ≤ (⟨700003, 10, false⟩ : Stamp).lsb ∧ (mapGet {} stamper.tis.inputs 3).last = some ⟨700000, 10, true⟩) ∧
    (stamper.tisEnabled 7 = true ∧ (mapGet {} stamper.tis.inputs 7).last = none) ∧ bitOf (1 : Word).toNat 0 = true ∧ stamper.clk.coarse < 2 ^ 48 := by decide +kernel

theorem witness_Stamps_access : MayAccess stamper .supervisor (F.TIS_POP 7).addr := may _ _ (by decide +kernel)

def fitted : FreqUnit := { edges := 9, m := 3, t0 := 5, st := 3 * 1228800, skt := 5 * 1228800, stt := 5 * 1228800 * 1228800 }
def timing : Mach :=
  let m := sets [(F.TIS_IU_CTRL_ARM 3, 1), (F.TIS_IU_CTRL_TIMEOUT 3, 1), (F.TIS_FU_CTRL_START 1, 1)] run0
  { m with tis := { m.tis with iu := [(3, { armAt := 4999123456 })], fu := [(1, fitted)] } }

theorem witness_IntervalAndFrequency :
    bitOf (0x800 : Word).toNat 11 = true ∧ bitOf (0x200000 : Word).toNat 21 = true ∧
    (timing.on (F.TIS_IU_CTRL_ARM 3) = true ∧ timing.get (F.TIS_IU_CTRL_TIMEOUT 3) ≠ 0) ∧
    timing.on (F.TIS_IU_CTRL_ARM 0) = false ∧ (timing.fabricUp = true ∧ timing.on (F.TIS_FU_CTRL_START 0) = false) ∧
    (timing.on (F.TIS_FU_CTRL_START 1) = true ∧ (mapGet {} timing.tis.fu 1).m = 3) ∧
    (let x := fitted; let b := 1228800
     0 < b ∧ 3 ≤ x.m ∧ 2 * x.st = b * (x.m * (x.m - 1) : Int) ∧ 6 * x.skt = b * ((x.m - 1) * x.m * (2 * x.m - 1) : Int) ∧
      6 * x.stt = b * b * ((x.m - 1) * x.m * (2 * x.m - 1) : Int)) ∧ ({} : FreqUnit).m < 3 := by decide +kernel

theorem witness_IntervalAndFrequency_access : MayAccess run0 .supervisor (F.TIS_IU_CTRL_ARM 3).addr ∧ MayAccess run0 .supervisor (F.TIS_FU_CTRL_START 1).addr :=
  ⟨may _ _ (by decide +kernel), may _ _ (by decide +kernel)⟩

def plan0 : PipeSet :=
  { n := 3, d := 2, range := 900, tl := 2000, g := 4, dly := 2, fill := 2, mant := 77, sh := 3, codec := 3, nb := 2, zones := [(3, 0, 100)],
    bands := [[1, 2, 3, 4, 5, 6], [1, 2, 3, 4, 5, 6], [1, 2, 3, 4, 5, 6]], phases := [0], flips := [0] }
def acq0 : Acq := { acqNo := 2, beat := 40, m := 120, k := 2, edge0 := 700000, tB := 5000000000, set := plan0, ended := false, drive := some { probe := ⟨1, 2, 3, 4, 5, 6⟩ } }
/-- Port A runs with an acquisition that `f` changes. -/
def acqRun (f : Acq → Acq) : Mach := { ports with acq := ⟨f acq0, {}⟩ }
def startAt (t : Option Nat) : Mach :=
  { sets (each [0, 1] F.ESC_CTRL_RUN 1) run0 with
    acq := ⟨{ acq0 with startAt := t, ended := true }, {}⟩, boot := { run0.boot with burned := true }, pwr := { run0.pwr with lightAt := some 5000000000 } }
/-- A warm reset drains while port A stands at its t_B, and port B runs or not. -/
def draining (other : Nat) : Mach := let m := sets [(F.ESC_STATUS_RUNNING 1, other)] (acqRun fun a => { a with k := 3 }); { m with pwr := { m.pwr with drain := some 4990000000 } }

/-- Port A at a t_B at which a commit of its domain waits, with RUN staged as `run`. -/
def beatCommit (run : Nat) : Mach :=
  let m := sets [(F.CFG_COMMIT_STATUS_STATE, 2), (F.CFG_EPOCH_PEND_EPOCH, 77)] (acqRun fun a => { a with k := 3 })
  { m with regs := { m.regs with staged := [((F.ESC_CTRL_RUN 0).key, run)] }, commit := { m.commit with mask := 2 ^ portIx .A } }

theorem witness_Beats_commit : ([0, 1].all fun run => let m := beatCommit run
    m.blocksRun .A && decide ((m.acqOf .A).set.n ≤ (m.acqOf .A).k) && (m.acqOf .A).resetWrite.isNone && decide (m.get F.SYS_STATE_MODE ≠ 2) && m.pendingIn (portIx .A) &&
    m.pwr.drain.isNone && decide (m.get F.CFG_COMMIT_STATUS_APPLIED = 0) && decide (m.commit.wantReload = 0) &&
    decide (mapGet 0 m.regs.staged (F.ESC_CTRL_RUN (portIx .A)).key = run)) = true := by decide +kernel

theorem witness_Beats :
    (let m := acqRun fun a => { a with k := 3 }
     m.fabricUp = true ∧ m.blocksRun .A = true ∧ (m.acqOf .A).set.n ≤ (m.acqOf .A).k ∧ (m.acqOf .A).resetWrite = none ∧ m.get F.SYS_STATE_MODE ≠ 2 ∧
     m.pendingIn (portIx .A) = false ∧ m.pwr.drain = none ∧ m.on (F.ESC_CTRL_RUN (portIx .A)) = true) ∧
    ((draining 1).pwr.drain.isSome = true ∧ (draining 1).blocksRun .A = true ∧ (draining 1).running (otherPort .A) = true) ∧
    ((draining 0).running (otherPort .A) = false ∧ (draining 0).pwr.holds = [] ∧ (draining 0).forming .A = false ∧ (draining 0).forming .B = false) ∧
    (let m := sets [(F.ESC_CTRL_RUN 0, 0)] (acqRun fun a => { a with k := 3 })
     m.blocksRun .A = true ∧ m.on (F.ESC_CTRL_RUN (portIx .A)) = false) ∧
    (run0.blocksRun .B = false ∧ ((acqRun id).acqOf .A).k < ((acqRun id).acqOf .A).set.n) ∧
    (let m := acqRun fun a => { a with restarting := some 900000 }
     (m.acqOf .A).restarting = some 900000 ∧ (m.acqOf .A).resetWrite = none ∧ m.get F.SYS_STATE_MODE ≠ 2 ∧ m.pwr.drain = none ∧ m.pendingIn (portIx .A) = false ∧
     m.on (F.ESC_CTRL_RUN (portIx .A)) = true) ∧ ((acqRun id).acqOf .A).restarting = none ∧
    (let m := startAt (some 6000000000)
     m.pwr.phase = .running ∧ m.firstAt .A = some 6000000000 ∧ m.running .A = false ∧ m.pwr.drain = none ∧ m.pendingIn (portIx .A) = false ∧
     m.get F.SYS_STATE_MODE ≠ 2 ∧ m.on (F.ESC_CTRL_RUN (portIx .A)) = true) ∧ ((startAt none).firstAt .A = none ∧ (startAt none).boot.burned = true) := by decide +kernel

def windowRun (live stamp : Bool) (run : Nat) (bad : Bool) : Mach := acqRun fun a => { a with window := some ⟨119, 700000, 30, live, stamp⟩, missRun := run, lmonBad := bad }

theorem witness_Launches :
    (let m := acqRun id
     m.fabricUp = true ∧ m.blocksRun .A = true ∧ 2 = (m.acqOf .A).k ∧ 2 < (m.acqOf .A).set.n ∧ (m.acqOf .A).cut = false ∧ (m.acqOf .A).early = []) ∧
    (let m := acqRun fun a => { a with cut := true }
     m.blocksRun .A = true ∧ (m.acqOf .A).cut = true ∧ (!m.pwr.intlkN && m.on (F.ESC_INTLK_OVR_OVR 0) && !m.tripped .A && !m.on F.SYS_POWER_PFAIL) = false) ∧
    (run0.blocksRun .B = false ∧ 1 ≠ ((acqRun id).acqOf .A).k ∧ ((acqRun id).acqOf .A).set.n ≤ 3) ∧ ((acqRun id).acqOf .A).window = none ∧
    ((windowRun false false 3 false).acqOf .A).window = some ⟨119, 700000, 30, false, false⟩ ∧
    ((windowRun true true 3 false).acqOf .A).window = some ⟨119, 700000, 30, true, true⟩ ∧
    (let m := windowRun true false 15 false
     (m.acqOf .A).window = some ⟨119, 700000, 30, true, false⟩ ∧ (m.acqOf .A).lmonBad = false ∧ (m.acqOf .A).missRun = 15) := by decide +kernel

def cutOff : Mach := { run0 with pwr := { run0.pwr with intlkN := false, intlkCut := true } }
def trippedA : Mach := sets [(F.ESC_STATUS_TRIPPED 0, 1), (F.ESC_TRIP_TRIPPED 0, 1)] ports

theorem witness_Interlock :
    (run0.pwr.supply = true ∧ run0.pwr.intlkN = true) ∧ 100 ≤ 100 ∧ 49 < 50 ∧ (cutOff.pwr.supply = true ∧ cutOff.pwr.intlkN = false ∧ cutOff.pwr.intlkCut = true) ∧
    (let m := sets [(F.ESC_LIM_DUTY_DUTY_MAX 0, 2)] (acqRun id); let a := m.acqOf .A
     let past (x : Nat) : Bool := decide (65 * (m.get (F.ESC_LIM_DUTY_DUTY_MAX (portIx .A)) * 255 ^ 2 * 2 * (a.set.tl * a.set.n)) < 64 * 4096 * (m.beatEnergy .A + x))
     m.fabricUp = true ∧ m.running .A = true ∧ m.tripped .A = false ∧ past 386960 = true ∧ past 386959 = false) ∧ (trippedA.fabricUp = true ∧ trippedA.tripped .A = true) ∧
    bitOf (1 : Word).toNat 0 = true := by decide +kernel

theorem witness_Interlock_access : MayAccess trippedA .supervisor (F.ESC_TRIP_TRIPPED (portIx .A)).addr ∧ MayAccess run0 .supervisor (F.ESC_TRIP_TRIPPED (portIx .B)).addr :=
  ⟨may _ _ (by decide +kernel), may _ _ (by decide +kernel)⟩

/-- Port A's Raman path runs with 3 bins and frames of 100 shots. -/
def raman (l : List (Fld × Nat)) (r : Raman) : Mach :=
  { sets ([(F.AFE_RFE_CTRL_EN 0, 1), (F.AFE_RFE_NBIN_N_BIN 0, 3), (F.DTS_FRAME_SHOTS, 100)] ++ l) run0 with dts := ⟨r, {}⟩ }
def frame0 : RFrame := { shots := 99, sums := [(0, (5, 6)), (3, (7, 8))], tStart := some 3 }

theorem witness_RamanShots :
    run0.fabricUp = true ∧ [Port.A, Port.B].filter run0.inFrame = [] ∧
    (let m := raman [] { frame := frame0 }
     m.pwr.phase = .running ∧ m.get F.SYS_STATE_MODE ≠ 2 ∧ [Port.A, Port.B].filter m.inFrame = [.A] ∧ m.on F.DTS_STATUS_IDLING = false ∧ m.on (F.ESC_SW_STATUS_SETTLING 0) = false ∧
     (m.ramanOf .A).frame.shots < m.get F.DTS_FRAME_SHOTS ∧ ([100, 3, 0x7FF] : List Half).length = m.get (F.AFE_RFE_NBIN_N_BIN 0) ∧
     m.shotNext.isSome = true ∧ m.shotPermitted [.A] = true ∧ (∀ e, m.shotNext = some e → (m.reach e).apdSettling e = false) ∧ bitOf (0x7FF : Half).toNat 15 = false ∧ bitOf (0x7FF : Half).toNat 12 = false ∧ m.apdDown .A 0 = false ∧
     bitOf (m.get F.ADC_RAMAN_MAP_FAIL) (4 * 0 + 2 % 2) = false) ∧
    (let r : Mach := raman [] { frame := frame0 }; let m := { r with pwr := { r.pwr with intlkN := false, intlkCut := true }, acq := ⟨{ r.acq.a with cut := true }, { r.acq.b with cut := true }⟩ }
     m.pwr.phase = .running ∧ [Port.A, Port.B].filter m.inFrame = [.A] ∧ m.shotPermitted [.A] = false) ∧
    (let m := raman [(F.AFE_APD_STATUS_SETTLING 0, 1)] { frame := frame0, biasEnd := 10 ^ 13 }
     m.shotPermitted [.A] = true ∧ ∀ e, m.shotNext = some e → (m.reach e).apdSettling e = true) ∧
    (sets [(F.ESC_SW_STATUS_SETTLING 0, 1)] run0).get (F.ESC_SW_STATUS_SETTLING 0) = 1 := by decide +kernel

/-- The table entry of a fibre: 7 output bins from bin 3, references of bins 10 to 13 and 18 to 20 at fixed temperatures, a loop of 30 bins. -/
def entry0 (mode nref : Nat) : List Byte :=
  [BitVec.ofNat 8 mode, 1, BitVec.ofNat 8 nref, 0] ++ leBytes 4 3 ++ leBytes 4 7 ++ leBytes 4 80000 ++ leBytes 4 30 ++ (leBytes 4 10 ++ leBytes 2 4 ++ [0, 0]) ++
    (leBytes 4 18 ++ leBytes 2 3 ++ [1, 0]) ++ leBytes 4 293670 ++ leBytes 4 280000 ++ leBytes 4 5 ++ List.replicate 16 0
/-- A closed frame of a MODE: 40 bins of both channels, the dark level in bin 0. -/
def closed (mode nref : Nat) : RFrame :=
  { frame0 with
    shots := 100, sums := (List.range 40).flatMap fun j => [(2 * j, (9000 * (j + 1), 9)), (2 * j + 1, (1350 * (j + 1), 9))], fibre := 1
    refs := [some 300000, some 270000]
    set := { entry := entry0 mode nref, gamma := 633500, ng := 394109747, z0 := 4, minFrac := 20, binK := 12, shots := 100, darkN := 1, darkF := 0 } }
def darkOf (f : RFrame) : Rat × Rat := ((f.dark 0).getD 0, (f.dark 1).getD 0)

theorem witness_RamanFrames :
    (run0.fabricUp = true ∧ run0.inFrame .A = false ∧ (raman [] { frame := frame0 }).inFrame .A = true ∧
      ((raman [] { frame := frame0 }).ramanOf .A).frame.shots < (raman [] { frame := frame0 }).get F.DTS_FRAME_SHOTS ∧ ((raman [] {}).ramanOf .A).frame.shots = 0) ∧
    (let m := raman [] { frame := { frame0 with shots := 100 } }
     m.inFrame .A = true ∧ m.get F.DTS_FRAME_SHOTS ≤ (m.ramanOf .A).frame.shots ∧ 0 < (m.ramanOf .A).frame.shots ∧ m.pendingIn (2 + portIx .A) = false ∧
     (m.ramanOf .A).closed = none) ∧
    (∀ mode < 6, (closed mode 2).set.fld 0 1 = mode) ∧ ((raman [] { idle := true }).ramanOf .A).idle = true ∧ ((raman [] {}).ramanOf .A).idle = false ∧
    (((raman [] { closed := some (closed 4 2) }).ramanOf .A).closed = some (closed 4 2) ∧ ((raman [] { closed := some (closed 4 2) }).ramanOf .A).fwd = none) := by
  decide +kernel

/-- The values of profiles: dark levels, references good, bins valid and out of the loop, and a pair that is no pair. -/
theorem witness_RamanFrames_profiles :
    (let f := closed 2 2; let d := darkOf f
     (f.dark 0).isSome = true ∧ (f.dark 1).isSome = true ∧
     ([0, 1].all fun k => decide (k < f.set.fld 2 1) && (f.refTemp k).any (· != 0) && (ratioOf (f.set.refBins k) (f.valid d)).isSome) = true ∧ f.set.zRef 1 ≠ f.set.zRef 0) ∧
    (let f := closed 1 1; let d := darkOf f
     0 < f.set.fld 2 1 ∧ (f.refTemp 0).any (· != 0) = true ∧ (ratioOf (f.set.refBins 0) (f.valid d)).isSome = true ∧ (f.lnR d 5).isSome = true) ∧
    (let g := closed 3 1; let f := closed 4 1; let r := ((raman [] { closed := some f, fwd := some g }).ramanOf .A)
     r.fwd = some g ∧ r.closed = some f ∧ f.set.fld 0 1 = 4 ∧ g.epoch = f.epoch ∧ g.part = f.part ∧ g.set.fld 1 1 = f.fibre ∧ (g.dark 0).isSome = true ∧ (g.dark 1).isSome = true ∧
     (f.dark 0).isSome = true ∧ (f.dark 1).isSome = true ∧ 5 ≤ g.set.fld 16 4 ∧ g.set.fld 16 4 < 31 ∧ (g.lnR (darkOf g) 5).isSome = true ∧
     (f.lnR (darkOf f) (g.set.fld 16 4 - 5)).isSome = true ∧ g.valid (darkOf g) 0 = none ∧ { g with epoch := 8 }.epoch ≠ f.epoch) := by decide +kernel

/-- Port A's X ranger at a gain, with H = 4. -/
def ranging (g : Nat) (r : Ranger) : Mach := sets [(gainFld .A .X, g), (F.AFE_CFE_CTRL_H 0, 4)] { ports with cfe := ⟨{ x := r }, {}⟩ }
def block (w : Half) : List Half := w :: List.replicate 31 0
/-- A port whose block lies in a gap with its slices powered down. -/
def gatedDown : Mach :=
  let m := ranging 3 {}; { m with acq := ⟨{ m.acq.a with log := { m.acq.a.log with gaps := [{ from_ := 0, to_ := 10 ^ 6, tB := 10 ^ 6, gate := true, wake := 10 ^ 6 }] } }, {}⟩ }

/-- The peaks at their boundaries: 1,793 steps down, 1,792 and 768 clear the count, 767 counts. -/
theorem witness_Rangers :
    (run0.fabricUp = true ∧ run0.blocksRun .A = false) ∧
    ((ranging 3 {}).blocksRun .A = true ∧ (ranging 3 {}).wideband .A = false ∧ (block 0x7FF).any sampleClamp = false ∧
      (ranging 3 {}).on (F.AFE_CFE_CTRL_FIXED 0) = false ∧ ((ranging 3 {}).ranger .A .X).next = none ∧ ((ranging 3 {}).ranger .A .X).hold = 0 ∧
      (ranging 3 {}).get (gainFld .A .X) ≠ 0 ∧ ((ranging 3 {}).ranger .A .X).clI = 0 ∧ ((ranging 3 {}).ranger .A .X).clQ = 0 ∧ (ranging 3 {}).blockDown .A 0 = false) ∧
    (((block 0x8000).take 16).any sampleClamp = true ∧ (ranging 3 {}).get (F.AFE_CFE_CLAMP_CNT_BYTES 0) < 2 ^ 32) ∧
    (sets [(F.AFE_CFE_CTRL_FIXED 0, 1)] (ranging 3 {})).on (F.AFE_CFE_CTRL_FIXED 0) = true ∧ ((ranging 3 { hold := 1 }).ranger .A .X).hold ≠ 0 ∧
    (blockSaturated (block 0x800) = true ∧ blockSaturated (block 0x7FF) = true ∧ blockSaturated (block 1793) = false ∧ 1792 < blockPeak (block 1793) ∧
      blockPeak (block 1792) ≤ 1792 ∧ 768 ≤ blockPeak (block 768) ∧ blockPeak (block 767) < 768 ∧ blockSaturated (block 767) = false) ∧
    (((ranging 3 { hold := 5, next := some 1 }).ranger .A .X).next = some 1 ∧ ((ranging 3 { hold := 5, next := some 1 }).ranger .A .X).hold ≠ 0) ∧
    (let m := ranging 2 { low := 4, blk := 7 }
     m.blocksRun .A = true ∧ (m.ranger .A .X).hold = 0 ∧ m.get (gainFld .A .X) < 3 ∧ max (m.get (F.AFE_CFE_CTRL_H 0)) 1 ≤ (m.ranger .A .X).low ∧ 0 < (m.ranger .A .X).blk) ∧
    (gatedDown.blocksRun .A = true ∧ (gatedDown.ranger .A .X).hold = 0 ∧ gatedDown.blockDown .A (gatedDown.ranger .A .X).blk = true) ∧
    ((ranging 2 { low := 3 }).ranger .A .X).low < max ((ranging 2 { low := 3 }).get (F.AFE_CFE_CTRL_H 0)) 1 := by decide +kernel

def inputs (fault : Nat) : Mach := sets [(F.AFE_CFE_CM_MON_EN 0, 15), (F.AFE_CFE_CM_CM_LO 0, 100), (F.AFE_CFE_CM_CM_HI 0, 120), (F.AFE_CFE_STATUS_CM_FAULT 0, fault), (F.AFE_APD_STATUS_LIMIT 0, 1), (F.AFE_APD_CTRL_MODE 3, 2)] ports

theorem witness_InputFaults :
    (let m := inputs 7
     m.fabricUp = true ∧ m.blocksRun .A = true ∧ 3 < (if m.wideband .A then 2 else 4) ∧ bitOf (m.get (F.AFE_CFE_CM_MON_EN 0)) 3 = true ∧
     bitOf (m.get (F.AFE_CFE_STATUS_CM_FAULT 0)) 3 = false ∧ m.get (F.AFE_CFE_STATUS_CM_FAULT 0) < 16 ∧ bitOf (m.get (F.AFE_CFE_STATUS_CM_FAULT 0)) 0 = true ∧
     m.on (F.AFE_APD_STATUS_LIMIT 3) = false ∧ m.get (F.AFE_APD_CTRL_MODE 3) ≠ 0 ∧ m.on (F.AFE_APD_STATUS_LIMIT 1) = false ∧ m.get (F.AFE_APD_CTRL_MODE 1) = 0 ∧
     m.on (F.AFE_APD_STATUS_LIMIT 0) = true ∧ (m.cfe.at .A).since.length = 4 ∧ (999 : Int) < 10 * m.get (F.AFE_CFE_CM_CM_LO 0) ∧
     (10 * m.get (F.AFE_CFE_CM_CM_HI 0) : Int) < 1201 ∧ ¬ ((1000 : Int) < 10 * m.get (F.AFE_CFE_CM_CM_LO 0) ∨ (10 * m.get (F.AFE_CFE_CM_CM_HI 0) : Int) < 1000)) ∧
    ((sets [(F.AFE_APD_STATUS_SETTLING 1, 1)] run0).biasSettling .A = true ∧ run0.biasSettling .A = false) ∧
    bitOf (ports.get (F.AFE_CFE_CM_MON_EN 0)) 0 = false ∧ 64 ≤ ({ satST := 64 } : Raman).satST ∧ ({ satAS := 63 } : Raman).satAS < 64 ∧
    bitOf (0x20000 : Word).toNat 17 = true := by decide +kernel

theorem witness_InputFaults_access : MayAccess (inputs 7) .supervisor (F.AFE_APD_STATUS_LIMIT 0).addr ∧ MayAccess (inputs 7) .supervisor (F.AFE_APD_STATUS_LIMIT 3).addr :=
  ⟨may _ _ (by decide +kernel), may _ _ (by decide +kernel)⟩

def scanning (h : Hkc) : Mach := { sets [(F.HKC_HKC_CTRL_SCAN_LEN, 4)] run0 with hkc := h }
/-- RTD 0, a Pt100, is enabled and is the present entry of the scan. -/
def rtdScan : Mach := sets [(F.HKC_SCAN_LIST_ENTRY 0, 0x16161616), (F.HKC_RTD_CTRL_RTD0, 1)] (scanning { pos := some 1 })

theorem witness_Housekeeping :
    (bankLe run0.regs.act forceBase 2 ≠ 1 ∧ ({ first := true } : Hkc).first = true ∧ (scanning {}).hkc.first = false ∧ (scanning {}).on F.HKC_STATUS_CAL_WAIT = false ∧
      (sets [(F.HKC_STATUS_CAL_WAIT, 1)] (scanning { inj := [3], before := 1 })).on F.HKC_STATUS_CAL_WAIT = true) ∧
    (rtdScan.scanEntry 1 = 22 + 0 ∧ ({ temp 0 with broke := true } : HkcConv).broke = true) ∧
    (run0.fabricUp = true ∧ run0.get F.HKC_HKC_CTRL_SCAN_LEN = 0) ∧
    ((scanning {}).get F.HKC_HKC_CTRL_SCAN_LEN ≠ 0 ∧ (scanning {}).on F.HKC_STATUS_CAL = false ∧ (scanning {}).hkc.pos = none) ∧
    (scanning { pos := some 3 }).hkc.pos ≠ none ∧
    ((scanning { inj := [31, 4] }).hkc.inj = 31 :: [4] ∧ 31 < 32 ∧ run0.get F.HKC_INJ_DONE_DONE < 2 ^ 32) ∧
    (let m := scanning { pos := some 2 }
     m.hkc.inj = [] ∧ m.hkc.pos = some 2 ∧ m.scanEntry 2 ≠ 22 ∧ m.scanEntry 2 ≠ 23 ∧ 2 + 1 < m.get F.HKC_HKC_CTRL_SCAN_LEN) ∧
    ((scanning { pos := some 3 }).get F.HKC_HKC_CTRL_SCAN_LEN ≤ 3 + 1 ∧ (scanning { pos := some 3 }).hkc.due = false) ∧
    (rtdScan.hkc.inj = [] ∧ rtdScan.hkc.pos = some 1 ∧ rtdScan.scanEntry 1 = 22 + 0 ∧ rtdScan.rtdEnabled 0 = true ∧ rtdScan.on (F.HKC_RAW_BREAK (22 + 0)) = false ∧
      (rtdScan.rtdTemp 0 ⟨0, 0, false, 1385, 5000⟩).isSome = true) ∧
    ((31 : Word).toNat % 32 ≠ 22 ∧ (31 : Word).toNat % 32 ≠ 23 ∧ (scanning { inj := [3, 22, 1] }).hkc.inj.length < 4) ∧ (23 : Word).toNat % 32 = 23 ∧
    4 ≤ (scanning { inj := [1, 2, 3, 4] }).hkc.inj.length := by decide +kernel

theorem witness_Housekeeping_access : MayAccess (scanning { inj := [1, 2, 3, 4] }) .supervisor F.HKC_INJ_REQ_CH.addr := may _ _ (by decide +kernel)

def span0 : LendSpan := { from_ := 1400000, to_ := 1408000, tB := 1412000, sub := 5, groups := [true, true, true, true] }
/-- Port A in its gap with a lending of position 5, and a Raman shot taken at `shot` of the TIS count with the next due later. -/
def lends (busy : Nat) (lent : Bool) (shot : Option Nat) : Mach :=
  let m := sets [(F.CAL_STATUS_DAC_BUSY, busy), (F.CAL_CTRL_BG_EN, 1), (F.CAL_CTRL_RBG_EN, 1), (F.AFE_RFE_CTRL_EN 0, 1), (F.AFE_RFE_NBIN_N_BIN 0, 3),
      (F.DTS_T_SHOT_CYCLES, 60000)]
    (acqRun fun a => { a with lending := lent, lent := lent, gaps := 5, log := { a.log with gaps := if lent then [span0] else [] } })
  { m with shotAt := shot }

theorem witness_Lending :
    (run0.fabricUp = true ∧ run0.blocksRun .A = false ∧ ((lends 0 true none).acqOf .A).lent = true) ∧
    ((lends 0 false none).blocksRun .A = true ∧ ((lends 0 false none).acqOf .A).lent = false ∧ (lends 1 false none).on F.CAL_STATUS_DAC_BUSY = true ∧
      (lends 0 false none).on F.CAL_STATUS_DAC_BUSY = false ∧
      2 * ((lends 0 false none).acqOf .A).t0 ≤ 2 * ((lends 0 false none).acqOf .A).nextEdge) ∧
    (((lends 0 true none).acqOf .A).lending = true ∧ ((lends 0 true none).acqOf .A).log.gaps = span0 :: [] ∧ ((lends 0 false none).acqOf .A).lending = false) ∧
    run0.measuring 5 = false ∧ (lends 0 true none).measuring 5 = true ∧ measCause 5 (-7) 3 false = 0 ∧ measCause 5 (-7) 3 true ≠ 0 ∧
    (lends 0 true none).on F.CAL_CTRL_BG_EN = true ∧ (sets [(F.CAL_CTRL_BG_EN, 0)] (lends 0 true none)).on F.CAL_CTRL_BG_EN = false ∧
    ((lends 0 true none).sliceRetired 5 = false ∧ ∀ f ∈ (lends 0 true none).adc.pend, f.slice ≠ 5) ∧
    (run0.on F.CAL_CTRL_RBG_EN = false ∧ (lends 0 false none).shotGap = none) ∧
    (let m := lends 0 false (some 777000)
     m.on F.CAL_CTRL_RBG_EN = true ∧ m.on F.CAL_STATUS_DAC_BUSY = false ∧ (m.shotGap.any fun x => decide (1200 ≤ x.2)) = true ∧ m.adc.rdone ≠ m.shotAt) ∧
    (let m := sets [(F.DTS_T_SHOT_CYCLES, 1000)] (lends 0 false (some 777000)); (m.shotGap.any fun x => decide (x.2 < 1200)) = true) := by decide +kernel

def auto (l : List SliceFault) : Mach := { sets [(F.ADC_SPARE_POLICY_AUTO, 1)] ports with adc := { pend := l } }

theorem witness_SliceFailures :
    (run0.fabricUp = true ∧ run0.sliceRetired 145 = false ∧ (∀ f ∈ run0.adc.pend, f.slice ≠ 145) ∧ run0.sliceOff 145 = false ∧ run0.on F.ADC_SPARE_POLICY_AUTO = false) ∧
    ({ sets [(F.ADC_CTRL_RGATE, 1), (F.AFE_RFE_CTRL_EN 0, 1), (F.AFE_RFE_NBIN_N_BIN 0, 3), (F.DTS_T_SHOT_CYCLES, 200000)] run0 with shotAt := some 700000 }.sliceOff 136 = true) ∧
    ¬ (∀ f ∈ (auto [⟨22, 1⟩]).adc.pend, f.slice ≠ 22) ∧
    (let m := auto []
     m.on F.ADC_SPARE_POLICY_AUTO = true ∧ m.sliceRetired 135 = false ∧ m.sliceOff 135 = false ∧ m.sliceOff 0 = false ∧ m.sparePos (135 / 17) = 31 ∧ 135 % 17 = 16 ∧ m.sparePos (0 / 17) = 31 ∧
     m.spareFree (0 / 17) = true ∧ (∀ f ∈ m.adc.pend, f.slice / 17 ≠ 135 / 17)) ∧
    ((0x5AFE0191 : Word).toNat % 256 = 145 ∧ bitsOf (0x5AFE0191 : Word).toNat 31 16 = 0x5AFE ∧ bitOf (0x5AFE0191 : Word).toNat 8 = true ∧
      bitsOf (0x5AFD0191 : Word).toNat 31 16 ≠ 0x5AFE) := by decide +kernel

theorem witness_SliceFailures_access : MayAccess run0 .supervisor F.ADC_SPARE_CTRL_KEY.addr ∧ MayAccess (auto []) .supervisor F.ADC_SPARE_CTRL_KEY.addr :=
  ⟨may _ _ (by decide +kernel), may _ _ (by decide +kernel)⟩

def beat0 (b : Nat) (wide : Bool) : RawBeat := ⟨1, b, 5, 6, wide, 0, 0, false, [], 0, 0, 3⟩
def window0 (n : Nat) : RawWin := { port := .B, start := 70, blocks := 3, beats := n, from_ := 6, taken := [beat0 4 true, beat0 5 false] }
/-- What the two beats of the window hold: four blocks each, of 16 samples of two and of four inputs. -/
def raws : List (List RawEntry) := [List.replicate 4 ⟨List.replicate 32 5⟩, List.replicate 4 ⟨List.replicate 64 5⟩]
def rawRuns : Mach :=
  let m := sets [(F.MC_RSV_SIZES_RAW_MIB, 100), (F.ADC_RAW_LEN_BLOCKS, 2), (F.ADC_RAW_START_START, 16)] ports
  { m with regs := { m.regs with act := [0, 1].foldl (fun b i => mapPut 0 b (32 * (planBase i + 8)) 500) m.regs.act } }

theorem witness_RawWindows :
    (bitOf (1 : Word).toNat 0 = true ∧ run0.rawRefusal (ixPort 0) (run0.get F.ADC_RAW_START_START) (run0.get F.ADC_RAW_LEN_BLOCKS) 0 ≠ 0) ∧
    (rawRuns.rawRefusal (ixPort (bitsOf (3 : Word).toNat 1 1)) (rawRuns.get F.ADC_RAW_START_START) (rawRuns.get F.ADC_RAW_LEN_BLOCKS) (bitsOf (3 : Word).toNat 15 8) = 0) ∧
    (run0.fabricUp = true ∧ run0.adc.raw = none) ∧ ports.rawMade (window0 3) = false ∧ (∀ ch < 2, (ports.mc ch).errs = [] ∧ (ports.mc ch).poison = []) ∧
    (ports.rawMade (window0 2) = true ∧ ports.rawMade { window0 3 with ended := true } = true ∧ raws.length = (window0 2).taken.length ∧ ∀ x ∈ (window0 2).taken.zip raws, rawFits (window0 2) x.1 x.2 = true) ∧
    (∃ x ∈ (window0 2).taken.zip (raws.map List.tail), rawFits (window0 2) x.1 x.2 = false) := by decide +kernel

theorem witness_RawWindows_access : MayAccess run0 .supervisor F.ADC_RAW_CTRL_GO.addr ∧ MayAccess rawRuns .supervisor F.ADC_RAW_CTRL_GO.addr :=
  ⟨may _ _ (by decide +kernel), may _ _ (by decide +kernel)⟩

def launch0 (formed : Nat) (dark : Bool) : Launch :=
  { acq := 2, m := 119, beat := 39, k := 2, edge := 699000, time := 4999999000, step := 0, set := plan0, trow := 30, formed := formed, dark := dark }
def forming (l : List Launch) : Mach := acqRun fun a => { a with launches := l }

theorem witness_PipeTicks :
    (run0.fabricUp = true ∧ (run0.acqOf .A).launches.find? (fun l => decide (l.formed < l.set.range)) = none) ∧
    (((forming [launch0 900 false]).acqOf .A).launches.find? (fun l => decide (l.formed < l.set.range)) = none) ∧
    (let l := launch0 899 false
     ((forming [l]).acqOf .A).launches.find? (fun l => decide (l.formed < l.set.range)) = some l ∧ 898 ≠ l.formed ∧
     (List.replicate (l.set.support l.k + 24) (⟨0, 0, 0, 0⟩ : PipeSample)).length = (if 899 < (l.set.g + 1) / 2 then 0 else l.set.support l.k + 24) ∧
     ([] : List PipeSample).length = (if l.set.range ≤ 899 + l.set.g / 2 then 0 else l.set.support l.k + 24)) ∧
    ((launch0 3 true).dark = true ∧ 3 + 1 < (launch0 3 true).set.range) := by decide +kernel

/-- A warm reset drains with both ports stopped, ticks of port A still to be formed or not; a plan restart of port A may have been in progress. -/
def lastTicks (l : List Launch) (restarting : Option Nat) : Mach :=
  let m := sets (each [0, 1] F.ESC_STATUS_RUNNING 0) (acqRun fun a => { a with launches := l, restarting := restarting })
  { m with pwr := { m.pwr with drain := some 4990000000 } }

theorem witness_Beats_drain :
    (let m := lastTicks [launch0 3 false] none
     m.fabricUp = true ∧ ¬ (m.pwr.drain = none ∨ m.running .A = true ∨ m.running .B = true) ∧ m.pwr.holds = [] ∧ m.forming .A = true ∧ m.blocksRun .A = false ∧
      (m.acqOf .A).restarting = none) ∧
    ((lastTicks [] none).forming .A = false ∧ (lastTicks [] none).forming .B = false) ∧ ((lastTicks [] (some 900000)).acqOf .A).restarting.isSome = true ∧
    (let m := { lastTicks [launch0 3 false] none with pwr := run0.pwr }
     m.running .A = false ∧ m.running .B = false ∧ m.alive = true ∧ m.pwr.drain = none ∧ m.forming .A = true) := by decide +kernel

/-- The samples of a support, all of one code, as the acquisition's log flags them. -/
def taken0 (m : Mach) (w : Half) : List Sample :=
  let l := launch0 899 false; (m.acqOf .A).log.samples .A l 897 (List.replicate (l.set.support l.k + 24) ⟨w, w, w, w⟩)
/-- Ticks 117 and 118 of cell 3 are held when that of the dark launch 119 is formed. -/
def holdTicks : Mach :=
  let k (n : Nat) : Launch := { launch0 900 false with m := n, set := { plan0 with fill := 2 } }
  acqRun fun a => { a with
    rows := [{ restart := 0, trow := 30, m0 := 117, ticks := 4 }], launches := [k 117, k 118, { k 119 with formed := 3, dark := true }]
    cells := [(0, [(3, { phi := 9, held := [{ acq := 2, m := 117, phi := 5, pair := 1, state := 0, seg := 0 }, { acq := 2, m := 118, phi := 70000, pair := 1, state := 2, seg := 0 }] })])] }

theorem witness_PipeTicks_values :
    (let m := forming [launch0 899 false]
     let bad := acqRun fun a => { a with launches := [launch0 899 false], log := { a.log with cmf := [⟨0, 0, none⟩] } }
     plan0.marks 2 (taken0 m 0) = ⟨false, false, false⟩ ∧ (plan0.marks 2 (taken0 m 0x8000)).overs = true ∧ (plan0.marks 2 (taken0 m 0x8000)).fault = false ∧
     (plan0.marks 2 (taken0 bad 0)).fault = true) ∧
    (let a := holdTicks.acqOf .A; let l : Launch := { launch0 3 true with set := { plan0 with fill := 2 } }
     let c := (a.cell l.gen 3).take l.set l (.invalid false false)
     a.launches.find? (fun x => decide (x.formed < x.set.range)) = some l ∧ 3 + 1 < l.set.range ∧ c.held.length = l.set.fill + 1 ∧ (a.cell l.gen 4).held.length ≤ l.set.fill ∧
     ((c.held.head?.bind fun h => a.launches.find? fun x => x.acq == h.acq && x.m == h.m).bind a.rowOf).isSome = true ∧ ∀ x ∈ a.rows, x.closed = false) := by decide +kernel

/-! ### Witnesses: the Train, zones, the Chronograph -/

def tile0 (p : Port) (row col : Nat) : Tile :=
  { id := ⟨p, 0, row, col⟩, cells := 300, ticks := 4, epoch := 5, m0 := 4 * row, beat := 4 * row, nsub := 1, tl := 1000, srLsb := 1, acq := 2, timeEnd := 100000,
    timeLast := 90000, lsbs := [700, 800, 900, 1000], nb := 2, segs := [(3, 0, 100)], codec := 3,
    set := { range := 300, nb := 2, zones := [(3, 0, 100)], zEn := true, zRows := 2, ovEn := true, ovBin := 4, ovRows := 2 }, vals := [(5, 77), (600, 65000)], quals := [(5, 1)], pool := 2 ^ 64 - 1, entry := 16, cycMax := 5000 }
/-- Engine 63 is `j`. -/
def engine (j : Jewel) : Mach := { run0 with train := { run0.train with jewels := [(63, j)] } }

/-- A bundle of two slots that goes on, and one that traps: a load of an odd address. -/
theorem witness_JewelWords : (run0.fabricUp = true ∧ 63 < 64 ∧ ((engine {}).jewel 63).openB = none ∧ ((engine {}).jewel 63).rdreg = none ∧ 7 < 8 ∧ 39 < 40 ∧ 18 < 19) ∧
    (let j := (engine { openB := some (setMac 1 (mac 1 7 3 4) nopBundle) }).jewel 63
     j.openB = some (setMac 1 (mac 1 7 3 4) nopBundle) ∧ j.rdreg = none ∧ (j.issue (setAlu ⟨0x01, 5, 6, 7, 0⟩ j.open)).2 = .goOn) ∧
    (let j := (engine { run := some (tile0 .A 1 0), p := [(2, 3)] }).jewel 63
     j.run = some (tile0 .A 1 0) ∧ j.rdreg = none ∧ (j.issue (setMem 1 (ptr 5 2 0 0) j.open)).2 = .trapped 2 0) ∧
    ((engine { rdreg := some (2, 0x30010) }).jewel 63).rdreg.isSome = true := by decide +kernel

/-- The engines of a running core on a cycle: one at the end of CYC_MAX in a stall, one past the program, one that waits for an RDREG, one in a stall, one that issues. -/
theorem witness_IdleTick_core :
    let t := tile0 .A 1 0
    let at' (j : Jewel) : Mach := engine { j with run := some t }
    (run0.fabricUp = true ∧ run0.pwr.entering = none ∧ (mapKeys (engine {}).train.jewels).Nodup ∧ ((engine {}).jewel 63).run = none) ∧
    (t.cycMax ≤ ((at' { cycles := 4999, stall := 1 }).jewel 63).cycles + 1 ∧ 0 < ((at' { cycles := 4999, stall := 1 }).jewel 63).stall) ∧
    (((at' { pc := 1024 }).jewel 63).rdreg = none ∧ ((at' { pc := 1024 }).jewel 63).stall = 0 ∧ 1023 < ((at' { pc := 1024 }).jewel 63).pc) ∧
    (((at' {}).jewel 63).cycles + 1 < t.cycMax ∧ ((at' { rdreg := some (2, 0) }).jewel 63).rdreg.isSome = true ∧ 0 < ((at' { stall := 2 }).jewel 63).stall) ∧
    (let j := { (at' {}).jewel 63 with cycles := ((at' {}).jewel 63).cycles + 1 }
     j.run = some t ∧ j.rdreg = none ∧ j.stall = 0 ∧ j.pc ≤ 1023 ∧ (j.issue (bundleAt j.imem j.pc)).2 = .goOn) := by decide +kernel

/-- The memory's areas at their boundaries (Table 11-2): the last byte, beyond it, the ends of the inputs and of the constants, and the reserved gap. -/
theorem witness_JewelMemory :
    (({} : Jewel).openB = none ∧ (4 : Nat) ≤ 4 ∧ 0x7FFC % 4 = 0 ∧ memReserved true 0x7FFC = false ∧ memReadOnly true 0x7FFC = false ∧ memReadOnly true 0x1800 = false) ∧
    (({ run := some (tile0 .A 1 0) } : Jewel).run = some (tile0 .A 1 0) ∧ 0x7FFF % 2 ≠ 0) ∧
    (0x8000 % 4 = 0 ∧ memReserved true 0x8000 = true ∧ memReserved true 0x1100 = true ∧ memReserved false 0x3FFC = true) ∧
    (0x5FFC % 4 = 0 ∧ memReserved true 0x5FFC = false ∧ memReadOnly true 0x5FFC = true ∧ memReadOnly true 0x6000 = false ∧ memReserved true 0x10FE = false ∧
      memReadOnly true 0x10FE = true ∧ memReadOnly false 0x1FFC = true) := by decide +kernel

theorem witness_JewelControl :
    (((engine { run := some (tile0 .A 1 0) }).jewel 63).run = some (tile0 .A 1 0) ∧ ((engine { run := some (tile0 .A 1 0) }).jewel 63).rdreg = none ∧
      ((engine { rdreg := some (2, 0x30010) }).jewel 63).rdreg.isSome = true ∧ 4 ≤ 4 ∧ 5 < 6 ∧ ({ loop := .armed 3 4 5 } : Jewel).rdreg = none) ∧
    (({} : Jewel).rd 5 = 0 ∧ ({ d := [(5, 0x80000000)] } : Jewel).rd 5 ≠ 0 ∧ (({ d := [(5, 0x80000000)] } : Jewel).rd 5).msb = true ∧ (({} : Jewel).rd 5).msb ≠ true) ∧
    (1023 ≤ 1023 ∧ ({} : Jewel).loop = .none ∧ ({ loop := .armed 3 4 5 } : Jewel).loop ≠ .none) ∧
    ((({ d := [(0, 512)] } : Jewel).rd 0).toNat % 1024 ≤ 512 ∧ 512 < (({ d := [(0, 513)] } : Jewel).rd 0).toNat % 1024) ∧ 18 < 19 ∧
    (({} : Jewel).rdreg = none ∧ ({ rdreg := some (2, 0x30010) } : Jewel).rdreg = some (2, 0x30010)) ∧
    (∀ i < 64, i ≠ 63 → ((engine { rdreg := some (2, 0x30010) }).jewel i).rdreg = none) := by decide +kernel

/-- A Train with every engine in the pool and both ports enabled. -/
def trainOf (f : Train → Train) : Mach :=
  let m := sets [(F.TRAIN_POOL_LO_POOL, 2 ^ 32 - 1), (F.TRAIN_POOL_HI_POOL, 2 ^ 32 - 1), (F.TRAIN_CTRL_EN_A, 1)] run0
  { m with train := f { m.train with ready := ⟨[tile0 .A 9 0], [tile0 .B 9 0]⟩ } }
def manyIds (n : Nat) : List TileId := (List.range n).map fun i => ⟨.A, 0, i, 0⟩

/-- The arrival queue at its boundary: 768 tiles in the buffer skip one, 767 do not. -/
theorem witness_TileQueues_arrival :
    (run0.fabricUp = true ∧ run0.train.ready.at .A = [] ∧ (trainOf id).train.ready.at .B = [tile0 .B 9 0] ∧ (trainOf id).on F.TRAIN_CTRL_EN_B = false) ∧
    ((trainOf id).on F.TRAIN_CTRL_EN_A = true ∧ 768 ≤ (trainOf fun t => { t with order := ⟨manyIds 768, []⟩ }).bufUsed ∧
      (trainOf fun t => { t with order := ⟨manyIds 767, []⟩ }).bufUsed < 768) ∧
    ((trainOf id).train.overload = false ∧ (trainOf fun t => { t with overload := true }).train.overload = true) ∧
    (let m := trainOf fun t => { t with rr := 127 }
     63 = m.train.rr % 64 ∧ m.train.arrival = [] ∧ m.mayRun 63 { tile0 .A 9 0 with pool := m.livePool } = true ∧ (m.jewel 63).next = none) ∧
    ((trainOf id).arrivalTurn .A = true ∧
      (let m := { trainOf (fun t => t) with train := { (trainOf id).train with ready := ⟨[tile0 .A 9 0], [{ tile0 .B 9 0 with timeEnd := 99999 }]⟩ } }
       (sets [(F.TRAIN_CTRL_EN_B, 1)] m).arrivalTurn .A = false)) ∧
    ((engine { next := some (tile0 .A 1 0) }).jewel 63).next.isSome = true := by decide +kernel

def stealing (t : Tile) (e : Nat) : Mach := trainOf fun x => { x with jewels := [(e, { run := some t, next := some t, wait := [t] })] }

theorem witness_TileQueues_engines :
    (∀ i, ((trainOf id).jewel i).wait = []) ∧
    (let j := (engine { next := some (tile0 .A 1 0), wait := [tile0 .A 1 1] }).jewel 63
     j.run = none ∧ j.next = some (tile0 .A 1 0) ∧ j.wait = [tile0 .A 1 1]) ∧ ((engine {}).jewel 63).next = none ∧
    (∀ i < 64, i ≠ 63 → ((engine {}).jewel i).wait = []) ∧
    (let m := stealing (tile0 .A 1 0) 62
     (m.jewel 62).wait = tile0 .A 1 0 :: [] ∧ (∀ i < 64, i ≠ 63 → (m.jewel i).wait.length ≤ (m.jewel 62).wait.length) ∧
     (∀ i < 62, i ≠ 63 → (m.jewel i).wait.length < (m.jewel 62).wait.length) ∧ (m.jewel 63).run = none ∧ (m.jewel 63).next = none ∧ (m.jewel 63).wait = [] ∧
     (m.jewel 63).stole = false ∧ (tile0 .A 1 0).moved = false ∧ m.mayRun 63 (tile0 .A 1 0) = true ∧ m.train.arrival = [] ∧ (m.jewel 62).next.isSome = true) ∧
    ({ tile0 .A 1 0 with moved := true }).moved = true := by
  refine ⟨fun i => ?_, by decide +kernel⟩
  rfl

theorem witness_EngineRetirement :
    (63 < 64 ∧ run0.fabricUp = true ∧ bitOf run0.retired 63 = false ∧ bitOf (sets [(F.TRAIN_RETIRED_HI_RETIRED, 2 ^ 31)] run0).retired 63 = true) ∧
    (bitsOf (0x5AFE007F : Word).toNat 31 16 = 0x5AFE ∧ bitOf (0x5AFE007F : Word).toNat 6 = true ∧ (0x5AFE007F : Word).toNat % 64 = 63) ∧
    (((engine { run := some (tile0 .A 1 0) }).jewel 63).run.isSome = true ∧ ((engine { run := some (tile0 .A 1 0) }).jewel 63).rdreg = none ∧ ((engine {}).jewel 63).run = none ∧
      ((engine { run := some (tile0 .A 1 0), rdreg := some (2, 0x30010) }).jewel 63).rdreg.isSome = true ∧ EngineCheck.noIssue ≠ .single) ∧
    bitsOf (0x5AFF007F : Word).toNat 31 16 ≠ 0x5AFE ∧ bitOf (0x5AFE003F : Word).toNat 6 = false ∧
    (let t := { tile0 .A 1 0 with pool := 2 ^ 63 }
     let j : Jewel := { run := some t }
     j.run.toList ++ j.next.toList ++ j.wait = [t] ∧ ∀ i < 64, i ≠ 63 → bitOf t.pool i = false) := by decide +kernel

theorem witness_EngineRetirement_access : MayAccess run0 .supervisor F.TRAIN_RETIRE_KEY.addr := may _ _ (by decide +kernel)

/-- Port A's zone unit `u`, with one finished tile at the head of its order. -/
def zoned (u : ZoneUnit) (r : TileResult) : Mach :=
  let m := run0
  { m with zones := ⟨u, {}⟩, train := { m.train with order := ⟨[r.tile.id], []⟩, results := [r] } }
def unit0 : ZoneUnit := { first := some (tile0 .A 3 0), ovFirst := some (tile0 .A 3 0), cur := some (0, 3) }
def result0 (status : Nat) (words : List Word) : TileResult := ⟨tile0 .A 3 0, status, 0, words⟩

theorem witness_ResultsAndIntervals :
    (run0.fabricUp = true ∧ run0.train.order.at .A = []) ∧
    (let m := { zoned unit0 (result0 0 []) with train := { (zoned unit0 (result0 0 [])).train with results := [] } }
     m.train.order.at .A = [(tile0 .A 3 0).id] ∧ ∀ r ∈ m.train.results, r.tile.id ≠ (tile0 .A 3 0).id) ∧
    (let r := result0 0 [100, 0, 0x10000, 5, 9, 7]
     let m := zoned unit0 r
     m.train.results.find? (fun x => x.tile.id == r.tile.id) = some r ∧ r.tile.segs = [(3, 0, 100)] ∧ (m.zone .A).cur = some (r.tile.id.restart, r.tile.id.trow) ∧
     r.status = 0 ∧ r.words.length = 4 + r.tile.nb ∧ (segAcc r.tile.nb r.words).isSome = true ∧ r.tile.set.range ≤ 512 * (r.tile.id.tcol + 1) ∧
     512 * (0 + 1) < { r.tile.set with range := 513 }.range) ∧
    (let m := zoned unit0 (result0 0 [])
     m.earlierComing .A (tile0 .A 3 0).id = false ∧ { m with train := { m.train with ready := ⟨[tile0 .A 2 0], []⟩ } }.earlierComing .A (tile0 .A 3 0).id = true) ∧
    (let u : ZoneUnit := { unit0 with cols := [0] }
     u.cur = some (0, 3) ∧ (∀ c ≤ 1, c ∈ 1 :: u.cols) ∧ ∃ c ≤ 2, c ∉ 2 :: u.cols) ∧
    ((result0 1 []).status ≠ 0 ∧ (result0 0 [1]).words.length ≠ 4 + (result0 0 [1]).tile.nb) ∧
    (let m := zoned { unit0 with rows := 2, ovRows := 2 } (result0 0 []); let f := tile0 .A 3 0
     (m.zone .A).first = some f ∧ m.zoneDue .A f = true ∧ f.set.zEn = true ∧ (m.zone .A).ovFirst = some f ∧ m.overDue .A f = true ∧ f.set.ovEn = true ∧
     { f with set := {} }.set.zEn = false ∧ { f with set := {} }.set.ovEn = false) ∧
    (let m := zoned { unit0 with rows := 1, ovRows := 1 } (result0 0 []); let f := tile0 .A 3 0
     m.zoneDue .A f = false ∧ m.overDue .A f = false ∧ (run0.zone .A).first = none ∧ (run0.zone .A).ovFirst = none) ∧
    (let m := { zoned { unit0 with rows := 1, ovRows := 1 } (result0 0 []) with train := {}, acq := ⟨{ tiles0 := 1 }, {}⟩ }; let f := tile0 .A 3 0
     m.zoneDue .A f = true ∧ m.overDue .A f = true) := by decide +kernel

theorem witness_Arming :
    (bitOf (0x80000000 : Word).toNat 31 = true ∧ (sets [(F.CHR_CH_STATUS_STATE 31, 2)] run0).get (F.CHR_CH_STATUS_STATE 31) = 2 ∧
      (sets [(F.CHR_CH_STATUS_STATE 31, 1)] run0).get (F.CHR_CH_STATUS_STATE 31) = 1) ∧
    (bitOf (0x80000000 : Word).toNat 30 = false ∧ run0.get (F.CHR_CH_STATUS_STATE 31) ≠ 1 ∧ run0.get (F.CHR_CH_STATUS_STATE 31) ≠ 2) ∧
    ((sets [(F.CHR_CH_STATUS_STATE 31, 3)] run0).fabricUp = true ∧ (sets [(F.CHR_CH_STATUS_STATE 31, 3)] run0).get (F.CHR_CH_STATUS_STATE 31) = 3) := by decide +kernel

theorem witness_Arming_access : MayAccess run0 .supervisor F.CHR_ARM.addr := may _ _ (by decide +kernel)

def row0 (inc : Bool) (n : Nat) : RowProd :=
  { acq := 2, restart := 0, row := 28, no := 28, mT := 115, time := 4999000000, beat := 38, tick := 2,
    zones := [(3, { n := n, s1 := 70000 * 2 ^ 32, s2 := 900000 * 2 ^ 32, e := [5 * 2 ^ 32, 6], ext := some (-4, 2000), inc := inc })] }
/-- Channel 31 of TYPE 0 in a state, with thresholds that the row's mean exceeds. -/
def channel (st missed : Nat) (x : Channel) (caps : List (Nat × Capture)) : Mach :=
  { sets [(F.CHR_CH_STATUS_STATE 31, st), (F.CHR_CH_STATUS_MISSED 31, missed), (F.CHR_CH_CTRL_ZONE 31, 3), (F.CHR_CH_CTRL_MODE 31, 1)] run0 with
    chans := [(31, x)], caps := caps }
def capture0 (row : Nat) : Capture :=
  { port := .A, capId := 6, acq := 2, restart := 0, row := row, mT := 115, beat := 38, tick := 2, causes := [⟨9, 0, 0, 0⟩], primary := 9, preReq := 10, preAvail := 4,
    post := 7, c0 := 50, c1 := 90, maskZone := 0, mask := false, value := 5, next := 111, last := 122 }
def waiting (r : RowProd) (prev : Option Nat) : Channel := { primed := true, prev := prev, q := [r] }
/-- Whether the channel's logic fires on a row of class `cls`. -/
def fires (m : Mach) (cls : Nat) : Bool :=
  (chanLogic (m.get (F.CHR_CH_CTRL_TYPE 31)) (m.get (F.CHR_CH_CTRL_COND 31)) (m.get (F.CHR_WIDTH_W_MIN 31)) (m.get (F.CHR_WIDTH_W_MAX 31))
    { (mapGet {} m.chans 31) with q := [] } cls 28).2

theorem witness_ChannelRows_rows :
    (31 < 32 ∧ run0.fabricUp = true ∧ (mapGet {} run0.chans 31).q = []) ∧
    (let m := channel 0 0 (waiting (row0 false 10) none) []
     (mapGet {} m.chans 31).q = [row0 false 10] ∧ m.get (F.CHR_CH_STATUS_STATE 31) = 0) ∧
    (channel 2 0 {} []).get (F.CHR_CH_STATUS_STATE 31) = 2 ∧
    (let m := channel 1 0 (waiting (row0 true 10) none) []
     m.get (F.CHR_CH_STATUS_STATE 31) = 1 ∧ m.get (F.CHR_CH_CTRL_TYPE 31) ≠ 5 ∧ ((row0 true 10).zones.headD (0, {})).2.inc = true ∧ (mapGet {} m.chans 31).prev = none) ∧
    (((row0 false 10).zones.headD (0, {})).2.inc = false ∧ 0 < ((row0 false 10).zones.headD (0, {})).2.n) ∧
    ((waiting (row0 true 0) (some 2)).prev = some 2) := by decide +kernel

/-- A mask channel, whose limits are 0: zones 3 and 5 of its row violate it, 2 to 6 are tested. -/
def maskRow : RowProd :=
  let z (n : Nat) (inc : Bool) : Nat × ZAcc := (n, { ((row0 false 10).zones.headD (0, {})).2 with inc := inc })
  { row0 false 10 with zones := [z 2 true, z 3 false, z 4 true, z 5 false, z 6 true] }

theorem witness_ChannelRows_mask :
    let m (st : Nat) (caps : List (Nat × Capture)) : Mach := sets [(F.CHR_CH_CTRL_TYPE 31, 5)] (channel st 0 { waiting maskRow none with q := [maskRow] } caps)
    let limit (m : Mach) (z at' : Nat) : Rat := tagRat (bankWord m.regs.act (0x0C20000 + 0x10000 * m.get (F.CHR_CH_CTRL_MASK_SEL 31) + at' + 8 * z))
    let bad (m : Mach) (z : Nat × ZAcc) : Bool := !z.2.inc && decide (0 < z.2.n) && decide (limit m z.1 16 ≤ limit m z.1 20) &&
      (decide (productVal z.2 (m.get (F.CHR_CH_CTRL_SRC 31)) < limit m z.1 16) || decide (limit m z.1 20 < productVal z.2 (m.get (F.CHR_CH_CTRL_SRC 31))))
    maskRow.zones.map (bad (m 1 [])) = [false, true, false, true, false] ∧ (m 1 []).get (F.CHR_CH_CTRL_TYPE 31) = 5 ∧ (mapGet {} (m 1 []).chans 31).q = [maskRow] ∧
    ((m 3 []).get (F.CHR_CH_STATUS_STATE 31) = 3 ∧ (m 1 []).get (F.CHR_CH_STATUS_STATE 31) = 1) ∧ (m 1 []).sameRow .A maskRow = none ∧ (m 1 []).capture 0 = none ∧
    (∀ i < 16, ((m 1 ((List.range 16).map fun i => (i, capture0 5))).capture i).isSome = true) ∧ (m 1 [(1, capture0 28)]).sameRow .A maskRow = some (1, capture0 28) := by
  decide +kernel

theorem witness_ChannelRows_firing :
    (let m := channel 1 0 (waiting (row0 false 10) (some 0)) []
     let z := ((row0 false 10).zones.headD (0, {})).2
     let cls := classOf (m.on (F.CHR_CH_CTRL_POL 31)) (m.get (F.CHR_THR_HI_THR 31)) (m.get (F.CHR_THR_LO_THR 31)) (productVal z (m.get (F.CHR_CH_CTRL_SRC 31)))
     fires m cls = true ∧ m.sameRow .A (row0 false 10) = none ∧ m.capture 0 = none) ∧
    (let m := channel 1 0 (waiting (row0 false 10) (some 0)) []; fires m 0 = false) ∧
    (channel 3 0 {} []).get (F.CHR_CH_STATUS_STATE 31) = 3 ∧
    (let m := channel 1 3 (waiting (row0 false 10) (some 0)) ((List.range 15).map fun i => (i, capture0 5))
     m.sameRow .A (row0 false 10) = none ∧ m.capture 15 = none ∧ ∀ i < 15, (m.capture i).isSome = true) ∧
    (let m := channel 1 3 (waiting (row0 false 10) (some 0)) ((List.range 16).map fun i => (i, capture0 5))
     m.sameRow .A (row0 false 10) = none ∧ ∀ i < 16, (m.capture i).isSome = true) ∧
    (channel 1 3 (waiting (row0 false 10) (some 0)) [(1, capture0 28)]).sameRow .A (row0 false 10) = some (1, capture0 28) := by decide +kernel

def block0 (row pos : Nat) : Block := { tile := { tile0 .A row 0 with cells := 512, m0 := 4 * row }, bytes := List.replicate 64 1, pos := pos }
/-- A capture in slot 15 over ticks 112 to 119 in the ring. -/
def reading (c : Capture) : Mach := { acqRun id with rsv := { run0.rsv with blocks := [block0 28 64, block0 29 128] }, caps := [(15, c)] }
def capAt (next last : Nat) : Capture := { capture0 28 with next := next, last := last }
/-- A capture with a record in progress in each form, of an epoch, whose body has `n` bytes. -/
def begunCap (next last epoch n : Nat) : Capture :=
  let r : CapRec := { first := some (block0 28 64).tile, firstM := 112, ticks := 2, body := List.replicate n 1 }
  { capAt next last with total := 2, epochSeen := some epoch, form0 := { r with row := some (0, 28) }, form1 := r, form1q := r }
/-- How the Reserve holds the next tick of a capture, column by column. -/
def tickHeld (c : Capture) : List Held := (colsOf c.c0 c.c1).map fun i => (reading c).tickIn c.port c.acq ((reading c).portBlocks c.port c.acq) i c.next

theorem witness_CaptureReading :
    (15 < 16 ∧ run0.fabricUp = true ∧ run0.capture 15 = none) ∧
    (let m := reading (capAt 123 122)
     m.capture 15 = some (capAt 123 122) ∧ (capAt 123 122).last < (capAt 123 122).next ∧ (capAt 123 122).gapFrom = none ∧ m.captureEnd (capAt 123 122) = none ∧
      m.rowWaits .A 2 0 28 = false) ∧
    (let c := { capAt 200 300 with acq := 1 }
     let m := { reading c with acq := ⟨{ acq0 with ended := true, ends := [(1, 40)] }, {}⟩ }
     ((m.captureEnd c).any fun e => decide (e < c.last) && decide (e < c.next)) = true ∧ c.gapFrom = none ∧ { c with gapFrom := some 150 }.gapFrom = some 150 ∧
     m.rowWaits .A 1 0 28 = false) ∧
    (let c := capAt 120 122; let held := tickHeld c; c.next ≤ c.last ∧ Held.gone ∉ held ∧ Held.notYet ∈ held) ∧
    (let c := capAt 111 122; let held := tickHeld c
     Held.gone ∈ held ∧ (∀ f < 3, (c.inForm f).ticks = 0) ∧ c.next < c.last ∧ ∀ f < 3, ((begunCap 111 122 5 0).inForm f).ticks ≠ 0) ∧
    (let m := { reading (capAt 113 122) with chans := [(31, waiting (row0 false 5) none)] }; m.rowWaits .A 2 0 28 = true) ∧
    ((reading (capAt 113 122)).rowWaits .A 2 0 28 = false ∧ ∀ ch < 2, ((reading (capAt 113 122)).mc ch).errs = [] ∧ ((reading (capAt 113 122)).mc ch).poison = []) := by decide +kernel

/-- Reading a tick that the ring holds: of the record's epoch and row or not, with room in the record or not, the last of the window or not. -/
theorem witness_CaptureReading_ticks :
    let bytes (c : Capture) : Nat := ((reading c).tickValues ((reading c).portBlocks c.port c.acq) c c.next).1.length
    let fits (c : Capture) : Bool := decide (alignUp (128 + 16 * c.causes.length + (c.inForm 1).body.length + bytes c) 64 ≤ captureMax)
    let c := begunCap 113 122 5 0
    (Held.gone ∉ tickHeld c ∧ Held.notYet ∉ tickHeld c ∧ tickHeld c ≠ [] ∧ c.gapFrom = none ∧
      (reading c).tickIn c.port c.acq ((reading c).portBlocks c.port c.acq) (c.c0 / 512) c.next = .block (block0 28 64) ∧
      c.form0.row = some ((block0 28 64).tile.id.restart, (block0 28 64).tile.id.trow) ∧ c.epochSeen = some (block0 28 64).tile.epoch ∧ c.next < c.last ∧ fits c = true ∧
      (∀ f < 3, (c.inForm f).ticks ≠ 0)) ∧
    ((begunCap 113 122 4 0).epochSeen = some 4 ∧ (4 : Nat) ≠ (block0 28 64).tile.epoch) ∧
    ((begunCap 113 113 5 0).next = (begunCap 113 113 5 0).last) := by decide +kernel

/-- A record of MAX_REC bytes has no room for a tick. -/
theorem witness_CaptureReading_full (n b : Nat) (h : captureMax ≤ b) : let c := begunCap 113 122 5 b
    captureMax < alignUp (128 + 16 * c.causes.length + (c.inForm 1).body.length + n) 64 := by
  simp only [begunCap, capAt, capture0, Capture.inForm, alignUp]
  simp
  omega

/-! ### Witnesses: the codec, memory, lanes, Ethernet and PTP -/

def coded (row : Nat) : Tile :=
  { tile0 .A row 0 with cells := 6, codec := 1, vals := [(0, 5), (1, 9), (2, 60000), (512, 7), (513, 60000), (1025, 3)], quals := [(0, 0), (1, 0)] }
def codec0 (out : List Block) (wr rd : Nat) (ring : Nat) : Mach :=
  { run0 with codec := { run0.codec with queue := ⟨[coded 2], []⟩, out := out, wr := wr, rd := rd }, rsv := { run0.rsv with ring0 := ring } }

theorem witness_BlocksAndRing :
    (run0.fabricUp = true ∧ run0.codec.queue.at .A = [] ∧ run0.codec.out = []) ∧
    (let m := codec0 [] 5000 4800 0
     let t := coded 2
     m.codec.queue.at .A = [t] ∧ m.codecTurn .A = true ∧
     { m with codec := { m.codec with queue := ⟨[t], [{ coded 2 with timeEnd := 99999 }]⟩ } }.codecTurn .A = false ∧ m.codec.fits (blockBytes t t.code.flags t.code.v t.code.q).length = true ∧ m.codec.rd ≤ m.codec.wr ∧ bitOf t.code.flags 3 = false ∧
      t.codecEn = true ∧ m.codec.fits (blockBytes t (rawCoded t true).flags (rawCoded t true).v (rawCoded t true).q).length = true) ∧
    (let m := codec0 [] (4800 + 2097152) 4800 0
     let t := coded 2
     m.codecTurn .A = true ∧ m.codec.fits (blockBytes t t.code.flags t.code.v t.code.q).length = false ∧ m.codec.dropped = false) ∧
    (let b : Block := { tile := coded 1, bytes := List.replicate 200 4 }
     (codec0 [b] 5000 4800 0).codec.out = [b] ∧ (codec0 [b] 5000 4800 0).rsv.ring0 + (codec0 [b] 5000 4800 0).rsv.ring1 = 0 ∧ 0 < (codec0 [b] 5000 4800 (2 ^ 34)).rsv.ring0 ∧
       (codec0 [b] 5000 4800 (2 ^ 34)).mcState 0 ≠ 2 ∧ (codec0 [b] 5000 4800 (2 ^ 34)).mcState 1 ≠ 2 ∧ (codec0 [b] 5000 4800 (2 ^ 34)).get (F.MC_STATUS_SR 0) = 0 ∧
       (codec0 [b] 5000 4800 (2 ^ 34)).get (F.MC_STATUS_SR 1) = 0) := by
  decide +kernel

/-- Both channels run with ranks 0 to 3, rank 3 the spare. -/
def memory (l : List (Fld × Nat)) (c : MemChan) : Mach :=
  { sets ([(F.SYS_MEM_MC0_PRESENT, 1), (F.SYS_MEM_MC1_PRESENT, 1)] ++ each [0, 1] F.MC_STATUS_STATE 2 ++ each [0, 1] F.MC_SPARE_EN 1 ++ each [0, 1] F.MC_SPARE_RANK 3 ++
      (List.range 3).map (fun r => (F.MC_RANK_STATE_STATE 0 r, 1)) ++ [(F.MC_RANK_STATE_STATE 0 3, 2), (F.MC_ACT_CTRL_ACT_THR 0, 5), (F.MC_ECC_CTRL_SCRUB_H 0, 24)] ++ l) run0 with
    mcs := ⟨c, {}⟩ }

/-- A channel of two segments written, whose scrubber stands in the second, and what stands in the arrays there. -/
def scrubbing (errs : List (Nat × ReadErr)) (poison : List Nat) : MemChan := { written := [1, 256], scrubAt := 2 ^ 29, errs := errs, poison := poison }
def oneDevice : ReadErr := { devices := 1, beats := [1] }
def twoDevices : ReadErr := { devices := 2, beats := [1], detected := true }

theorem witness_DramUpkeep :
    (0 < 2 ∧ run0.fabricUp = true ∧ (memory [] {}).mcRuns 0 = true ∧ (memory [] {}).rankState 0 3 ≠ 0 ∧ run0.mcRuns 0 = false ∧
      (memory [(F.MC_RANK_STATE_STATE 0 1, 0)] {}).rankState 0 1 = 0) ∧
    (let m := memory [] { act := [(bankKey 1 0 0, [(7, 5), (8, 2)])] }
     m.mcRuns 0 = true ∧ m.rankState 0 1 ≠ 4 ∧ 0 < m.get (F.MC_ACT_CTRL_ACT_THR 0) ∧ m.get (F.MC_ACT_CTRL_ACT_THR 0) ≤ m.rowCount 0 (bankKey 1 0 0) 7 ∧
     m.rowCount 0 (bankKey 1 0 0) 8 < m.get (F.MC_ACT_CTRL_ACT_THR 0) ∧ (mapGet [] (m.mc 0).act (bankKey 1 0 0)).length ≤ 28 ∧
     5 < bankRows (m.get (F.MC_ORG_DENSITY 0)) ∧ m.rowHot 0 (bankKey 1 0 0) 7 = true ∧ m.rowHot 0 (bankKey 1 0 0) 8 = false) ∧
    (let m := memory [] { act := [(bankKey 1 0 0, [(7, 5), (20, 5)])] }
     7 + 4 < 20 ∧ 20 + 2 < bankRows (m.get (F.MC_ORG_DENSITY 0)) ∧ m.rowHot 0 (bankKey 1 0 0) 7 = true ∧ (m.get (F.MC_ACT_CTRL_ACT_THR 0) ≤ m.rowCount 0 (bankKey 1 0 0) 20) ∧
     (mapGet [] (m.mc 0).act (bankKey 1 0 0)).length ≤ 24) ∧
    ((memory [(F.MC_ECC_CTRL_SCRUB_H 0, 0)] {}).get (F.MC_ECC_CTRL_SCRUB_H 0) = 0 ∧ ({} : MemChan).scrubNext = none) ∧
    (let m := memory [] (scrubbing [] [])
     m.get (F.MC_ECC_CTRL_SCRUB_H 0) ≠ 0 ∧ m.get (F.MC_STATUS_SR 0) = 0 ∧ (scrubbing [] []).scrubNext = some (2 ^ 29) ∧ (m.place 0 (2 ^ 29)).rank < 4 ∧
     m.rowCount 0 (bankKey 0 0 0) (m.place 0 (2 ^ 29)).row < m.get (F.MC_ACT_CTRL_ACT_THR 0) ∧ m.burstSeen 0 (2 ^ 29) = (.clean, false) ∧
     ({ scrubbing [] [] with scrubAt := 2 ^ 29 + 64 } : MemChan).scrubNext ≠ none ∧ ({ scrubbing [] [] with scrubAt := 2 ^ 29 + 2 ^ 21 } : MemChan).scrubNext = none ∧
     m.ringBase ≤ 2 ^ 29 ∧ jrnBase ≤ 2 ^ 29 ∧ 2 ^ 21 < jrnBase) ∧
    ((memory [] (scrubbing [(2 ^ 29, oneDevice)] [])).burstSeen 0 (2 ^ 29) = (.corrected, false) ∧
      (memory [] (scrubbing [(2 ^ 29, twoDevices)] [])).burstSeen 0 (2 ^ 29) = (.uncorrectable, false) ∧
      (memory [] (scrubbing [] [2 ^ 29])).burstSeen 0 (2 ^ 29) = (.uncorrectable, true)) ∧
    ((memory [] {}).spareRank 0 = some 3 ∧ (memory [(F.MC_RANK_STATE_STATE 0 0, 2)] {}).spareRank 0 = some 0 ∧ (memory [(F.MC_RANK_STATE_STATE 0 3, 1)] {}).spareRank 0 = none ∧ 3 ≠ 1 ∧
      (memory [] {}).rankState 0 3 ≠ 5 ∧ (memory [] {}).on (F.MC_STATUS_MIGRATING 0) = false ∧ (memory [] {}).rankState 0 0 = 1) ∧
    run0.get (F.MC_ECC_CTRL_CE_THR 0) = 0 ∧
    (let m := memory [(F.MC_ECC_CTRL_CE_THR 0, 2)] { ceWin := [(0, 1), (1, 2)] }
     0 < m.get (F.MC_ECC_CTRL_CE_THR 0) ∧ m.get (F.MC_ECC_CTRL_CE_THR 0) ≤ mapGet 0 (m.mc 0).ceWin 1 ∧
      ∀ i < 4, i ≠ 1 → mapGet 0 (m.mc 0).ceWin i < m.get (F.MC_ECC_CTRL_CE_THR 0)) := by decide +kernel

theorem witness_MigrationAndFreeze :
    (bitsOf (0x5AFE0005 : Word).toNat 31 16 = 0x5AFE ∧ bitOf (0x5AFE0005 : Word).toNat 2 = true ∧ (memory [] {}).mcRuns 0 = true ∧ (0x5AFE0005 : Word).toNat % 4 = 1) ∧
    bitsOf (0x5AFD0005 : Word).toNat 31 16 ≠ 0x5AFE ∧ (memory [(F.MC_RANK_STATE_STATE 0 3, 1)] {}).spareRank 0 = none ∧
    ((memory [] {}).spareRank 0 = some 3 ∧ (memory [(F.MC_RANK_STATE_STATE 0 3, 5)] {}).rankState 0 3 = 5 ∧ (memory [] {}).rankState 0 3 ≠ 5 ∧
      (memory [(F.MC_STATUS_MIGRATING 0, 1)] {}).on (F.MC_STATUS_MIGRATING 0) = true ∧ (memory [(F.MC_RANK_STATE_STATE 0 1, 4)] {}).rankState 0 1 ≠ 1) ∧
    (bitOf (0x5AFE0001 : Word).toNat 0 = true ∧ (memory [] {}).mcState 0 = 2 ∧ run0.mcState 0 ≠ 2 ∧ (memory [] {}).mcState (1 - 0) = 2 ∧
      (memory [(F.MC_STATUS_STATE 1, 0)] {}).mcState (1 - 0) ≠ 2) ∧
    (let m := memory [(F.MC_STATUS_MIGRATING 0, 1), (F.MC_MIG_STATUS_SRC 0, 1)] {}
     m.fabricUp = true ∧ m.spareRank 0 = some 3 ∧ m.on (F.MC_STATUS_MIGRATING 0) = true ∧ m.mcRuns 0 = true ∧ m.get (F.MC_MIG_STATUS_SRC 0) < 4 ∧ m.get (F.MC_MIG_STATUS_SRC 0) ≠ 3) ∧
    (let m := memory [] { parTimes := List.replicate 14 5000123000 }
     (m.now :: (m.mc 0).parTimes.filter fun t => decide (m.now < t + 10000000)).length < 16) ∧
    (let m := memory [] { parTimes := List.replicate 15 5000123000 }
     16 ≤ (m.now :: (m.mc 0).parTimes.filter fun t => decide (m.now < t + 10000000)).length) ∧
    ((sets [(F.MC_RSV_STATUS_RESYNC, 1)] run0).on F.MC_RSV_STATUS_RESYNC = true ∧ run0.on F.MC_RSV_STATUS_RESYNC = false) := by decide +kernel

theorem witness_MigrationAndFreeze_access : MayAccess (memory [] {}) .supervisor (F.MC_MIGRATE_KEY 0).addr ∧ MayAccess (memory [] {}) .supervisor (F.MC_FREEZE_KEY 0).addr ∧
    MayAccess (memory [(F.MC_STATUS_STATE 1, 1)] {}) .supervisor (F.MC_MIGRATE_KEY 1).addr := ⟨may _ _ (by decide +kernel), may _ _ (by decide +kernel), may _ _ (by decide +kernel)⟩

/-- The lanes in states, with the reference clock. -/
def lanes (st : List Nat) (l : List (Fld × Nat)) : Mach :=
  sets ([(F.NET_REFCLK_OK, 1)] ++ each [0, 1, 2, 3] F.NET_PORT_CTRL_EN 1 ++ (List.range 4).map (fun n => (F.NET_PORT_STATUS_STATE n, st.getD n 0)) ++ l) run0

theorem witness_LaneStates :
    ((lanes [3, 2, 1, 0] []).alive = true ∧ (lanes [3, 2, 1, 0] []).on F.NET_REFCLK_OK = true ∧ (lanes [3, 2, 1, 0] []).get (F.NET_PORT_STATUS_STATE 0) = 3) ∧
    (let m := lanes [4, 4, 5, 0] []
     ∀ n < 4, m.get (F.NET_PORT_STATUS_STATE n) ≠ 3) ∧
    (let m := lanes [4, 4, 5, 0] [(F.NET_REFCLK_OK, 0)]
     m.on F.NET_REFCLK_OK = false ∧ ∀ n < 4, m.get (F.NET_PORT_STATUS_STATE n) ≠ 3) ∧
    ((lanes [4, 3, 2, 1] []).get (F.NET_PORT_STATUS_STATE 3) = 1 ∧ (lanes [4, 3, 2, 1] []).get (F.NET_PORT_STATUS_STATE 2) = 2 ∧
      (lanes [4, 3, 2, 1] []).get (F.NET_PORT_STATUS_STATE 0) = 4 ∧ (lanes [4, 3, 2, 1] []).on (F.NET_PORT_CTRL_EN 0) = true) ∧
    ((4 < 5 ∧ (4 = 1 → (lanes [] []).on (F.NET_PORT_CTRL_FEC 1) = true)) ∧ ¬ ((1 : Nat) = 1 → (lanes [] []).on (F.NET_PORT_CTRL_FEC 1) = true) ∧
      (lanes [] [(F.NET_PORT_CTRL_FEC 1, 1)]).on (F.NET_PORT_CTRL_FEC 1) = true) ∧
    (bitsOf (0x28000043 : Word).toNat 6 4 ≤ 4 ∧ bitsOf (0x28000043 : Word).toNat 29 24 = 40 ∧ bitsOf (0x0A000000 : Word).toNat 29 24 = 10 ∧
      bitOf (0x28000043 : Word).toNat 0 = true ∧ bitOf (0x0A000000 : Word).toNat 0 = false ∧ bitOf (0x0A000000 : Word).toNat 1 = false) ∧
    (let m := lanes [5, 0, 3, 4] [(F.NET_PRBS_CTRL_GEN_EN 0, 1), (F.NET_PRBS_CTRL_INJ_RATE 0, 10)]
     m.get (F.NET_PORT_STATUS_STATE 0) = 5 ∧ m.on (F.NET_PRBS_CTRL_GEN_EN 0) = true ∧ m.on (F.NET_PRBS_CTRL_CHK_EN 0) = false ∧ m.get (F.NET_PRBS_CTRL_INJ_RATE 0) ≠ 0) ∧
    ((lanes [5, 0, 3, 4] [(F.NET_PRBS_CTRL_CHK_EN 0, 1)]).on (F.NET_PRBS_CTRL_CHK_EN 0) = true ∧ (prbsTaps 0).1 = 7) ∧
    ((lanes [3, 2, 1, 0] []).get (F.NET_PORT_STATUS_STATE 1) ≠ 3 ∧ (lanes [3, 2, 1, 0] []).net.refLost = false ∧ ({ refLost := true } : Net).refLost = true) ∧
    ((lanes [5, 0, 3, 4] []).get (F.NET_PORT_STATUS_STATE 0) = 5 ∧ (lanes [5, 0, 3, 4] [(F.NET_PORT_CTRL_EN 0, 0)]).on (F.NET_PORT_CTRL_EN 0) = false) := by decide +kernel

/-- A PRBS generator with a pattern begun, one that sends what a checker receives, and lanes that wait in DOWN or find a fault. -/
theorem witness_LaneStates_line :
    (let m := lanes [5, 0, 3, 4] [(F.NET_PRBS_CTRL_GEN_EN 0, 1)]; let p := (m.modPort 0 fun p => { p with gen := List.replicate 7 true }).netPort 0
     m.get (F.NET_PRBS_CTRL_INJ_RATE 0) = 0 ∧ p.inject = false ∧ p.gen.length = (prbsTaps 0).1 ∧ p.gen.any id = true ∧ p.line = [] ∧ 0 + 7 < 8) ∧
    (let m := lanes [5, 0, 3, 4] [(F.NET_PRBS_CTRL_CHK_EN 0, 1)]; let g : NetPort := { gen := List.replicate 7 true }; let l : PrbsLine := ⟨0, 0, (prbsSend 0 0 (7 + 64) g).line⟩
     m.on (F.NET_PRBS_STATUS_LOCK 0) = false ∧ (m.netPort 0).chk = [] ∧ (m.netPort 0).goodRun = 0 ∧ g.gen.any id = true ∧ l.received = (prbsSend (m.get (F.NET_PRBS_CTRL_PATTERN 0)) 0 (7 + 64) g).line) ∧
    (∀ n < 3, (lanes [2, 3, 4, 1] []).get (F.NET_PORT_STATUS_STATE n) ∈ [2, 3, 4]) ∧ ((lanes [2, 3, 4, 1] []).laneSends 1 = true ∧ (lanes [2, 3, 4, 1] []).laneSends 2 = false) ∧
    ((lanes [4, 4, 0, 0] []).on (F.NET_PORT_CTRL_TRAIN_EN 0) = false ∧ (lanes [4, 4, 0, 0] []).on F.NET_REFCLK_OK = true ∧ (lanes [4, 4, 0, 0] [(F.NET_REFCLK_OK, 0)]).on F.NET_REFCLK_OK = false) := by
  decide +kernel

theorem witness_LaneStates_access : MayAccess (lanes [5, 0, 3, 4] []) .supervisor (F.NET_PRBS_CTRL_GEN_EN 3).addr := may _ _ (by decide +kernel)

def frame1 (d : FrameDest) (len : Nat) (k : PtpKind) : Frame := { someFrame with dest := d, len := len, ptp := k, source := 5, seqId := 6, correction := 70000 }
/-- Ports P2 and P3 up, forwarding and the transparent clock on; toward P3 a queue of `bytes` bytes and a table. -/
def bridge (bytes : Nat) (table : List TcEntry) (l : List (Fld × Nat)) : Mach :=
  let m := lanes [3, 3, 3, 3] ([(F.NET_FWD_CTRL_EN, 1), (F.PTP_TC_CTRL_MODE, 1)] ++ l)
  { m with net := { m.net with fwd := ⟨{ queue := [⟨4, 5, frame1 .other 500 .none, none⟩, ⟨6, 2 ^ 60, frame1 .other bytes .none, none⟩], table := table }, {}⟩ } }
def queued (m : Mach) : Nat := sumNat (((m.net.fwd.ix 0).queue.filter fun h => decide (m.lsbNow < h.leaves)).map fun h => h.frame.len)

theorem witness_FramesAndForwarding :
    (2 < 4 ∧ (bridge 0 [] []).fabricUp = true ∧ fwdDir (5 - 2) = 0) ∧ run0.laneUp 0 = false ∧
    ((bridge 0 [] []).laneUp 0 = true ∧ (frame1 .own 63 .none).len < 64 ∧ 9216 < (frame1 .own 9217 .none).len ∧ ¬ ((frame1 .own 64 .none).len < 64 ∨ 9216 < (frame1 .own 64 .none).len) ∧
      ¬ ((frame1 .own 9216 .none).len < 64 ∨ 9216 < (frame1 .own 9216 .none).len) ∧ { frame1 .own 64 .none with fcsGood := false }.fcsGood = false) ∧
    ((frame1 .own 64 .none).dest = .own ∧ (frame1 .own 64 .none).vid = none ∧ ¬ ((frame1 .other 64 .none).dest = .own ∨ (frame1 .other 64 .none).dest = .broadcast ∨ (frame1 .other 64 .none).dest = .subscribedMulticast)) ∧
    ((bridge 0 [] []).terminated (frame1 .other 64 .none) = false ∧ (bridge 0 [] [(F.NET_FWD_CTRL_EN, 0)]).on F.NET_FWD_CTRL_EN = false ∧
      (bridge 0 [] []).on F.NET_FWD_CTRL_EN = true ∧ (bridge 0 [] [(F.NET_PORT_STATUS_STATE 3, 1)]).laneUp (5 - 2) = false) ∧
    ((bridge 262081 [] []).laneUp (5 - 2) = true ∧ 262144 < queued (bridge 262081 [] []) + 64 ∧ queued (bridge 262080 [] []) + 64 ≤ 262144) ∧
    ((bridge 0 [] [(F.PTP_TC_CTRL_MODE, 0)]).get F.PTP_TC_CTRL_MODE = 0 ∧ (bridge 0 [] []).get F.PTP_TC_CTRL_MODE ≠ 0 ∧
      (bridge 0 [] []).terminated (frame1 .other 64 .sync1) = false ∧ (bridge 0 [] []).terminated (frame1 .other 64 .sync2) = false ∧
      (bridge 0 [] []).terminated (frame1 .other 64 .followUp) = false ∧ (bridge 0 [] []).terminated (frame1 .other 64 .delayReq) = false) ∧
    (let full := (List.range 64).map fun i => (⟨i, 5, 7, 66, 77, 6⟩ : TcEntry)
     (full.drop 1).length < 64 ∧ 64 ≤ full.length ∧ full.find? (tcMatch (frame1 .other 64 .followUp)) = none ∧
      ([⟨0, 5, 6, 2 ^ 60, 77, 9⟩] : List TcEntry).find? (tcMatch (frame1 .other 64 .followUp)) = some ⟨0, 5, 6, 2 ^ 60, 77, 9⟩) ∧
    ((bridge 0 [] []).on (F.NET_PORT_CTRL_PFC_EN 2) = false ∧ (bridge 0 [] [(F.NET_PORT_CTRL_PFC_EN 2, 1)]).on (F.NET_PORT_CTRL_PFC_EN 2) = true ∧
      some 0 = some ((bridge 0 [] []).get (F.NET_PORT_CTRL_PFC_PRI 2)) ∧ 0 < 65535) ∧
    (let m := bridge 0 [] [(F.NET_PORT_CTRL_FEC 2, 1)]
     (m.rxLine 2 { badHere := true }).2 = true ∧ ({ badHere := true } : RxLine).badHere = true ∧ m.on (F.NET_PORT_CTRL_FEC 2) = true ∧
     (m.rxLine 2 { inFrame := 15 }).2 = true ∧ 0 < (m.netPort 2).fill + 15 ∧ (m.netPort 2).fill + 15 < 32 ∧ (m.rxLine 2 { inFrame := 16 }).2 = false ∧
     (m.rxLine 2 { inFrame := -16 }).2 = false ∧ 0 < (m.netPort 2).fill + (-15) ∧ (m.rxLine 2 { inFrame := -15 }).2 = true) ∧
    (let m := sets [(F.REC_SESS_STATE_STATE 5, 2), (F.REC_SESS_STATE_PORT 5, 2)] (bridge 0 [] []); let f := { frame1 .own 64 .none with ce := some 5 }
     f.ce = some 5 ∧ f.dest = .own ∧ m.get (F.REC_SESS_STATE_PORT 5) = 2 ∧ m.isOpen 5 = true ∧ (m.slot 5).cnpTx = none ∧ (frame1 .own 64 .none).ce = none) ∧
    ((run0.netPort 2).held = 0 ∧ ({ run0.net.p2 with held := 4 } : NetPort).held ≠ 0) := by decide +kernel

/-- A PTP message straight on Ethernet, and one in UDP on IPv4 with a checksum. -/
theorem witness_FramesAndForwarding_bytes :
    (let eth : List Byte := List.replicate 12 0 ++ [0x88, 0xF7] ++ List.replicate 46 0
     let ip : List Byte := List.replicate 12 0 ++ [8, 0, 0x45] ++ List.replicate 8 0 ++ [17] ++ List.replicate 12 0 ++ [1, 0x3F, 1, 0x3F, 0, 52, 7, 7] ++ List.replicate 44 0
     ptpPlace eth = some (14, none) ∧ 14 + 16 ≤ eth.length ∧ ptpPlace ip = some (42, some (14, 34, false)) ∧ 42 + 16 ≤ ip.length ∧ beAtOff ip 40 2 ≠ 0) := by decide +kernel

/-- The answer of a neighbour asked for, with frames that wait, and a queue of which one frame has left and one has not. -/
theorem witness_FramesAndForwarding_answers :
    (let m := bridge 0 [] []; let m := { m with recs := { m.recs with neighbours := [⟨2, 9, .asking, 5, 3⟩, ⟨2, 8, .resolved, 5, 0⟩] } }
     let f := { frame1 .own 64 .none with answer := some 9 }
     f.answer = some 9 ∧ (m.neighbour 2 9).map (·.st) = some .asking ∧ (m.neighbour 2 8).map (·.st) = some .resolved ∧ (m.netPort 2).waiting = 0 ∧
       ∀ i < 64, ¬ (m.isOpen i = true ∧ m.get (F.REC_SESS_STATE_PORT i) = 2)) ∧
    (let m := bridge 0 [] []
     m.laneSends 3 = true ∧ (bridge 0 [] [(F.NET_PORT_STATUS_RF_RX 3, 1)]).laneSends 3 = false ∧ dirEgress 0 = 3 ∧
       ((m.net.fwd.ix 0).queue.map fun h => decide (h.leaves ≤ m.lsbNow)) = [true, false]) := by decide +kernel

def ann (id : Nat) : Announce := ⟨1, 2, 3, 4, 5, BitVec.ofNat 64 id, 7, 0⟩
def clock1 : OrdClock := { foreign := [⟨0, ann 6, 2⟩, ⟨1, ann 77, 2⟩], selected := some (ann 6), mpdKnown := true, first := false, last := some 300, inLock := 3, overs := 1 }
/-- Ordinary clock 3 in a state, on port P0 with backup P1, a step threshold of 50 ns and a lock threshold of 30 ns. -/
def ptp (st : Nat) (c : OrdClock) (l : List (Fld × Nat)) : Mach :=
  let m := lanes [3, 3, 3, 3] ([(F.PTP_OC_STATUS_STATE 3, st), (F.PTP_OC_CTRL_BACKUP 3, 1), (F.PTP_OC_CTRL_BK_EN 3, 1), (F.PTP_SERVO_STEP_NS 3, 50), (F.PTP_SERVO_LOCK_NS 3, 30)] ++ l)
  { m with ptp := { m.ptp with clocks := [(3, c)] } }

theorem witness_PtpClocks_announce :
    (let m := ptp 1 clock1 [(F.CLK_DOM_CTRL_PTP_DOMAIN 3, 24)]
     m.clocksOf 24 = [3] ∧ m.clocksOf 25 = []) ∧
    ((ptp 1 clock1 []).fabricUp = true ∧ (ptp 1 clock1 []).ocState 3 ≠ 0 ∧ (ptp 1 clock1 []).laneUp 0 = true ∧ (ptp 1 clock1 []).ocListens 3 0 = true ∧
      (ptp 0 clock1 []).ocState 3 = 0) ∧
    (bestMaster 0 [⟨0, ann 9, 1⟩] = none ∧ bestMaster 0 [⟨1, ann 77, 2⟩, ⟨0, ann 6, 2⟩] = some (ann 6) ∧ clock1.selected.map (·.identity) = some (ann 6).identity ∧
      ({ clock1 with selected := some (ann 8) } : OrdClock).selected.map (·.identity) ≠ some (ann 6).identity) ∧
    ((ptp 3 clock1 []).ocState 3 = 3 ∧ (ptp 3 clock1 []).ocListens 3 1 = true) := by decide +kernel

/-- The servo's thresholds at their boundaries: an offset of 50,000 ps does not step, 50,001 ps does; the sixteenth offset within 30,000 ps locks. -/
theorem witness_PtpClocks_sync :
    (let m := ptp 1 clock1 []
     (m.oc 3).selected ≠ none ∧ m.pathDelay 3 ≠ none ∧ m.ocState 3 = 1 ∧ m.laneUp (m.ocPort 3) = true ∧ (m.oc 3).first = false ∧
      (m.oc 3).selected.map (·.identity) = some 6 ∧ (m.oc 3).selected.map (·.identity) ≠ some 7) ∧
    (({ clock1 with selected := none } : OrdClock).selected = none ∧ (ptp 4 clock1 []).ocState 3 = 4 ∧ (ptp 2 clock1 []).ocState 3 = 2) ∧
    ((50000 : Int).natAbs ≤ (ptp 1 clock1 []).get (F.PTP_SERVO_STEP_NS 3) * 1000 ∧ (ptp 1 clock1 []).get (F.PTP_SERVO_STEP_NS 3) * 1000 < (-50001 : Int).natAbs) ∧
    ((if (30000 : Int).natAbs ≤ (ptp 1 clock1 []).get (F.PTP_SERVO_LOCK_NS 3) * 1000 then min (14 + 1) 16 else 0) ≠ 16 ∧
      (if (30000 : Int).natAbs ≤ (ptp 1 clock1 []).get (F.PTP_SERVO_LOCK_NS 3) * 1000 then min (15 + 1) 16 else 0) = 16) ∧
    (({ clock1 with first := true } : OrdClock).first = true ∧ ({ clock1 with overs := 3 } : OrdClock).overs = 3 ∧ clock1.overs < 3) := by decide +kernel

theorem witness_PtpClocks_ports :
    (let m := ptp 1 clock1 []
     m.on (F.PTP_OC_CTRL_DELAY 3) = false ∧ (m.oc 3).selected ≠ none ∧ m.laneUp (m.ocPort 3) = true ∧ m.laneSends (m.ocPort 3) = true ∧ m.on (F.PTP_OC_CTRL_BK_EN 3) = true ∧ m.ocPort 3 ≠ m.ocBackup 3 ∧
      m.ocHolds 3 (m.ocBackup 3) = true ∧ (m.oc 3).dreqWait = false) ∧
    ({ clock1 with dreqWait := true } : OrdClock).dreqWait = true ∧ clock1.behind = none ∧ ({ clock1 with behind := some (-3) } : OrdClock).behind = some (-3) ∧ (ptp 1 clock1 [(F.PTP_OC_CTRL_BK_EN 3, 0)]).on (F.PTP_OC_CTRL_BK_EN 3) = false ∧
    (let m := ptp 1 clock1 [(F.PTP_OC_STATUS_ON_BACKUP 3, 1), (F.PTP_OC_STATUS_PORT 3, 1)]
     m.on (F.PTP_OC_STATUS_ON_BACKUP 3) = true ∧ m.ocHolds 3 (m.ocPrimary 3) = true ∧ ({ clock1 with primAt := some 5 } : OrdClock).primAt ≠ none ∧ clock1.primAt = none) ∧ (ptp 1 clock1 []).on (F.PTP_OC_STATUS_ON_BACKUP 3) = false ∧
    ((ptp 1 clock1 [(F.PTP_OC_CTRL_DELAY 3, 1)]).pdelayRuns 0 = true ∧ (ptp 1 clock1 [(F.PTP_OC_CTRL_DELAY 3, 1)]).laneSends 0 = true ∧ run0.pdelayRuns 0 = false ∧ ({ run0.net.p0 with pdWait := true } : NetPort).pdWait = true ∧
      (run0.netPort 0).pdWait = false) ∧
    ((bridge 0 [] [(F.PTP_TC_CTRL_MODE, 2)]).pdelayRuns 3 = true ∧ ((bridge 0 [] []).net.fwd.ix (fwdDir 3)).queue ≠ [] ∧ (run0.net.fwd.ix (fwdDir 3)).queue = [] ∧
      run0.on (F.PTP_PD_CTRL_PD_1STEP 3) = false) := by decide +kernel

/-! ### Witnesses: neighbours, sessions, records, calibration -/

def stream1 (typ port opts : Nat) : Stream := { typ := typ, port := port, opts := opts, p := 6000, pi := 5000, ci := 4000, ringLog2 := 30 }
def policy1 : Policy := ⟨true, false, false, 0, some 1, 0, 64, 1024, 0xFFFFFFFF, 0, 0, [(1, 0, 0), (7, 2, 1000)]⟩
def policy2 : Policy := { policy1 with autostart := false, authReq := true, primary := 1, alt := none, host := 77, jrnKib := 256 }
def policy3 : Policy := { policy1 with udp := true, udpPort := 4000, host := 0xFFFF0A000005 }
def rec1 (seq typ stream n : Nat) : Rec := ⟨1, typ, stream, 0, 0, 0, seq, 1, 2, 3, 0, 0, 0, 1, 0, 4, List.replicate n 7⟩
def slot1 : Slot :=
  { start := 3, k := 12, streams := [stream1 6 2 0, stream1 1 0 0, stream1 7 2 1000, stream1 10 2 0], greeted := true, mask := 0xFFFFFFFF, rate := 3000000000,
    hostAddr := 0xFFFF0A000005, hostQpn := 9, journal := [⟨rec1 5 6 0 40, 0, some 4500, 4, (0, 0)⟩, ⟨rec1 6 1 1 300, 128, none, 5, (0, 0)⟩], sends := 6, cmdNext := some 41,
    replies := [⟨8, 0, 40, .time 4, 4096, 7⟩, ⟨3, 1, 39, .empty, 3584, 7⟩], cmdFirst := 31, others := [⟨3, some 1, ⟨5000, 0, leBytes 8 5000⟩⟩, ⟨5, none, ⟨4096, 7, [8]⟩⟩] }
/-- Slot 5 in a state, three policies, all lanes up with an IPv4 address each. -/
def sess (st : Nat) (x : Slot) (l : List (Fld × Nat)) : Mach :=
  let m := lanes [3, 3, 3, 3] (each [0, 1, 2, 3] F.REC_IP_CTRL_IP4_EN 1 ++ each [0, 1, 2, 3] F.REC_IP4_ADDR_ADDR 0x0A000001 ++
    [(F.REC_SESS_STATE_STATE 5, st), (F.REC_CTRL_RETRY, 4), (F.MC_RSV_SIZES_JRN_MIB, 64), (F.SYS_BOOT_EPOCH, 9), (F.MC_STATUS_STATE 0, 2), (F.MC_STATUS_STATE 1, 2)] ++ l)
  { m with boot := { m.boot with policies := [policy1, policy2, policy3] }, recs := { m.recs with slots := [(5, x)], neighbours := [⟨0, 0xFFFF0A000005, .resolved, 5, 0⟩, ⟨0, 0xFFFF0A000006, .asking, 5, 2⟩] } }
def fromHost (policy resume start : Nat) (src : BitVec 128) (port : Nat) : ConnectReq := ⟨port, src, policy, resume, 2, start, 9, 10, 0⟩
def anyHost : BitVec 128 := 0xFFFF0A000005
/-- `sess` with the host of `policy2` an IPv4 host. -/
def sessV4 (st : Nat) (x : Slot) (l : List (Fld × Nat)) : Mach :=
  let m := sess st x l; { m with boot := { m.boot with policies := [policy1, { policy2 with host := anyHost }, policy3] } }

theorem witness_NeighboursAndConnections :
    (let m := sess 2 slot1 []
     m.hears 0 = true ∧ m.ownAddr 0 0xFFFF0A000001 = true ∧ m.ownAddr 0 0xFFFF0A000002 = false ∧ 
     m.neighbour 0 anyHost = some ⟨0, anyHost, .resolved, 5, 0⟩ ∧ m.neighbour 0 (anyHost + 1) = some ⟨0, anyHost + 1, .asking, 5, 2⟩ ∧ m.neighbour 1 anyHost = none) ∧
    (sess 2 slot1 [(F.NET_PORT_STATUS_STATE 0, 1)]).hears 0 = false ∧
    ((sess 2 slot1 []).hears 1 = true ∧ (sess 2 slot1 []).familyUp 1 anyHost = true ∧ (fromHost 0 255 0 anyHost 1).pmtu ≤ 2 ∧ (sess 2 slot1 []).familyUp 0 77 = false ∧
      2 < { fromHost 0 255 0 anyHost 1 with pmtu := 3 }.pmtu) ∧
    (let e : ConnectReply := ⟨anyHost, 9, run0.now - 10000000000, 0, 0, 2, 3, 4, 5, 6, 7, 8, 9⟩
     run0.now ≤ e.time + 10000000000 ∨ run0.now < 10000000000) ∧
    (let m := sessV4 3 slot1 [(F.REC_SESS_STATE_POLICY 5, 1)]
     m.checkConnect (fromHost 3 255 0 anyHost 0) = .inr 1 ∧ m.checkConnect (fromHost 2 255 0 anyHost 0) = .inr 1 ∧ m.checkConnect (fromHost 0 255 0 anyHost 2) = .inr 2 ∧
      m.checkConnect (fromHost 1 255 0 0xFFFF0A000006 1) = .inr 2 ∧ m.checkConnect (fromHost 0 4 0 anyHost 0) = .inr 3 ∧ m.checkConnect (fromHost 1 5 4 anyHost 1) = .inr 3 ∧
      m.checkConnect (fromHost 1 6 9 anyHost 1) = .inr 3 ∧
      m.checkConnect (fromHost 0 255 0 anyHost 1) = .inl (.fresh 0) ∧ m.checkConnect (fromHost 1 255 0 anyHost 1) = .inl (.fresh 1) ∧
      m.checkConnect (fromHost 1 5 3 anyHost 1) = .inl (.resume 5) ∧ m.checkConnect (fromHost 1 6 8 anyHost 1) = .inl (.lost 6 8) ∧
      m.boot.policies[1]? = some { policy2 with host := anyHost }) ∧
    ((sessV4 3 slot1 ((List.range 64).map fun i => (F.REC_SESS_STATE_STATE i, 3))).checkConnect (fromHost 1 255 0 anyHost 1) = .inr 4 ∧
      (sessV4 0 {} [(F.MC_RSV_SIZES_JRN_MIB, 0)]).checkConnect (fromHost 1 255 0 anyHost 1) = .inr 5) ∧
    ((sess 1 { slot1 with prev := 3 } []).sessState 5 = 1 ∧ ((sess 1 { slot1 with prev := 3 } []).slot 5).prev = 3 ∧ ((sess 1 slot1 []).slot 5).prev ≠ 3 ∧
      (sess 2 slot1 []).sessState 5 ≠ 1) := by decide +kernel

theorem witness_NeighboursAndConnections_repeated :
    (let m := sess 2 slot1 []
     let m := { m with recs := { m.recs with connects := [⟨anyHost, 9, 0, 0, 0, 2, 3, 4, 5, 6, 7, 8, 9⟩] } }
     ∃ e ∈ m.recs.connects, e.source = (fromHost 0 255 0 anyHost 0).source ∧ e.qpn = (fromHost 0 255 0 anyHost 0).hostQpn ∧ m.now ≤ e.time + 10000000000) ∧
    ¬ (∃ e ∈ (sess 2 slot1 []).recs.connects, e.source = (fromHost 0 255 0 anyHost 0).source ∧ e.qpn = (fromHost 0 255 0 anyHost 0).hostQpn ∧
      (sess 2 slot1 []).now ≤ e.time + 10000000000) := by decide +kernel

/-- The session of slot 5 on port P0, whose lane fails while the other path is up or down, or that has none. -/
theorem witness_LaneStates_sessions :
    (let m := sess 2 slot1 []
     m.isOpen 5 = true ∧ m.get (F.REC_SESS_STATE_PORT 5) = 0 ∧ m.policyOf 5 = some policy1 ∧ m.on (F.REC_SESS_STATE_ON_ALT 5) = false ∧ policy1.alt = some 1 ∧ m.laneUp 1 = true) ∧
    (sess 2 slot1 [(F.NET_PORT_STATUS_STATE 1, 1)]).laneUp 1 = false ∧ (sess 2 slot1 [(F.REC_SESS_STATE_POLICY 5, 1)]).policyOf 5 = some policy2 ∧ policy2.alt = none ∧
    ∀ k < 64, ¬ ((lanes [3, 3, 3, 3] []).isOpen k = true ∧ (lanes [3, 3, 3, 3] []).get (F.REC_SESS_STATE_PORT k) = 0) := by decide +kernel

def ring1 (n : Nat) : HelloRing := ⟨0, n, 0, 0, 5000⟩
def cmd (seq : Nat) : CmdHead := ⟨5, false, true, seq, none, 0⟩

theorem witness_ManagementCommands_gate :
    (let m := sess 2 slot1 []
     m.sendArrives 5 16 = true ∧ m.sendArrives 5 4097 = false ∧ m.isOpen 5 = true ∧ m.seqRule (cmd 41) = .perform ∧ m.seqRule (cmd 40) = .again ⟨8, 0, 40, .time 4, 4096, 7⟩ ∧ m.seqRule (cmd 35) = .old ∧ m.seqRule (cmd 42) = .bad ∧
      (m.policyOf 5).map (·.authReq) = some false) ∧
    (sess 3 slot1 []).isOpen 5 = false ∧ (sess 2 slot1 [(F.NET_PORT_STATUS_STATE 0, 1)]).sendArrives 5 16 = false ∧
    (let m := sess 2 slot1 [(F.REC_SESS_STATE_POLICY 5, 1)]
     m.seqRule (cmd 41) = .perform ∧ (m.policyOf 5).map (·.authReq) = some true ∧ (m.slot 5).authOk = false ∧ ({ slot1 with authOk := true } : Slot).authOk = true) ∧
    (8 ≤ { cmd 41 with queued := 8 }.queued ∧ (cmd 41).queued < 8 ∧ { cmd 41 with otherOp := some 9 }.otherOp = some 9 ∧ (cmd 41).otherOp = none ∧ 21 + 4 * 1018 ≤ 4096) ∧
    (wordsFit (cmd 41) 0x1FFFFFC 1 = true ∧ wordsFit (cmd 41) 0x1FFFFFC 2 = false ∧ wordsFit (cmd 41) 0x2000000 1 = false ∧ wordsFit (cmd 41) 2 1 = false ∧
      wordsFit (cmd 41) 0 0 = false ∧ wordsFit (cmd 41) 0 64 = true ∧ wordsFit (cmd 41) 0 65 = false) ∧
    (let m := sess 2 slot1 []; let r := (m.taken 5 21).busRead (m.sessionAccess (cmd 41)) F.EVT_IRQ_EN.addr
     let w := (m.taken 5 25).busWrite (m.sessionAccess (cmd 41)) F.EVT_IRQ_EN.addr 5
     r.isOpen 5 = true ∧ r.slot 5 = (m.taken 5 21).slot 5 ∧ w.isOpen 5 = true ∧ w.slot 5 = (m.taken 5 25).slot 5 ∧ w.boot.counter ≤ m.boot.counter) ∧
    ((sess 2 { slot1 with authFail := true } []).isOpen 5 = true ∧ ((sess 2 { slot1 with authFail := true } []).slot 5).authFail = true ∧ slot1.authFail = false) := by
  decide +kernel

/-- Both outcomes of AUTH stand on a signature check whose result the model leaves open; without the key named no signature is good. -/
theorem witness_ManagementCommands_auth : (sess 2 slot1 []).boot.mgmtKeys[(0 : Nat)]? = none ∧
    ({ x := 1, y := 2, secure := true } : MgmtKey).secure = true := by decide +kernel

theorem witness_ManagementCommands_hello :
    (let m := sess 1 { slot1 with prev := 3 } []; let fresh := sess 1 { slot1 with greeted := false, cmdNext := none } []
     m.sendArrives 5 184 = true ∧ m.sessState 5 = 1 ∧ m.seqRule (cmd 41) = .perform ∧ m.seqRule (cmd 40) ≠ .perform ∧ fresh.seqRule (cmd 7) = .perform ∧ (m.slot 5).prev = 3 ∧ (fresh.slot 5).greeted = false) ∧
    (¬ (1 ≤ ([] : List (Nat × Nat)).length) ∧ ¬ ((List.replicate 5 (1, 1)).length ≤ 4) ∧ 1 ≤ ([(1, 0)] : List (Nat × Nat)).length ∧ (List.replicate 4 (1, 1)).length ≤ 4) ∧
    (chooseMinor [(2, 0)] = none ∧ chooseMinor [(1, 0)] = some 0 ∧ chooseMinor [(1, 0), (1, 7)] = some 1) ∧
    (ringsFit slot1.streams (List.replicate 4 (ring1 30)) = true ∧ ringsSame slot1.streams (List.replicate 4 (ring1 30)) = true ∧
      ringsFit slot1.streams (List.replicate 3 (ring1 30)) = false ∧ ringsFit slot1.streams (List.replicate 4 (ring1 19)) = false ∧
      ringsFit slot1.streams (List.replicate 4 (ring1 36)) = true ∧ ringsFit slot1.streams (List.replicate 4 (ring1 37)) = false ∧
      ringsSame slot1.streams (List.replicate 4 (ring1 36)) = false ∧ slot1.greeted = true) := by decide +kernel

theorem witness_Transport :
    (let m := sess 2 slot1 []; let t := slot1.streams.getD 1 { typ := 0 }
     m.fabricUp = true ∧ m.isOpen 5 = true ∧ m.hears (m.get (F.REC_SESS_STATE_PORT 5)) = true ∧ (m.slot 5).greeted = true ∧ 1 < (m.slot 5).streams.length ∧
      (t.ci ≤ 4000 ∧ 4000 ≤ t.p) ∧ (t.ci ≤ 6000 ∧ 6000 ≤ t.p) ∧ 3999 < t.ci ∧ t.p < 6001 ∧ ¬ (4 < (m.slot 5).streams.length) ∧ m.canSend 5 = true ∧ t.pi < t.p) ∧
    (let m := sess 2 slot1 []
     (∀ op ∈ [HostOp.otherWrite, .read, .atomic], ∀ i < 5, op ≠ .index i) ∧ m.laneUp (m.get (F.REC_SESS_STATE_PORT 5)) = true ∧ (m.slot 5).owed = true ∧ ({} : Slot).owed = false ∧
      m.authWait 5 = false ∧ (slot1.again fun _ => true).map (·.1) = [3, 4, 5] ∧ ((m.slot 5).journal.map fun r => (r.ord, r.sent)) = [(4, some 4500), (5, none)] ∧
      slot1.hostAlt = 0 ∧ ({ slot1 with hostAlt := 8 } : Slot).hostAlt ≠ 0) ∧
    (let m (n : Nat) := sess 2 { slot1 with tries := n } []
     ((m 2).slot 5).tries + 1 < (m 2).get F.REC_CTRL_RETRY ∧ (m 3).get F.REC_CTRL_RETRY ≤ ((m 3).slot 5).tries + 1 ∧ (m 3).policyOf 5 = some policy1 ∧
      (m 3).on (F.REC_SESS_STATE_ON_ALT 5) = false ∧ (∀ ch < 2, ((m 3).mc ch).errs = [] ∧ ((m 3).mc ch).poison = []) ∧ policy1.alt = some 1 ∧ (m 3).laneUp 1 = true) ∧
    ((sess 2 slot1 [(F.REC_SESS_STATE_ON_ALT 5, 1), (F.REC_SESS_STATE_PORT 5, 1)]).on (F.REC_SESS_STATE_ON_ALT 5) = true ∧
      (sess 2 slot1 [(F.NET_PORT_STATUS_STATE 1, 1)]).laneUp 1 = false ∧ policy2.alt = none ∧
      (sess 2 slot1 [(F.REC_SESS_STATE_ON_ALT 5, 1)]).laneUp policy1.primary = true ∧ (sess 2 slot1 [(F.REC_SESS_STATE_ON_ALT 5, 1), (F.NET_PORT_STATUS_STATE 0, 1)]).laneUp policy1.primary = false) ∧
    (slot1.cnpAt = none ∧ (let m := sess 2 slot1 []; decide (m.now - 50000 + 50000 ≤ m.now) && decide (m.now < m.now - 49999 + 50000)) = true) ∧
    ((sess 3 slot1 []).isOpen 5 = false ∧ (sess 2 slot1 [(F.NET_PORT_STATUS_STATE 0, 1)]).hears 0 = false) ∧
    (let m := sess 2 { slot1 with streams := [{ stream1 6 2 0 with pi := 6000 }] } []
     ¬ ((m.slot 5).streams.getD 0 { typ := 0 }).pi < ((m.slot 5).streams.getD 0 { typ := 0 }).p) := by decide +kernel

def draft1 (typ port : Nat) : Draft := { typ := typ, port := port, codec := 1, bodies := [[1, 2, 3], [4], [5, 6]], count := 4, lsb := 777000, cls := 3, period := 1000 }
def produced (st : Nat) (x : Slot) (ds : List Draft) : Mach := let m := sess st x [(F.REC_CTRL_UDP_EN, 1)]; { m with recs := { m.recs with ready := ds, udpReady := ds.map fun d => (2, d) } }
def missed1 : Missed := ⟨1, 2, 3, 4, 5, 6, 7, false⟩
def quotaOf (m : Mach) : Nat := match m.policyOf 5 with | some p => p.jrnKib * 1024 | none => 0
/-- The record that stream 1 (type 1) or stream 0 (type 6) of slot 5 forms. -/
def formed (m : Mach) (i : Nat) (d : Draft) : Rec := let t := (m.slot 5).streams.getD i { typ := 0 }; m.formRec 5 i d.typ d (d.flags + (formBody t d).2) (formBody t d).1
def holding (n : Nat) : Slot := { slot1 with journal := List.replicate n ⟨rec1 6 1 1 4032, 0, some 4500, 5, (0, 0)⟩ }

theorem witness_Records_production :
    (let m := produced 2 slot1 [draft1 1 0]
     m.fabricUp = true ∧ m.recs.ready = [draft1 1 0] ∧ m.producing 5 = true ∧ m.wants 5 (stream1 1 0 0) (draft1 1 0) = true ∧
      (m.slot 5).streams[1]? = some (stream1 1 0 0) ∧ (∀ j < 4, j ≠ 1 → ∀ u, (m.slot 5).streams[j]? = some u → m.wants 5 u (draft1 1 0) = false)) ∧
    (∀ t ∈ slot1.streams, (produced 2 slot1 [draft1 2 0]).wants 5 t (draft1 2 0) = false) ∧ (produced 0 slot1 []).producing 5 = false ∧
    ((produced 1 { slot1 with prev := 3 } []).producing 5 = true ∧ (produced 3 slot1 []).producing 5 = true) ∧
    (let m := produced 2 (holding 239) [draft1 1 0]
     (m.slot 5).use + (formed m 1 (draft1 1 0)).len + 65536 ≤ quotaOf m ∧ (m.slot 5).paused = false) ∧
    (let m := produced 2 (holding 240) [draft1 1 0]
     ¬ ((m.slot 5).use + (formed m 1 (draft1 1 0)).len + 65536 ≤ quotaOf m) ∧ (m.slot 5).paused = false) ∧
    (let m := produced 2 (holding 256) [draft1 6 0]
     ¬ ((m.slot 5).use + (formed m 0 (draft1 6 0)).len + 0 ≤ quotaOf m)) ∧
    (let m := produced 2 { slot1 with paused := true } [draft1 6 0]
     (m.slot 5).use + (formed m 0 (draft1 6 0)).len + 0 ≤ quotaOf m ∧ (m.slot 5).paused = true) := by decide +kernel

theorem witness_Records :
    (let m (n : Nat) := produced 2 { holding n with paused := true } []
     ((m 192).slot 5).paused = true ∧ 4 * ((m 192).slot 5).use ≤ 3 * quotaOf (m 192) ∧ ¬ (4 * ((m 193).slot 5).use ≤ 3 * quotaOf (m 193))) ∧
    (∃ t ∈ ({ slot1 with streams := [{ stream1 1 0 0 with missed := some missed1 }] } : Slot).streams, t.missed.isSome = true) ∧
    (let m := produced 2 { slot1 with streams := [{ stream1 1 0 0 with missed := some missed1 }] } []; 4 * (m.slot 5).use ≤ 3 * quotaOf m) ∧ (2 < ceilDiv (rec1 6 1 1 20000).len 8192) ∧
    (0 < 1 ∧ 1 ≤ 65535 ∧ 0 < 65535 ∧ 65535 < 65536) ∧
    (let m := produced 2 slot1 [draft1 7 2]; let p := m.udpSlot 2 policy3
     (m.recs.udpReady.find? fun e => e.1 == 2) = some (2, draft1 7 2) ∧ m.boot.policies[2]? = some policy3 ∧ policy3.udp = true ∧ m.on F.REC_CTRL_UDP_EN = true ∧
      m.portFree policy3.primary = true ∧ m.reaches policy3.primary policy3.host = true ∧ ({ m with recs := { m.recs with neighbours := [] } }).reaches policy3.primary policy3.host = false ∧
      ({ m with net := { m.net with p0 := { held := 3 } } }).portFree policy3.primary = false ∧ (((p.slot 66).streams.filter fun t => p.wants 66 t (draft1 7 2)).length = 1) ∧ (∀ t ∈ (p.slot 66).streams, t.udpGap = none) ∧
      (m.recs.udpReady.find? fun e => e.1 == 3) = none ∧ (sets [(F.REC_CTRL_UDP_EN, 0)] m).on F.REC_CTRL_UDP_EN = false) := by decide +kernel

/-- A calibration with a scope word and the scopes still to do; the housekeeping converter in its mode for it. -/
def calib (scope : Nat) (todo : List Nat) (l : List (Fld × Nat)) : Mach :=
  let m := sets ([(F.CAL_REF_UV_UV, 5000), (F.HKC_STATUS_CAL, 1)] ++ l) run0; { m with cal := { m.cal with scope := scope, todo := todo } }
def meas (refUv : Int) (rms : Nat) : DacMeas := ⟨10, 5000, 20, 4000, 40, 9000, rms, refUv⟩

theorem witness_CalibrationRuns_command :
    (bitsOf (0x5AFE0000 : Word).toNat 8 0 = 0 ∧ bitsOf (0x5AFF0001 : Word).toNat 31 16 ≠ 0x5AFE ∧ bitsOf (0x5AFE31FF : Word).toNat 31 16 = 0x5AFE ∧
      bitsOf (0x5AFE31FF : Word).toNat 8 0 = 511 ∧ bitsOf (0x5AFE31FF : Word).toNat 14 12 = 3) ∧
    ((calib 1 [0] []).cal.scope ≠ 0 ∧ (calib 0 [] []).cal.scope = 0) ∧
    ((calib 0 [] [(F.ESC_STATUS_RUNNING 0, 1)]).running .A = true ∧ (calib 0 [] [(F.ESC_STATUS_RUNNING 1, 1)]).running .B = true ∧ (calib 0 [] []).running .A = false) ∧
    ((calib 0 [] [(F.AFE_RFE_CTRL_EN 1, 1)]).ramanOn .B = true ∧ (calib 0 [] []).ramanOn .A = false ∧ (calib 0 [] []).ramanOn .B = false) ∧
    ((calib 0 [] []).qualified 5 = false ∧
      (let m := calib 0 [] [(F.CLK_REG_STATUS_STATE, 2)]; let m := { m with clk := { m.clk with qual := [(5, 1)] } }; m.qualified 5 = true ∧ m.get F.CLK_REG_STATUS_STATE ≠ 0) ∧
      (let m := calib 0 [] []; let m := { m with clk := { m.clk with qual := [(5, 1)] } }; m.qualified 5 = true ∧ m.get F.CLK_REG_STATUS_STATE = 0)) ∧
    (bitOf (0x5AFE0001 : Word).toNat 0 = true ∧ (calib 0 [] []).fabricUp = true) := by decide +kernel

theorem witness_CalibrationRuns_access : MayAccess (calib 0 [] []) .supervisor F.CAL_CMD_KEY.addr ∧ MayAccess (calib 1 [0] []) .supervisor F.CAL_ABORT_KEY.addr :=
  ⟨may _ _ (by decide +kernel), may _ _ (by decide +kernel)⟩

/-- REF_UV 5000: 5100 is within 2 % and 5101 is not; an RMS of 2 codes (32 sixteenths) passes and 33 sixteenths do not. -/
theorem witness_CalibrationRuns_dac : (calib 1 [0] []).scopeTurn 0 = true ∧ (calib 1 [0] [(F.HKC_STATUS_CAL, 0)]).scopeTurn 0 = false ∧
    (let off (x : DacMeas) := decide (2 * 5000 < 100 * (x.refUv - 5000).natAbs) || decide (x.cR = x.c0)
     off (meas 5100 32) = false ∧ off (meas 5101 32) = true ∧ off (meas 4899 0) = true ∧ off { meas 5000 0 with cR := 10 } = true) ∧
    (meas 5000 32).dHi ≠ (meas 5000 32).dLo ∧ 32 < (meas 5000 33).rms16 ∧ (meas 5000 32).rms16 ≤ 32 := by decide +kernel

theorem witness_CalibrationRuns_scopes :
    ((calib 6 [1, 2] []).scopeTurn 1 = true ∧ (calib 6 [1, 2] []).scopeTurn 2 = true ∧ (calib 7 [0, 1, 2] []).scopeTurn 1 = false ∧
      (List.replicate 68 ((⟨0, 0, 0⟩ : SliceMeas), false)).length = 68 ∧ measCause 768 0 0 false = 0 ∧ measCause 769 0 0 false = 1 ∧ measCause 0 0 7500 false = 0) ∧
    ((calib 24 [3, 4] []).scopeTurn 3 = true ∧ (calib 24 [3, 4] []).scopeTurn 4 = true ∧ (calib 10 [1, 3] []).scopeTurn 3 = false ∧ (List.replicate 16 (5 : Nat)).length = 16) ∧
    ((calib 96 [5, 6] []).scopeTurn 5 = true ∧ (calib 48 [4, 5] []).scopeTurn 5 = false) ∧ ((calib 64 [6] []).scopeTurn 6 = true ∧ (0 : Int) < 5000) ∧
    ((calib 128 [7] []).scopeTurn 7 = true ∧ (List.replicate 8 (List.replicate 1024 (3 : Nat))).length = 8 ∧ (List.replicate 1024 (3 : Nat)).length = 1024) ∧
    ((calib 256 [8] []).scopeTurn 8 = true ∧ (calib 1 [0] []).scopeTurn 8 = false) ∧ ((calib 1 [] []).cal.scope ≠ 0 ∧ (calib 1 [] []).cal.todo = [] ∧ (calib 1 [] []).pwr.supply = true ∧ (calib 1 [] []).pwr.entering = none) := by
  decide +kernel

end Sys2Proof.Tests
end

section
/-!
PROOFS of the scope statements (00_scope): what reset leaves is proved, and RegisterWrites, TimeAndWakes, Commits and Beats are refuted, each by a state that its
premises admit and its conclusion does not fit.
-/
namespace Sys2Proof.Machine

/-! ### What reset leaves -/

theorem mapGet_eq_of_notMem {α : Type} (d : α) {k : Nat} : ∀ {l : List (Nat × α)}, k ∉ l.map (·.1) → mapGet d l k = d
  | [], _ => rfl
  | (j, v) :: t, h => by
    obtain ⟨hj, ht⟩ := not_or.mp (fun e => h (List.mem_cons.mpr e))
    rw [mapGet, if_neg hj, mapGet_eq_of_notMem d ht]

/-- Settles O5: `State.reset` is a constant, whose fields are read off; a key outside `resetFields` reads the default. -/
theorem resetState : Obligations.ResetState := by
  refine ⟨rfl, rfl, rfl, rfl, rfl, ?gates, ?spares, rfl, rfl, rfl, rfl, ?lands, fun k => mapGet_eq_of_notMem 0, rfl⟩
  case gates => decide
  case spares => decide
  case lands => decide

/-! ### Commands and the states of the counterexamples -/

/-- A command that answers `t` completes with the machine of `t`. -/
theorem Completes.of_exec {c : Instr} {s t : State} {P : Mach → Prop} (h : Completes c s P) (e : exec c s = .next t) : P t.m := by
  obtain ⟨m', hm, hp⟩ := h
  obtain rfl : t = { s with m := m' } := by simpa [e] using hm
  exact hp

/-- A core that runs, with its supply, the fields `fs` set and nothing else: the machine that each counterexample below starts from. -/
def Mach.runningWith (fs : List (Fld × Nat)) : Mach :=
  { regs := { act := fs.map fun f => (f.1.key, f.2) }, pwr := { phase := .running, supply := true } }

/-- A state of a machine with blank stores and no command that waits. -/
def State.ofMach (m : Mach) : State := { pending := [], nv := {}, m := m }

/-- The supervisor reaches every register of a supplied block that answers: it is secure and needs no session. -/
theorem mayAccess_supervisor {m : Mach} {a : Nat} (hs : m.pwr.supply = true) (ha : m.answers a = true) : MayAccess m .supervisor a :=
  ⟨hs, fun _ e => Master.noConfusion e, fun _ => rfl, ha, rfl⟩

theorem State.saveCounter_m (s : State) : s.saveCounter.m = s.m := by
  unfold State.saveCounter
  split
  · split <;> rfl
  · rfl

theorem State.saves_m (s : State) (f : Mach → Mach) : (s.saves f).m = f s.m := by
  show (s.saved (s.upd f)).m = f s.m
  unfold State.saved
  split
  · exact State.saveCounter_m _
  · rfl

theorem State.liveSaves_m {s : State} (h : s.m.fabricUp = true) (f : Mach → Mach) : (s.liveSaves f).m = f s.m := by
  rw [State.liveSaves, if_pos h, State.saves_m]

/-! ### A write that no master makes -/

/-- R70: what a closed session has queued is discarded. -/
theorem Mach.writeBy_unheard {m : Mach} {who : Master} {a w : Nat} (h : m.heard who = false) : m.writeBy who a w = m := by
  simp [Mach.writeBy, Mach.writeLogBy, h]

theorem exec_registerWrite_unheard {s : State} {who : Master} {a : Nat} {w : Word} (h : s.m.heard who = false) :
    exec (.registerWrite who a w) s = .next s := by
  have hw : s.m.writeBy who a w.toNat = s.m := Mach.writeBy_unheard h
  have same : s.writes who a w.toNat = s := by rw [State.writes_of (Nat.le_of_eq (congrArg (·.boot.counter) hw)), hw]
  exact congrArg _ same

/-- Refutes O19: the clause on the table words lacks the premise of R70 that the session is open. Session 0 is closed, so its write of 1 to the word at 0x0C00000
is discarded, and the shadow copy of that word stays 0. -/
theorem not_registerWrites : ¬ Obligations.RegisterWrites := by
  intro h
  let s := State.ofMach (Mach.runningWith [])
  obtain ⟨-, -, table, -⟩ := h s (.session 0)
  have written := table 0x0C00000 1 (by decide +kernel) rfl (fun _ e => Master.noConfusion e) rfl (by decide) (by decide) (.inr (.inl (by decide)))
  have closed : s.m.heard (.session 0) = false := by decide +kernel
  have stays : bankWord s.m.regs.shd 0x0C00000 = 0 := rfl
  obtain ⟨hword, -⟩ := written.of_exec (exec_registerWrite_unheard closed)
  exact absurd (stays.symm.trans hword) (by decide)

/-! ### The boundary of a core that is down -/

theorem Mach.lowEntry_of_not_entering {m : Mach} (h : m.pwr.entering = none) : m.lowEntry = m := by
  simp [Mach.lowEntry, h]

/-- In a core that is down time alone passes: no commit, engine or wake is served at the boundary. -/
theorem Mach.moduleBoundary_of_coreDown {m : Mach} (hs : m.pwr.supply = true) (he : m.pwr.entering = none)
    (hd : (m.advance (m.cyclesTo 1000000)).alive = false) : m.moduleBoundary = m.advance (m.cyclesTo 1000000) := by
  simp [Mach.moduleBoundary, hs, Mach.lowEntry_of_not_entering he, hd]

/-- SLEEP that a power-fail warning holds, at device time 10: the core is down and PSTATE is 4. -/
def Mach.heldSleep : Mach :=
  let m := Mach.runningWith [(F.SYS_PWR_STATE_PSTATE, 4)]
  { m with pwr := { m.pwr with phase := .held, holds := [.powerFail] }, clk := { m.clk with dev := 10 } }

theorem Mach.heldSleep_boundary : Mach.heldSleep.moduleBoundary.clk.dev = 1000010 := by
  rw [Mach.moduleBoundary_of_coreDown rfl rfl (by decide +kernel)]
  decide +kernel

/-- Refutes O12: a core that is down can still stand in SLEEP, when a power-fail warning holds it, and there time moves in steps of 25 ns (R109). From device time 10
the boundary ends at 1,000,010 ns, later than the 2 ns past the whole millisecond that the clause allows. -/
theorem not_timeAndWakes : ¬ Obligations.TimeAndWakes := by
  intro h
  let s := State.ofMach Mach.heldSleep
  obtain ⟨-, -, -, down, -⟩ := h s
  have passed := down rfl rfl rfl (by decide) (by decide) (by decide) (by decide)
  obtain ⟨-, late, -⟩ := passed.of_exec (t := s.saves Mach.moduleBoundary) rfl
  rw [State.saves_m, show s.m = Mach.heldSleep from rfl, Mach.heldSleep_boundary] at late
  exact absurd late (by decide)

/-! ### A commit that the module domain completes -/

/-- The module domain has a commit of its own to apply, and the pending epoch holds 2³², one more than its register can. -/
def Mach.epochTooWide : Mach :=
  let m := Mach.runningWith [(F.CFG_COMMIT_STATUS_STATE, 2), (F.CFG_EPOCH_PEND_EPOCH, 2 ^ 32)]
  { m with commit := { m.commit with mask := 16 } }

theorem Mach.epochTooWide_applied : (Mach.epochTooWide.applyDomain 4).get F.CFG_EPOCH = 0 := by decide +kernel

/-- Refutes O14: its last clause lacks the premise that the pending epoch fits the 32 bits of its register, which a state alone does not say of its fields. From 2³²
the commit that the module domain completes puts 0 into EPOCH, not the pending epoch. -/
theorem not_commits : ¬ Obligations.Commits := by
  intro h
  let s := State.ofMach Mach.epochTooWide
  obtain ⟨-, -, -, -, applies⟩ := h s .supervisor 1 (mayAccess_supervisor rfl (by decide +kernel)) (by decide)
  obtain ⟨-, -, -, completed⟩ := applies 4 (by decide +kernel) (by decide)
  have alone : ∀ i < 5, bitOf s.m.commit.mask i = true → i = 4 ∨ bitOf (s.m.get F.CFG_COMMIT_STATUS_APPLIED) i = true := by decide +kernel
  obtain ⟨epoch, -⟩ := completed alone (by decide +kernel) (by decide) (by decide +kernel) rfl
  have pend : s.m.get F.CFG_EPOCH_PEND_EPOCH = 2 ^ 32 := rfl
  exact absurd (Mach.epochTooWide_applied.symm.trans (epoch.trans pend)) (by decide)

/-! ### The supplies while memory is written -/

theorem Mach.foldl_pwr {α : Type} {f : Mach → α → Mach} (hf : ∀ m x, (f m x).pwr = m.pwr) : ∀ (l : List α) (m : Mach), (l.foldl f m).pwr = m.pwr
  | [], _ => rfl
  | x :: t, m => (Mach.foldl_pwr hf t (f m x)).trans (hf m x)

@[simp] theorem Mach.activate_pwr (m : Mach) (ch key row : Nat) : (m.activate ch key row).pwr = m.pwr := by
  simp only [Mach.activate]
  split
  · rfl
  · rfl

@[simp] theorem refreshAround_pwr (ch key : Nat) : ∀ (n : Nat) (serving : List Nat) (m : Mach) (row : Nat),
    (refreshAround ch key n serving m row).pwr = m.pwr
  | 0, _, _, _ => rfl
  | n + 1, serving, m, row => by
    refine Mach.foldl_pwr (fun m r => ?_) _ m
    rw [Mach.activate_pwr]
    split
    · exact refreshAround_pwr ch key n _ m r
    · rfl

@[simp] theorem Mach.neighbours_pwr (m : Mach) (ch key row : Nat) : (m.neighbours ch key row).pwr = m.pwr := by
  refine Mach.foldl_pwr (fun m r => ?_) _ m
  split
  · exact refreshAround_pwr ch key 32 [] m r
  · rfl

@[simp] theorem Mach.openAt_pwr (m : Mach) (ch : Nat) (a : BurstAddr) : (m.openAt ch a).pwr = m.pwr := by
  rw [Mach.openAt, Mach.openRow, Mach.activate_pwr]
  split
  · exact Mach.neighbours_pwr ..
  · rfl

/-- The supplies once an entry to NAP or SLEEP and the scheduled wake are given up. -/
def Power.giveUp (x : Power) : Power := { x with entering := none, wakeAt := none }

/-- Channel `ch` stands before or after the request that gives an entry up: it runs with the entry chosen in `x`, or the entry of `x` is given up already. -/
def Mach.GivesUp (m : Mach) (ch : Nat) (x : Power) : Prop :=
  (m.mcState ch = 2 ∧ m.get (F.MC_STATUS_SR ch) = 1 ∧ m.pwr = x) ∨ m.pwr = x.giveUp

theorem Mach.srExit_pwr (m : Mach) (ch : Nat) : (m.srExit ch).pwr = m.pwr := by
  unfold Mach.srExit
  split
  · rfl
  · rfl

theorem Mach.srGiveUp_pwr (m : Mach) (ch : Nat) : (m.srGiveUp ch).pwr = m.pwr := by
  unfold Mach.srGiveUp
  split
  · rfl
  · rfl

theorem Mach.dramRequest_pwr {m : Mach} {ch : Nat} {x : Power} (h : m.GivesUp ch x) : (m.dramRequest ch).pwr = x.giveUp := by
  unfold Mach.dramRequest
  split
  case isTrue =>
    rw [Mach.modPwr_pwr, Mach.srGiveUp_pwr]
    obtain ⟨-, -, rfl⟩ | given := h
    · rfl
    · show m.pwr.giveUp = x.giveUp
      rw [given]
      rfl
  case isFalse no =>
    rw [Mach.srExit_pwr]
    exact h.resolve_left fun on => no on.2.1

/-- A burst for a channel with a chosen entry gives the entry up (R337), and a later burst leaves it so. -/
theorem Mach.writeBurst_pwr {m : Mach} {ch : Nat} {x : Power} (addr : Nat) (h : m.GivesUp ch x) : (m.writeBurst ch addr).pwr = x.giveUp := by
  unfold Mach.writeBurst
  split
  case isTrue off => exact h.resolve_left fun on => off on.1
  case isFalse =>
    rw [← Mach.dramRequest_pwr h, Mach.modMc_pwr, Mach.openAt_pwr]

theorem Mach.writeBoth_pwr {m : Mach} {x : Power} (addr : Nat) (h : m.GivesUp 0 x) : (m.writeBoth addr).pwr = x.giveUp :=
  Mach.writeBurst_pwr addr (.inr (Mach.writeBurst_pwr addr h))

theorem Mach.foldl_writeBoth_pwr {x : Power} (at_ : Mach → Nat → Nat) : ∀ (l : List Nat) {m : Mach}, m.pwr = x.giveUp →
    (l.foldl (fun m o => m.writeBoth (at_ m o)) m).pwr = x.giveUp
  | [], _, h => h
  | _ :: t, _, h => Mach.foldl_writeBoth_pwr at_ t (Mach.writeBoth_pwr _ (.inr h))

theorem Mach.rawStore_pwr {m : Mach} {x : Power} {pos n : Nat} (h : m.GivesUp 0 x) (hn : burstsOf m.rawBytes pos n ≠ []) :
    (m.rawStore pos n).pwr = x.giveUp := by
  obtain ⟨o, t, e⟩ := List.exists_cons_of_ne_nil hn
  rw [Mach.rawStore, e, List.foldl_cons]
  exact Mach.foldl_writeBoth_pwr (fun m o => m.rawBase + o) t (Mach.writeBoth_pwr _ h)

/-! ### The raw window at the end of a plan restart -/

theorem burstsOf_ne_nil (size pos : Nat) {n : Nat} (h : 0 < n) : burstsOf size pos n ≠ [] := by
  have : ceilDiv (pos % 64 + n) 64 ≠ 0 := by unfold ceilDiv; omega
  simpa [burstsOf] using this

theorem Mach.entryBytes_pos (m : Mach) (p : Port) : 0 < m.entryBytes p := by
  unfold Mach.entryBytes
  split
  · decide
  · decide

/-- The first share that a raw window takes of a beat is stored, and its bursts request channel 0. -/
theorem Mach.rawBeat_pwr {m : Mach} {p : Port} {w : RawWin} {x : Power} (beat : Nat) (hw : m.adc.raw = some w) (port : w.port = p) (runs : w.ended = false)
    (fresh : w.taken = []) (beats : 0 < w.beats) (blocks : 0 < w.blocks) (due : w.from_ ≤ m.now) (h : m.GivesUp 0 x) :
    (m.rawBeat p beat).pwr = x.giveUp := by
  have mine : ¬ (w.port ≠ p ∨ w.ended = true) := by simp [port, runs]
  have more : ¬ w.taken.length = w.beats := by rw [fresh]; exact Nat.ne_of_lt beats
  have begun : ¬ (m.put F.ADC_RAW_STATUS_BEATS_DONE w.taken.length).now < w.from_ := Nat.not_lt.mpr due
  have stored : 0 < w.blocks * (m.put F.ADC_RAW_STATUS_BEATS_DONE w.taken.length).entryBytes p := Nat.mul_pos blocks (Mach.entryBytes_pos ..)
  simp only [Mach.rawBeat, hw, if_neg mine, if_neg more, if_neg begun, Mach.modAdc_pwr]
  exact Mach.rawStore_pwr (h.imp_left fun ⟨state, chosen, pwr⟩ =>
    ⟨(Mach.get_put_ne m _ (by decide)).trans state, (Mach.get_put_ne m _ (by decide)).trans chosen, pwr⟩) (burstsOf_ne_nil _ _ stored)

theorem Mach.reach_of_le {m : Mach} {edge : Nat} (h : edge ≤ m.count) : m.reach edge = m := if_neg (Nat.not_lt.mpr h)

theorem Mach.applyDomain_of_not_pending {m : Mach} {d : Nat} (h : m.pendingIn d = false) : m.applyDomain d = m := by
  simp [Mach.applyDomain, h]

theorem Mach.drainEnd_of_none {m : Mach} (h : m.pwr.drain = none) : m.drainEnd = m := by
  simp [Mach.drainEnd, h]

/-- The end of a plan restart that nothing ends early is the first t_B of an acquisition. -/
theorem Mach.restartEnd_of_runs {m : Mach} {p : Port} {edge : Nat} (h : (m.acqOf p).restarting = some edge) (hd : m.pwr.drain = none)
    (hr : (m.acqOf p).resetWrite = none) (hm : m.get F.SYS_STATE_MODE ≠ 2) (hc : m.pendingIn (portIx p) = false)
    (hrun : m.on (F.ESC_CTRL_RUN (portIx p)) = true) (he : edge ≤ m.count) :
    m.restartEnd p = m.startBeat p edge false (m.on (F.AFE_CFE_CTRL_FIXED (portIx p))) := by
  simp [Mach.restartEnd, h, hd, hr, hm, Mach.reach_of_le he, Mach.applyDomain_of_not_pending hc, hrun]

/-- The end of a plan restart of port A, with a scheduled wake, a raw window that waits for a beat of the port, and an entry to self-refresh chosen on channel 0. -/
def Mach.restartWakes : Mach :=
  let m := Mach.runningWith [(F.ESC_STATUS_RUNNING 0, 1), (F.ESC_STATUS_RESTARTING 0, 1), (F.ESC_CTRL_RUN 0, 1), (F.MC_STATUS_STATE 0, 2), (F.MC_STATUS_SR 0, 1)]
  { m with
    pwr := { m.pwr with wakeAt := some 0 }
    acq := ⟨{ restarting := some 0 }, {}⟩
    adc := { m.adc with raw := some { port := .A, start := 0, blocks := 1, beats := 1, from_ := 0 } } }

/-- What `startBeat` does before the raw window's share leaves the window, and the channel with the chosen entry, as they stand. -/
theorem Mach.restartWakes_rawBeat : ∃ x : Mach, Mach.restartWakes.startBeat .A 0 false false = ((x.rawBeat .A 0).syncBeat .A).syncDts ∧
    x.adc.raw = Mach.restartWakes.adc.raw ∧ x.mcState 0 = 2 ∧ x.get (F.MC_STATUS_SR 0) = 1 ∧ x.pwr = Mach.restartWakes.pwr :=
  ⟨_, rfl, by decide +kernel, by decide +kernel, by decide +kernel, by decide +kernel⟩

@[simp] theorem Mach.syncBeat_pwr (m : Mach) (p : Port) : (m.syncBeat p).pwr = m.pwr := rfl

@[simp] theorem Mach.syncDts_pwr (m : Mach) : m.syncDts.pwr = m.pwr := rfl

theorem Mach.restartWakes_restartEnd : (Mach.restartWakes.restartEnd .A).pwr = Mach.restartWakes.pwr.giveUp := by
  have ranging : Mach.restartWakes.on (F.AFE_CFE_CTRL_FIXED (portIx .A)) = false := by decide +kernel
  have starts := Mach.restartEnd_of_runs (m := Mach.restartWakes) (p := .A) (edge := 0) rfl rfl rfl (by decide +kernel) (by decide +kernel)
    (by decide +kernel) (Nat.zero_le _)
  obtain ⟨x, e, raw, state, chosen, pwr⟩ := Mach.restartWakes_rawBeat
  rw [starts, ranging, e, Mach.syncDts_pwr, Mach.syncBeat_pwr]
  exact Mach.rawBeat_pwr 0 raw rfl rfl rfl (by decide) (by decide) (Nat.zero_le _) (.inl ⟨state, chosen, pwr⟩)

/-- Refutes O27: a start of a beat can change the supplies. The raw window stores its share of the beat, its first burst requests a memory channel whose entry into
self-refresh is chosen, and the request gives the entry up with the scheduled wake (R337); from `Mach.restartWakes` the end of the plan restart so clears `wakeAt`. -/
theorem not_beats : ¬ Obligations.Beats := by
  intro h
  let s := State.ofMach Mach.restartWakes
  have up : s.m.fabricUp = true := by decide +kernel
  obtain ⟨-, -, -, -, -, ends, -⟩ := h s .A up
  have running := ends 0 rfl rfl (by decide +kernel) rfl (by decide +kernel) (by decide +kernel)
  have given : (s.m.restartEnd .A).pwr = s.m.pwr.giveUp := Mach.restartWakes_restartEnd
  have same : (s.m.restartEnd .A).drainEnd = s.m.restartEnd .A := Mach.drainEnd_of_none (by rw [given]; rfl)
  obtain ⟨-, -, -, -, -, -, -, kept, -⟩ := running.of_exec (t := s.liveSaves fun m => (m.restartEnd .A).drainEnd) rfl
  rw [State.liveSaves_m up, same, given] at kept
  exact absurd (congrArg Power.wakeAt kept) (by decide)

end Sys2Proof.Machine
end

section
/-!
PROOFS of the sensing system's statements (01_sensing_system): FramesAndForwarding is refuted by a residence entry that expires across a wrap of the coarse count.
-/
namespace Sys2Proof.Machine

/-! ### A wrap of the coarse count -/

/-- R114: a wrap of the coarse count sets TIS.STATUS.OVF. -/
theorem Mach.get_runClocks_ovf {m : Mach} {n : Nat} (trim : Int) (up k : Nat) (wraps : 2 ^ 48 ≤ m.clk.coarse + n) :
    (m.runClocks trim up k n).get F.TIS_STATUS_OVF = 1 := by
  rw [Mach.runClocks, if_neg (Nat.not_lt.mpr wraps), Mach.get_put_same]
  rfl

theorem Mach.get_advance_ovf {m : Mach} {n : Nat} (awake : m.napping = false) (wraps : 2 ^ 48 ≤ m.clk.coarse + n) :
    (m.advance n).get F.TIS_STATUS_OVF = 1 := by
  rw [Mach.advance, if_neg (by simp [awake])]
  exact Mach.get_runClocks_ovf _ _ _ wraps

theorem Mach.get_reachNs_ovf {m : Mach} {time : Nat} (awake : m.napping = false) (later : m.now < time)
    (wraps : 2 ^ 48 ≤ m.clk.coarse + m.cyclesUntil time) : (m.reachNs time).get F.TIS_STATUS_OVF = 1 := by
  rw [Mach.reachNs, if_pos later]
  exact Mach.get_advance_ovf awake wraps

/-! ### The expiry of a residence entry -/

/-- A change of a forwarding direction shows in its level alone of all the registers. -/
theorem Mach.get_modFwd (m : Mach) (k : Nat) (f : Forward → Forward) {g : Fld} (h : g.key ≠ F.NET_FWD_LEVEL_P2_P3.key)
    (h' : g.key ≠ F.NET_FWD_LEVEL_P3_P2.key) : (m.modFwd k f).get g = m.get g := by
  rw [Mach.modFwd, Mach.get_put_ne]
  · rfl
  · split
    · exact h
    · exact h'

/-- R368: an entry that is found leaves its table 1 s after it was made. -/
theorem Mach.tcExpire_of_find {m : Mach} {n domain source seqId : Nat} {x : TcEntry} (port : 2 ≤ n)
    (found : (m.net.fwd.ix (fwdDir (5 - n))).table.find? (fun e => e.domain == domain && e.source == source && e.seqId == seqId) = some x) :
    m.tcExpire n domain source seqId = (m.reachNs (x.made + 1000000000)).modFwd (fwdDir (5 - n)) fun y =>
      { y with table := y.table.eraseP fun e => e.domain == domain && e.source == source && e.seqId == seqId } := by
  simp only [Mach.tcExpire, found, if_neg (Nat.not_lt.mpr port)]

/-- A field outside `fs` reads as before. -/
theorem Keeps.get {fs : List Fld} {m m' : Mach} (h : Keeps fs m m') {g : Fld} (outside : g.key ∉ fs.map Fld.key) : m'.get g = m.get g :=
  h g.key outside

/-- The residence entry of a two-step Sync, made when device time and the coarse count have run together to the last cycle before the first wrap of the count. -/
def TcEntry.beforeWrap : TcEntry :=
  { domain := 0, source := 0, seqId := 0, enters := (2 ^ 48 - 1) * 1024, leaves := (2 ^ 48 - 1) * 1024, made := (2 ^ 48 - 1) * 5 / 6 }

/-- The core one cycle before the first wrap of the coarse count, with `TcEntry.beforeWrap` alone in the direction from P2 to P3. -/
def Mach.beforeWrap : Mach :=
  let m := Mach.runningWith [(F.PTP_TC_CTRL_MODE, 1)]
  { m with
    clk := { m.clk with coarse := 2 ^ 48 - 1, dev := TcEntry.beforeWrap.made }
    net := { m.net with fwd := ⟨{ table := [TcEntry.beforeWrap] }, {}⟩ } }

theorem Mach.beforeWrap_expires : (Mach.beforeWrap.tcExpire 2 0 0 0).get F.TIS_STATUS_OVF = 1 := by
  rw [Mach.tcExpire_of_find (x := TcEntry.beforeWrap) (by decide) rfl, Mach.get_modFwd _ _ _ (by decide) (by decide)]
  exact Mach.get_reachNs_ovf (by decide +kernel) (by decide +kernel) (by decide +kernel)

/-- Refutes O54: the frame of TC_ENTRY_EXPIRE names no register but the direction's level, while its time comes to 1 s after the entry was made, and a wrap of the
coarse count on the way sets TIS.STATUS.OVF (R114). From `Mach.beforeWrap` the expiry so raises OVF from 0 to 1. -/
theorem not_framesAndForwarding : ¬ Obligations.FramesAndForwarding := by
  intro h
  let s := State.ofMach Mach.beforeWrap
  have up : s.m.fabricUp = true := by decide +kernel
  obtain ⟨-, -, -, expiry, -⟩ := h s 2 (by decide) up
  obtain ⟨found, -⟩ := expiry 0 0 0
  have expired := found TcEntry.beforeWrap (by decide) rfl
  obtain ⟨-, -, -, kept⟩ := expired.of_exec (t := s.liveAt 4 2 fun m => m.tcExpire 2 0 0 0) rfl
  have level : F.TIS_STATUS_OVF.key ∉ [F.NET_FWD_LEVEL_P2_P3].map Fld.key := by decide
  have same := Keeps.get (fs := [F.NET_FWD_LEVEL_P2_P3]) kept level
  rw [State.liveAt_of s _ up (by decide), State.upd_m, show s.m = Mach.beforeWrap from rfl, Mach.beforeWrap_expires] at same
  exact absurd same (by decide +kernel)

end Sys2Proof.Machine
end

section
/-!
PROOFS of the register interface's statements (04_register_interface): what an access that is not performed leaves (R71, R75, R76, R90), the interrupt request (R88)
and the frames of the management SPI (R84 to R87).
-/
namespace Sys2Proof.Machine

/-! ### Commands that change the machine, and those that may save the boot counter -/

theorem NonVol.writeRecord_eq (nv : NonVol) (counter running slot imgSeq : Nat) : nv.writeRecord counter running slot imgSeq =
    { nv with boot0 := (nv.writeRecord counter running slot imgSeq).boot0, boot1 := (nv.writeRecord counter running slot imgSeq).boot1 } := by
  unfold NonVol.writeRecord
  extract_lets new higher1
  clear_value higher1
  split
  · rfl
  · split <;> rfl

/-- Saving the boot counter writes the two copies of the boot record alone (R50, R60). -/
theorem State.saveCounter_eq (s : State) :
    s.saveCounter = { s with nv := { s.nv with boot0 := s.saveCounter.nv.boot0, boot1 := s.saveCounter.nv.boot1 } } := by
  unfold State.saveCounter
  split
  · split
    · exact congrArg (fun nv => ({ s with nv := nv } : State)) (NonVol.writeRecord_eq _ _ _ _ _)
    · rfl
  · rfl

theorem State.saves_eq (s : State) (f : Mach → Mach) :
    s.saves f = { pending := s.pending, nv := { s.nv with boot0 := (s.saves f).nv.boot0, boot1 := (s.saves f).nv.boot1 }, m := f s.m } := by
  unfold State.saves State.saved
  split
  · exact State.saveCounter_eq (s.upd f)
  · rfl

section
variable {c : Instr} {s : State} {f : Mach → Mach} {m' : Mach}

theorem Completes.upd {P : Mach → Prop} (e : exec c s = .next (s.upd f)) (h : f s.m = m') (p : P m') : Completes c s P := by
  subst h
  exact ⟨_, e, p⟩

/-- An effect that leaves the boot part saves nothing. -/
theorem Completes.saves {P : Mach → Prop} (e : exec c s = .next (s.saves f)) (h : f s.m = m') (boot : m'.boot = s.m.boot) (p : P m') :
    Completes c s P := by
  subst h
  have unsaved : s.saves f = s.upd f := if_neg (Nat.not_lt.mpr (Nat.le_of_eq (congrArg Boot.counter boot)))
  exact ⟨_, e.trans (congrArg _ unsaved), p⟩

theorem CompletesNv.saves {P : NonVol → Mach → Prop} (e : exec c s = .next (s.saves f)) (h : f s.m = m')
    (p : ∀ nv : NonVol, nv = { s.nv with boot0 := nv.boot0, boot1 := nv.boot1 } → P nv m') : CompletesNv c s P := by
  subst h
  exact ⟨_, _, e.trans (congrArg _ (s.saves_eq f)), p _ rfl⟩

end

/-! ### A counted refusal -/

/-- The registers that count one kind of refused access, and the number of the event that the first one issues in class 4. -/
structure RefusalLog where
  count : Fld
  write : Fld
  cls   : Fld
  addr  : Fld
  event : Nat
  silent : ∀ f ∈ [count, write, cls, addr], f.key ≠ F.EVT_PEND.key ∧ f.key ≠ F.EVT_LOG_COUNT_LOST.key
  apart : ([count, write, cls, addr].map Fld.key).Nodup
  oneBit : write.width = 1
  twoBits : cls.width = 2

namespace RefusalLog

/-- ACC_ERR_CNT and ACC_ERR_LAST (R75, R76, R90). -/
def accErr : RefusalLog :=
  ⟨F.SYS_ACC_ERR_CNT_COUNT, F.SYS_ACC_ERR_LAST_WRITE, F.SYS_ACC_ERR_LAST_CLASS, F.SYS_ACC_ERR_LAST_ADDR, 1, by decide, by decide, rfl, rfl⟩

/-- VIOL_CNT and VIOL_LAST (R71). -/
def violation : RefusalLog :=
  ⟨F.SYS_VIOL_CNT_COUNT, F.SYS_VIOL_LAST_WRITE, F.SYS_VIOL_LAST_CLASS, F.SYS_VIOL_LAST_ADDR, 0, by decide, by decide, rfl, rfl⟩

/-- The fields that a refusal writes. -/
def fields (l : RefusalLog) : List Fld := [l.count, l.write, l.cls, l.addr]

/-- The four fields after an access has been counted. -/
def kept (l : RefusalLog) (m : Mach) (x : BusAccess) (addr : Nat) (write : Bool) : Mach :=
  (((m.bump l.count).put l.write (bit write)).put l.cls x.cls).put l.addr addr

/-- The access is counted and kept, and the first one issues the event. -/
def counted (l : RefusalLog) (m : Mach) (x : BusAccess) (addr : Nat) (write : Bool) : Mach :=
  if m.get l.count == 0 then (l.kept m x addr write).emit 4 l.event 0 0 else l.kept m x addr write

theorem accErr_counted (m : Mach) (x : BusAccess) (addr : Nat) (write : Bool) : accErr.counted m x addr write = m.accErr x addr write := rfl

theorem violation_counted (m : Mach) (x : BusAccess) (addr : Nat) (write : Bool) : violation.counted m x addr write = m.violation x addr write := rfl

variable (l : RefusalLog) (m : Mach) (x : BusAccess) (addr : Nat) (write : Bool)

@[simp] theorem counted_boot : (l.counted m x addr write).boot = m.boot := by
  unfold counted
  split
  · exact Mach.emit2_boot _ _ _ _ _ _
  · rfl

@[simp] theorem counted_mgmt : (l.counted m x addr write).mgmt = m.mgmt := by
  unfold counted
  split
  · exact Mach.emit2_mgmt _ _ _ _ _ _
  · rfl

/-- The event leaves every field of the log as the access left it. -/
theorem get_counted {g : Fld} (h : g ∈ l.fields) : (l.counted m x addr write).get g = (l.kept m x addr write).get g := by
  unfold counted
  split
  · exact Mach.get_emit2 _ _ _ _ _ _ _ (l.silent g h).1 (l.silent g h).2
  · rfl

theorem eventful_counted : Eventful l.fields m (l.counted m x addr write) := by
  refine Mach.eventful_of_put (Mach.eventful_of_put (Mach.eventful_of_put (Mach.eventful_of_put (?_ : Eventful [] (l.kept m x addr write) _))))
  unfold counted
  split
  · exact Mach.emit2_eventful _ _ _ _ _ _
  · exact Mach.eventful_refl _

/-- What a refusal leaves from `m` to `m'` (R71, R75, R76, R90). -/
structure Counts (l : RefusalLog) (x : BusAccess) (addr : Nat) (write : Bool) (m m' : Mach) : Prop where
  count : m'.get l.count = min (m.get l.count + 1) l.count.max
  write : m'.get l.write = bit write
  cls : x.cls < 4 → m'.get l.cls = x.cls
  addr : m'.get l.addr = addr % 2 ^ l.addr.width
  issues : m.get l.count = 0 → Issues 4 l.event 0 0 m m'
  frame : Eventful l.fields { m with bus := m'.bus } m'

/-- The four fields hold what the access put in them, as no two of them are one. -/
theorem kept_fields : (l.kept m x addr write).get l.count = min (m.get l.count + 1) l.count.max ∧ (l.kept m x addr write).get l.write = bit write ∧
    (x.cls < 4 → (l.kept m x addr write).get l.cls = x.cls) ∧ (l.kept m x addr write).get l.addr = addr % 2 ^ l.addr.width := by
  have apart := l.apart
  simp only [List.map_cons, List.map_nil, List.nodup_cons, List.mem_cons, List.not_mem_nil, or_false, not_or] at apart
  obtain ⟨⟨countWrite, countCls, countAddr⟩, ⟨writeCls, writeAddr⟩, clsAddr, -⟩ := apart
  have below : min (m.get l.count + 1) l.count.max < 2 ^ l.count.width :=
    Nat.lt_of_le_of_lt (Nat.min_le_right _ _) (Nat.sub_lt (Nat.two_pow_pos _) Nat.one_pos)
  have dir : bit write < 2 := by cases write <;> decide
  refine ⟨?_, ?_, fun h => ?_, Mach.get_put_same _ _ _⟩
  · simp [kept, Mach.get_put_ne, countWrite, countCls, countAddr, Nat.mod_eq_of_lt below]
  · simp [kept, Mach.get_put_ne, writeCls, writeAddr, l.oneBit, Nat.mod_eq_of_lt dir]
  · simp [kept, Mach.get_put_ne, clsAddr, l.twoBits, Nat.mod_eq_of_lt h]

/-- Every refusal that the bus answers is counted, and its answer is all that it changes beside. -/
theorem counts_answer (data : Nat) (err : Bool) : l.Counts x addr write m ((l.counted m x addr write).answer data err) := by
  obtain ⟨count, dir, cls, at_⟩ := l.kept_fields m x addr write
  have read : ∀ g ∈ l.fields, ((l.counted m x addr write).answer data err).get g = (l.kept m x addr write).get g :=
    fun g h => l.get_counted m x addr write h
  obtain ⟨same, keeps⟩ := l.eventful_counted m x addr write
  refine ⟨?_, ?_, fun h => ?_, ?_, fun first => ?_, ?_, keeps⟩
  · exact (read _ (by simp [fields])).trans count
  · exact (read _ (by simp [fields])).trans dir
  · exact (read _ (by simp [fields])).trans (cls h)
  · exact (read _ (by simp [fields])).trans at_
  · have e : l.counted m x addr write = (l.kept m x addr write).emit 4 l.event 0 0 := if_pos (by simp [first])
    rw [e]
    exact Mach.emit2_issues (l.kept m x addr write) l.event 0 0 0 (by decide)
  · exact congrArg (·.answer data err) same

end RefusalLog

section
variable (m : Mach) (x : BusAccess) (addr : Nat) (write : Bool)

@[simp] theorem Mach.accErr_boot : (m.accErr x addr write).boot = m.boot := by
  rw [← RefusalLog.accErr_counted, RefusalLog.counted_boot]

@[simp] theorem Mach.accErr_mgmt : (m.accErr x addr write).mgmt = m.mgmt := by
  rw [← RefusalLog.accErr_counted, RefusalLog.counted_mgmt]

@[simp] theorem Mach.violation_boot : (m.violation x addr write).boot = m.boot := by
  rw [← RefusalLog.violation_counted, RefusalLog.counted_boot]

@[simp] theorem Mach.violation_mgmt : (m.violation x addr write).mgmt = m.mgmt := by
  rw [← RefusalLog.violation_counted, RefusalLog.counted_mgmt]

theorem Mach.accErr_counts (data : Nat) (err : Bool) : RefusalLog.accErr.Counts x addr write m ((m.accErr x addr write).answer data err) := by
  rw [← RefusalLog.accErr_counted]
  exact RefusalLog.accErr.counts_answer m x addr write data err

theorem Mach.violation_counts (data : Nat) (err : Bool) : RefusalLog.violation.Counts x addr write m ((m.violation x addr write).answer data err) := by
  rw [← RefusalLog.violation_counted]
  exact RefusalLog.violation.counts_answer m x addr write data err

end

/-! ### Accesses that are not performed -/

theorem Mach.accessOf_cls_lt (m : Mach) (who : Master) (v : Bool) : (m.accessOf who v).cls < 4 := by
  cases who <;> simp [Mach.accessOf]

section
variable {m : Mach} {who : Master} {addr w a : Nat} {v : Bool}

theorem Mach.readBy_unheard (h : m.heard who = false) : m.readBy who v addr = m := by
  simp [Mach.readBy, h]

theorem Mach.writeBy_unmapped (hs : m.pwr.supply = true) (ht : targetOf addr = .unmapped) (hj : ∀ e, who ≠ .jewel e) (hh : m.heard who = true) :
    m.writeBy who addr w = (m.accErr (m.accessOf who false) addr true).answer 0 true := by
  simp [Mach.writeBy, Mach.writeLogBy, Mach.busWriteLog, hs, ht, hh, Mach.accessOf_cls m who false hj]

theorem Mach.readBy_unmapped (hs : m.pwr.supply = true) (ht : targetOf addr = .unmapped) (hj : ∀ e, who ≠ .jewel e) (hh : m.heard who = true) :
    m.readBy who v addr = (m.accErr (m.accessOf who v) addr false).answer 0 true := by
  simp [Mach.readBy, Mach.busRead, hs, ht, hh, Mach.accessOf_cls m who v hj]

/-- R71: a write of a guarded register by a master that is not secure. -/
theorem Mach.writeBy_guarded (hs : m.pwr.supply = true) (ht : targetOf addr = .reg a) (hg : guardedAt a = true) (hj : ∀ e, who ≠ .jewel e)
    (hh : m.heard who = true) (insecure : (m.accessOf who false).secure = false) :
    m.writeBy who addr w = (m.violation (m.accessOf who false) addr true).answer 0 false := by
  simp [Mach.writeBy, Mach.writeLogBy, Mach.busWriteLog, Mach.writeAt, hs, ht, hh, hg, insecure, Mach.accessOf_cls m who false hj]

/-- R71: an engine writes nothing. -/
theorem Mach.writeBy_jewel {e : Nat} (hs : m.pwr.supply = true) :
    m.writeBy (.jewel e) addr w = (m.violation ⟨3, false, false, e⟩ addr true).answer 0 false := by
  simp [Mach.writeBy, Mach.writeLogBy, Mach.busWriteLog, Mach.heard, Mach.accessOf, hs]

end

/-- Settles O21: a closed session's access is discarded; every other access of the statement comes to a counted refusal. -/
theorem accessesRefused : Obligations.AccessesRefused := by
  intro s who addr w hs accErr viol
  refine ⟨fun closed => ?_, fun outside hj heard => ?_, fun a ht guarded hn heard insecure => ?_, fun e => ?_⟩
  · exact ⟨Completes.saves rfl (Mach.writeBy_unheard closed) rfl rfl, Completes.upd rfl (Mach.readBy_unheard closed) rfl⟩
  · have wrote := s.m.accErr_counts (s.m.accessOf who false) addr true 0 true
    have read := s.m.accErr_counts (s.m.accessOf who false) addr false 0 true
    have cls := wrote.cls (s.m.accessOf_cls_lt who false)
    exact ⟨Completes.saves rfl (Mach.writeBy_unmapped hs outside hj heard) (Mach.accErr_boot _ _ _ _)
        ⟨wrote.count, wrote.write, cls, wrote.addr, wrote.issues, wrote.frame⟩,
      Completes.upd rfl (Mach.readBy_unmapped hs outside hj heard) ⟨read.count, read.write, read.frame⟩⟩
  · obtain ⟨n, rfl⟩ := hn
    have wrote := s.m.violation_counts (s.m.accessOf (.session n) false) addr true 0 false
    have cls := wrote.cls (s.m.accessOf_cls_lt _ false)
    exact Completes.saves rfl (Mach.writeBy_guarded hs ht guarded (fun _ h => Master.noConfusion h) heard insecure)
      (Mach.violation_boot _ _ _ _) ⟨wrote.count, wrote.write, cls, wrote.addr, wrote.issues, wrote.frame⟩
  · have wrote := s.m.violation_counts ⟨3, false, false, e⟩ addr true 0 false
    exact Completes.saves rfl (Mach.writeBy_jewel hs) (Mach.violation_boot _ _ _ _)
      ⟨wrote.count, wrote.cls (Nat.lt_succ_self 3), wrote.frame⟩

/-! ### The frames of the management SPI, case by case (R84 to R87) -/

theorem resultByte_false : resultByte false false false = 0x80 := by decide

theorem resultByte_prot : resultByte false false true = 0x90 := by decide

@[simp] theorem length_leBytes : ∀ n v : Nat, (leBytes n v).length = n
  | 0, _ => rfl
  | n + 1, v => congrArg (· + 1) (length_leBytes n (v / 256))

@[simp] theorem length_beBytes (n v : Nat) : (beBytes n v).length = n := by
  rw [beBytes, List.length_reverse, length_leBytes]

section
variable {m : Mach} {cmd : Byte} {addr : Word}

theorem Mach.mgmtRead_reserved (serves : m.mgmt.serving = true) (op : opOf cmd = 3) : m.mgmtRead cmd addr = m.protFrame false := by
  simp [Mach.mgmtRead, serves, op]

theorem Mach.mgmtRead_protError (serves : m.mgmt.serving = true) (op : opOf cmd = 0) (bad : protError cmd addr = true) :
    m.mgmtRead cmd addr = m.protFrame true := by
  simp [Mach.mgmtRead, serves, op, bad]

/-- A READ frame without error: its words in order, and the CRC-8 of their data when it is enabled (R85, R86). -/
theorem Mach.mgmtRead_words (serves : m.mgmt.serving = true) (op : opOf cmd = 0) (good : protError cmd addr = false) :
    m.mgmtRead cmd addr = (spiReads cmd addr (cmd.toNat % 16 + 1) 0 (m.spiWakes cmd addr)).1.modMgmt fun g =>
      let l := (spiReads cmd addr (cmd.toNat % 16 + 1) 0 (m.spiWakes cmd addr)).2
      { g with
        result := resultByte (l.any (·.err)) false false
        sdo := driven l ++ if m.on F.SYS_MGMT_CTRL_CRC_EN then [BitVec.ofNat 8 (crc8 (l.flatMap fun r => beBytes 4 r.data.toNat))] else [] } := by
  simp [Mach.mgmtRead, serves, op, good]

theorem Mach.mgmtCut_protError {cut : FrameCut} (serves : m.mgmt.serving = true) (bad : protError cmd addr = true) (shown : 0 < cut.bytes) :
    m.mgmtCut cmd addr cut = (m.protFrame (decide (opOf cmd < 2))).drives (List.replicate cut.bytes (resultByte false false true)) := by
  simp [Mach.mgmtCut, serves, bad, Nat.ne_of_gt shown]

/-- A cut WRITE frame has driven nothing (R87). -/
theorem Mach.mgmtCut_write {cut : FrameCut} (serves : m.mgmt.serving = true) (op : opOf cmd = 1) (h : cut.bytes = 0 ∨ protError cmd addr = false) :
    m.mgmtCut cmd addr cut = m.drives [] := by
  cases bad : protError cmd addr with
  | false => simp [Mach.mgmtCut, serves, bad, op]
  | true =>
    have unseen : cut.bytes = 0 := h.resolve_right (by simp [bad])
    simp [Mach.mgmtCut, serves, bad, unseen]

/-- A cut READ frame: the words that were accessed, as far as they were driven (R85). -/
theorem Mach.mgmtCut_read {cut : FrameCut} (serves : m.mgmt.serving = true) (op : opOf cmd = 0) (good : protError cmd addr = false) :
    m.mgmtCut cmd addr cut =
      let r := spiReads cmd addr (min cut.accessed (cmd.toNat % 16 + 1)) 0 (m.spiWakes cmd addr)
      r.1.drives ((driven r.2).take cut.bytes) := by
  simp [Mach.mgmtCut, serves, op, good]

theorem Mach.mgmtStatus_serves (serves : m.mgmt.serving = true) (op : opOf cmd = 2) (good : protError cmd 0 = false) :
    m.mgmtStatus cmd = m.drives m.statusBytes := by
  simp only [Mach.mgmtStatus, serves, op, good]
  rfl

section
variable {data : List Word} {crc : Option Byte}

theorem Mach.mgmtWrite_protError (serves : m.mgmt.serving = true) (op : opOf cmd = 1) (bad : protError cmd addr = true) :
    m.mgmtWrite cmd addr data crc = m.protFrame true := by
  simp [Mach.mgmtWrite, serves, op, bad]

/-- A WRITE frame without its last byte has no effect (R87). -/
theorem Mach.mgmtWrite_short (serves : m.mgmt.serving = true) (op : opOf cmd = 1) (good : protError cmd addr = false)
    (short : data.length < cmd.toNat % 16 + 1 ∨ (m.on F.SYS_MGMT_CTRL_CRC_EN = true ∧ crc = none)) : m.mgmtWrite cmd addr data crc = m.drives [] := by
  obtain few | ⟨en, missing⟩ := short
  · simp [Mach.mgmtWrite, serves, op, good, few]
  · simp [Mach.mgmtWrite, serves, op, good, en, missing]

/-- A WRITE frame whose CRC fails performs nothing and shows it (R86, R87). -/
theorem Mach.mgmtWrite_badCrc {c : Byte} (serves : m.mgmt.serving = true) (op : opOf cmd = 1) (good : protError cmd addr = false)
    (full : cmd.toNat % 16 + 1 ≤ data.length) (en : m.on F.SYS_MGMT_CTRL_CRC_EN = true)
    (bad : c ≠ BitVec.ofNat 8 (crc8 (cmd :: beBytes 4 addr.toNat ++ (data.take (cmd.toNat % 16 + 1)).flatMap fun w => beBytes 4 w.toNat))) :
    m.mgmtWrite cmd addr data (some c) =
      m.modMgmt fun g => { g with result := resultByte false true false, sdo := [resultByte false true false] } := by
  rw [List.cons_append] at bad
  simp [Mach.mgmtWrite, serves, op, good, Nat.not_lt.mpr full, en, bad]

/-- A WRITE frame that is complete, with no CRC to check: its words in order (R87). -/
theorem Mach.mgmtWrite_words (serves : m.mgmt.serving = true) (op : opOf cmd = 1) (good : protError cmd addr = false)
    (full : cmd.toNat % 16 + 1 ≤ data.length) (dis : m.on F.SYS_MGMT_CTRL_CRC_EN = false) :
    m.mgmtWrite cmd addr data crc =
      let r := spiWrites cmd addr 0 (data.take (cmd.toNat % 16 + 1)) (m.spiWakes cmd addr)
      r.1.modMgmt fun g => { g with result := resultByte r.2 false false, sdo := [resultByte r.2 false false] } := by
  simp [Mach.mgmtWrite, serves, op, good, dis, Nat.not_lt.mpr full]

end
end

/-! ### What the register bus and a wake leave of the management port -/

theorem Mach.foldl_mgmt {α : Type} {f : Mach → α → Mach} (hf : ∀ m x, (f m x).mgmt = m.mgmt) (l : List α) (m : Mach) : (l.foldl f m).mgmt = m.mgmt :=
  List.foldlRecOn (motive := fun x => x.mgmt = m.mgmt) l f rfl fun x h a _ => (hf x a).trans h

@[simp] theorem Mach.answer_mgmt (m : Mach) (data : Nat) (err : Bool) : (m.answer data err).mgmt = m.mgmt := rfl

@[simp] theorem Mach.putLatch_mgmt (m : Mach) (x : BusAccess) (low v : Nat) : (m.putLatch x low v).mgmt = m.mgmt := by
  unfold Mach.putLatch
  split <;> rfl

@[simp] theorem Mach.readSync_mgmt (m : Mach) (a : Nat) : (m.readSync a).mgmt = m.mgmt := by
  unfold Mach.readSync Mach.syncIdle
  split
  · split <;> rfl
  · rfl

@[simp] theorem Mach.regRead_mgmt (m : Mach) (x : BusAccess) (r : RegRow) (a mask : Nat) : (m.regRead x r a mask).1.mgmt = m.mgmt := by
  unfold Mach.regRead
  dsimp only
  rw [Mach.foldl_mgmt fun m f => by split <;> rfl]
  split <;> split <;> simp

@[simp] theorem Mach.readAt_mgmt (m : Mach) (x : BusAccess) (addr a mask shift : Nat) : (m.readAt x addr a mask shift).mgmt = m.mgmt := by
  unfold Mach.readAt
  split
  · simp
  · split
    · simp
    · split <;> simp

/-- A read on the register bus leaves the management port. -/
@[simp] theorem Mach.busRead_mgmt (m : Mach) (x : BusAccess) (addr : Nat) : (m.busRead x addr).mgmt = m.mgmt := by
  unfold Mach.busRead
  split
  · rfl
  · split
    · simp
    · split
      · simp
      · split <;> simp
      · split <;> simp
      · split <;> simp
      · split <;> simp
      · simp

/-- R435: a frame that addresses the core in NAP or SLEEP begins a wake. -/
theorem Mach.spiWakes_eq (m : Mach) (cmd : Byte) (addr : Word) :
    m.spiWakes cmd addr = if 3 ≤ m.get F.SYS_PWR_STATE_PSTATE ∧ m.pwr.waking = none ∧ ∃ i < cmd.toNat % 16 + 1, addressesCore (frameAddr cmd addr i) = true
      then { m with pwr := { m.pwr with waking := some m.now } } else m := by
  have anyCore : (List.range (cmd.toNat % 16 + 1)).any (fun i => addressesCore (frameAddr cmd addr i)) = true ↔
      ∃ i < cmd.toNat % 16 + 1, addressesCore (frameAddr cmd addr i) = true := by
    simp only [List.any_eq_true, List.mem_range]
  simp only [Mach.spiWakes, Mach.modPwr, Option.isNone_iff_eq_none, anyCore]

@[simp] theorem Mach.spiWakes_mgmt (m : Mach) (cmd : Byte) (addr : Word) : (m.spiWakes cmd addr).mgmt = m.mgmt := by
  unfold Mach.spiWakes
  split <;> rfl

@[simp] theorem Mach.spiWakes_on (m : Mach) (cmd : Byte) (addr : Word) (f : Fld) : (m.spiWakes cmd addr).on f = m.on f := by
  unfold Mach.spiWakes
  split <;> rfl

/-! ### The words of a frame -/

theorem frameAddr_zero (cmd : Byte) (addr : Word) : frameAddr cmd addr 0 = addr.toNat := by
  simp [frameAddr]

@[simp] theorem spiReads_mgmt (cmd : Byte) (addr : Word) : ∀ (n i : Nat) (m : Mach), (spiReads cmd addr n i m).1.mgmt = m.mgmt
  | 0, _, _ => rfl
  | n + 1, i, m => (spiReads_mgmt cmd addr n (i + 1) _).trans (m.busRead_mgmt _ _)

@[simp] theorem length_spiReads (cmd : Byte) (addr : Word) : ∀ (n i : Nat) (m : Mach), (spiReads cmd addr n i m).2.length = n
  | 0, _, _ => rfl
  | n + 1, i, _ => congrArg (· + 1) (length_spiReads cmd addr n (i + 1) _)

/-- A READ frame of one word is one read (R85). -/
theorem spiReads_one (cmd : Byte) (addr : Word) (m : Mach) :
    spiReads cmd addr 1 0 m = (m.busRead ⟨1, true, bitOf cmd.toNat 5, 0⟩ addr.toNat, [(m.busRead ⟨1, true, bitOf cmd.toNat 5, 0⟩ addr.toNat).bus]) := by
  rw [← frameAddr_zero cmd addr]
  rfl

/-- A WRITE frame of one word is one write (R87). -/
theorem spiWrites_one (cmd : Byte) (addr d : Word) (m : Mach) : spiWrites cmd addr 0 [d] m =
    (m.busWrite ⟨1, true, false, 0⟩ addr.toNat d.toNat, (m.busWrite ⟨1, true, false, 0⟩ addr.toNat d.toNat).bus.err) := by
  rw [spiWrites, frameAddr_zero]
  split
  · next h => rw [h]
  · next h => rw [spiWrites, eq_false_of_ne_true h]

@[simp] theorem length_driven (l : List BusResult) : (driven l).length = 5 * l.length := by
  induction l with
  | nil => rfl
  | cons r t ih => simp only [driven, List.flatMap_cons, List.length_append, List.length_cons, length_beBytes] at ih ⊢; omega

/-- The poll byte before word `i` has that word's flags. -/
theorem driven_poll : ∀ (l : List BusResult) (i : Nat), (driven l)[5 * i]? = l[i]?.map fun r => resultByte r.err false false
  | [], _ => rfl
  | _ :: _, 0 => rfl
  | _ :: t, i + 1 => driven_poll t i

/-! ### The interrupt request and the STATUS frame -/

theorem Mach.irq_iff (m : Mach) : m.irq = true ↔ m.get F.EVT_PEND &&& m.get F.EVT_IRQ_EN ≠ 0 := by
  rw [Mach.irq, bne_iff_ne]

/-- The bytes of a STATUS frame: its poll byte, then the interrupt request in bit 8 and the result byte below it, most significant byte first (R87). -/
theorem Mach.statusBytes_eq (m : Mach) : m.statusBytes = [0x80, 0, 0, if m.get F.EVT_PEND &&& m.get F.EVT_IRQ_EN = 0 then 0 else 1, m.mgmt.result] := by
  have low : ∀ k, BitVec.ofNat 8 (m.mgmt.result.toNat + 256 * k) = m.mgmt.result := fun k => by
    apply BitVec.eq_of_toNat_eq
    have := m.mgmt.result.isLt
    rw [BitVec.toNat_ofNat]
    omega
  have high : ∀ k, (m.mgmt.result.toNat + 256 * k) / 256 = k := fun k => by
    have := m.mgmt.result.isLt
    omega
  have word : ∀ k, beBytes 4 (m.mgmt.result.toNat + 256 * k) =
      [BitVec.ofNat 8 (k / 256 / 256), BitVec.ofNat 8 (k / 256), BitVec.ofNat 8 k, m.mgmt.result] := fun k => by
    simp only [beBytes, leBytes, high, low]
    rfl
  rw [Mach.statusBytes, resultByte_false, word]
  by_cases idle : m.get F.EVT_PEND &&& m.get F.EVT_IRQ_EN = 0
  · have : m.irq = false := Bool.eq_false_iff.mpr fun h => m.irq_iff.mp h idle
    rw [if_pos idle, this]
    rfl
  · rw [if_neg idle, m.irq_iff.mpr idle]
    rfl

/-- Settles O17: the request is read off its definition, and the STATUS frame's word is split into its bytes. -/
theorem interruptLine : Obligations.InterruptLine := by
  refine fun s => ⟨s.m.irq_iff, fun serves => Completes.upd rfl (Mach.mgmtStatus_serves serves (by decide) (by decide)) ?_⟩
  rw [Mach.statusBytes_eq]
  rfl

/-! ### The frames of the management SPI -/

theorem Mach.protFrame_true (m : Mach) : m.protFrame true = { m with mgmt := { m.mgmt with result := 0x90, sdo := [0x90] } } := by
  rw [← resultByte_prot]
  rfl

theorem Mach.protFrame_false (m : Mach) : m.protFrame false = { m with mgmt := { m.mgmt with sdo := [0x90] } } := by
  rw [← resultByte_prot]
  rfl

section
variable {m : Mach} {cmd : Byte} {addr : Word}

/-- A READ frame of one word: one read, after the wake that the frame may begin. -/
theorem Mach.mgmtRead_one (serves : m.mgmt.serving = true) (op : opOf cmd = 0) (good : protError cmd addr = false) (one : cmd.toNat % 16 + 1 = 1) :
    m.mgmtRead cmd addr =
      let w := m.spiWakes cmd addr
      let b := w.busRead ⟨1, true, bitOf cmd.toNat 5, 0⟩ addr.toNat
      { b with mgmt := { b.mgmt with
        result := resultByte b.bus.err false false
        sdo := resultByte b.bus.err false false :: beBytes 4 b.bus.data.toNat ++
          if w.on F.SYS_MGMT_CTRL_CRC_EN then [BitVec.ofNat 8 (crc8 (beBytes 4 b.bus.data.toNat))] else [] } } := by
  rw [Mach.mgmtRead_words serves op good, one, spiReads_one]
  simp [driven, Mach.modMgmt]

/-- A READ frame drives five bytes for each word, and one of CRC when it is enabled (R85, R86). -/
theorem Mach.length_mgmtRead_sdo (serves : m.mgmt.serving = true) (op : opOf cmd = 0) (good : protError cmd addr = false) :
    (m.mgmtRead cmd addr).mgmt.sdo.length = 5 * (cmd.toNat % 16 + 1) + bit (m.on F.SYS_MGMT_CTRL_CRC_EN) := by
  rw [Mach.mgmtRead_words serves op good]
  show (driven _ ++ _).length = _
  rw [List.length_append, length_driven, length_spiReads]
  cases m.on F.SYS_MGMT_CTRL_CRC_EN <;> rfl

/-- Each word of a READ frame has a poll byte before it (R85). -/
theorem Mach.mgmtRead_poll (serves : m.mgmt.serving = true) (op : opOf cmd = 0) (good : protError cmd addr = false) {i : Nat}
    (hi : i < cmd.toNat % 16 + 1) : ∃ e : Bool, (m.mgmtRead cmd addr).mgmt.sdo[5 * i]? = some (resultByte e false false) := by
  rw [Mach.mgmtRead_words serves op good]
  have all := length_spiReads cmd addr (cmd.toNat % 16 + 1) 0 (m.spiWakes cmd addr)
  generalize spiReads cmd addr (cmd.toNat % 16 + 1) 0 (m.spiWakes cmd addr) = r at all ⊢
  have inside : 5 * i < (driven r.2).length := by
    rw [length_driven]
    omega
  have there : r.2[i]? = some r.2[i] := List.getElem?_eq_getElem _
  refine ⟨r.2[i].err, (List.getElem?_append_left inside).trans ?_⟩
  rw [driven_poll, there]
  rfl

/-- A cut READ frame has driven what was accessed, as far as the master let it, and keeps the last frame's result (R85). -/
theorem Mach.mgmtCut_read_port {cut : FrameCut} (serves : m.mgmt.serving = true) (op : opOf cmd = 0) (good : protError cmd addr = false) :
    (m.mgmtCut cmd addr cut).mgmt.sdo.length = min cut.bytes (5 * min cut.accessed (cmd.toNat % 16 + 1)) ∧
    (m.mgmtCut cmd addr cut).mgmt.result = m.mgmt.result := by
  rw [Mach.mgmtCut_read serves op good]
  constructor
  · show ((driven _).take _).length = _
    rw [List.length_take, length_driven, length_spiReads]
  · show (spiReads _ _ _ _ _).1.mgmt.result = _
    rw [spiReads_mgmt, Mach.spiWakes_mgmt]

/-- A READ frame that is cut before any access changes the port alone, beside the wake that it may begin. -/
theorem Mach.mgmtCut_read_none {cut : FrameCut} (serves : m.mgmt.serving = true) (op : opOf cmd = 0) (good : protError cmd addr = false)
    (unread : cut.accessed = 0) : m.mgmtCut cmd addr cut = { m.spiWakes cmd addr with mgmt := (m.mgmtCut cmd addr cut).mgmt } := by
  rw [Mach.mgmtCut_read serves op good, unread, Nat.zero_min]
  rfl

/-- A WRITE frame of one word, with no CRC to check: one write, after the wake that the frame may begin. -/
theorem Mach.mgmtWrite_one {d : Word} {crc : Option Byte} (serves : m.mgmt.serving = true) (op : opOf cmd = 1) (good : protError cmd addr = false)
    (one : cmd.toNat % 16 + 1 = 1) (dis : m.on F.SYS_MGMT_CTRL_CRC_EN = false) :
    m.mgmtWrite cmd addr [d] crc =
      let b := (m.spiWakes cmd addr).busWrite ⟨1, true, false, 0⟩ addr.toNat d.toNat
      { b with mgmt := { b.mgmt with result := resultByte b.bus.err false false, sdo := [resultByte b.bus.err false false] } } := by
  have full : cmd.toNat % 16 + 1 ≤ [d].length := Nat.le_of_eq one
  rw [Mach.mgmtWrite_words serves op good full dis, one, List.take_succ_cons, List.take_zero, spiWrites_one]
  rfl

end

/-- Settles O18: each clause is one case of a frame's operation, with the wake that the frame may begin as `spiWakes`. -/
theorem mgmtFrames : Obligations.MgmtFrames := by
  intro s cmd addr serves words prot wakes w
  have hw : s.m.spiWakes cmd addr = w := s.m.spiWakes_eq cmd addr
  clear_value w
  subst hw
  refine ⟨?readBad, ?reserved, ?read, ?cutBad, ?cutWrite, ?status, ?write⟩
  case readBad =>
    exact fun op bad => Completes.upd rfl (Mach.mgmtRead_protError serves op bad) (Mach.protFrame_true _)
  case reserved =>
    exact fun op => Completes.upd rfl (Mach.mgmtRead_reserved serves op) (Mach.protFrame_false _)
  case read =>
    intro op good
    refine ⟨fun one => Completes.upd rfl (Mach.mgmtRead_one serves op good one) rfl, Completes.upd rfl rfl ⟨?_, fun i hi => ?_, ?_⟩,
      fun cut => Completes.upd rfl rfl ⟨?_, ?_, fun unread => ?_⟩⟩
    · exact Mach.length_mgmtRead_sdo serves op good
    · exact Mach.mgmtRead_poll serves op good hi
    · exact ⟨_, congrArg (·.mgmt.result) (Mach.mgmtRead_words serves op good)⟩
    · exact (Mach.mgmtCut_read_port serves op good).1
    · exact (Mach.mgmtCut_read_port serves op good).2
    · exact Mach.mgmtCut_read_none serves op good unread
  case cutBad =>
    intro cut shown op bad
    refine Completes.upd rfl (Mach.mgmtCut_protError serves bad shown) ?_
    rw [decide_eq_true op, Mach.protFrame_true, resultByte_prot]
    rfl
  case cutWrite =>
    exact fun cut op h => Completes.upd rfl (Mach.mgmtCut_write serves op h) rfl
  case status =>
    rintro rfl
    refine Completes.upd rfl (Mach.mgmtStatus_serves serves (by decide) (by decide)) ?_
    cases h : s.m.irq <;> simp [Mach.drives, Mach.modMgmt, Mach.statusBytes, h, bit]
  case write =>
    intro data crc op
    refine ⟨fun bad => ?_, fun good => ⟨fun short => ?_, fun c hc full en wrong => ?_, fun d hd one dis => ?_⟩⟩
    · exact Completes.saves rfl (Mach.mgmtWrite_protError serves op bad) rfl (Mach.protFrame_true _)
    · exact Completes.saves rfl (Mach.mgmtWrite_short serves op good short) rfl rfl
    · subst hc
      exact Completes.saves rfl (Mach.mgmtWrite_badCrc serves op good full en wrong) rfl rfl
    · subst hd
      exact CompletesNv.saves rfl (Mach.mgmtWrite_one serves op good one dis) fun nv saved => ⟨saved, rfl⟩

end Sys2Proof.Machine
end

section
/-!
PROOFS of the analogue inputs' statements (07_analogue_inputs): the faults of the inputs and of the bias outputs do as stated (InputFaults); Rangers and Housekeeping
are refuted, each by a state that its premises allow and its conclusion does not fit.
-/
namespace Sys2Proof.Machine

/-! ### Bits of a set of faults -/

theorem bitOf_add_two_pow_self (v n : Nat) : bitOf (v + 2 ^ n) n = !bitOf v n := by
  rw [bitOf, Nat.add_div_right _ (Nat.two_pow_pos n), bitOf, Bool.eq_iff_iff]
  simp only [beq_iff_eq, Bool.not_eq_true', beq_eq_false_iff_ne]
  omega

/-- No carry leaves a bit that was clear. -/
theorem bitOf_add_two_pow_ne {v n j : Nat} (clear : bitOf v n = false) (hj : j ≠ n) : bitOf (v + 2 ^ n) j = bitOf v j := by
  obtain below | above := Nat.lt_or_gt_of_ne hj
  · obtain ⟨k, rfl⟩ : ∃ k, n = j + (k + 1) := ⟨n - j - 1, by omega⟩
    rw [bitOf, Nat.pow_add, Nat.add_mul_div_left _ _ (Nat.two_pow_pos j), Nat.pow_succ, Nat.add_mul_mod_self_right, bitOf]
  · obtain ⟨k, rfl⟩ : ∃ k, j = n + (1 + k) := ⟨j - n - 1, by omega⟩
    have even : v / 2 ^ n % 2 ≠ 1 := by simpa [bitOf] using clear
    have same : (v / 2 ^ n + 1) / 2 = v / 2 ^ n / 2 := by omega
    simp only [bitOf, Nat.pow_add, ← Nat.div_div_eq_div_mul, Nat.add_div_right _ (Nat.two_pow_pos n), Nat.pow_one, same]

theorem two_pow_le_of_bitOf {v n : Nat} (set : bitOf v n = true) : 2 ^ n ≤ v := by
  refine Nat.le_of_not_lt fun low => ?_
  simp [bitOf, Nat.div_eq_of_lt low] at set

/-- The bits after one of them is set or cleared. -/
theorem bitOf_setBit_ite (v n j : Nat) (b : Bool) : bitOf (setBit v n b) j = if j = n then b else bitOf v j := by
  by_cases same : b = bitOf v n
  · rw [setBit, if_pos (beq_iff_eq.mpr same)]
    split
    · next h => rw [h, same]
    · rfl
  · rw [setBit, if_neg (by simpa using same)]
    cases b with
    | true =>
      have clear : bitOf v n = false := by simpa using same
      rw [if_pos rfl]
      split
      · next h => simp [h, bitOf_add_two_pow_self, clear]
      · next h => exact bitOf_add_two_pow_ne clear h
    | false =>
      have set : bitOf v n = true := by simpa using same
      obtain ⟨u, rfl⟩ : ∃ u, v = u + 2 ^ n := ⟨v - 2 ^ n, (Nat.sub_add_cancel (two_pow_le_of_bitOf set)).symm⟩
      have clear : bitOf u n = false := by simpa [bitOf_add_two_pow_self] using set
      rw [if_neg Bool.false_ne_true, Nat.add_sub_cancel]
      split
      · next h => rw [h, clear]
      · next h => exact (bitOf_add_two_pow_ne clear h).symm

/-- A bit of a field after one of its bits is set or cleared. -/
theorem Mach.bitOf_get_putBit (m : Mach) {f : Fld} {n j : Nat} (b : Bool) (hj : j < f.width) :
    bitOf ((m.putBit f n b).get f) j = if j = n then b else bitOf (m.get f) j := by
  rw [Mach.putBit_eq, Mach.get_put_same, bitOf_mod hj, bitOf_setBit_ite]

/-! ### A command that acts while the core runs -/

theorem Completes.live {c : Instr} {s : State} {f : Mach → Mach} {m' : Mach} {P : Mach → Prop} (up : s.m.fabricUp = true)
    (e : exec c s = .next (s.live f)) (h : f s.m = m') (p : P m') : Completes c s P :=
  Completes.upd (e.trans (congrArg _ (s.live_of f up))) h p

/-! ### Writes of a set of fields -/

theorem OnlyFields.refl (fs : List Fld) (m : Mach) : OnlyFields fs m m := ⟨rfl, fun _ _ => rfl⟩

theorem OnlyFields.put {fs : List Fld} {m m' : Mach} (h : OnlyFields fs m m') {f : Fld} (hf : f ∈ fs) (v : Nat) : OnlyFields fs m (m'.put f v) := by
  obtain ⟨same, keeps⟩ := h
  refine ⟨congrArg (·.put f v) same, fun k hk => ?_⟩
  have other : k ≠ f.key := fun e => hk (e ▸ List.mem_map_of_mem hf)
  exact (mapGet_mapPut_ne 0 m'.regs.act _ other).trans (keeps k hk)

theorem OnlyFields.bumpQuad {fs : List Fld} {m m' : Mach} (h : OnlyFields fs m m') {f : Fld} (hf : f ∈ fs) (i : Nat) :
    OnlyFields fs m (m'.bumpQuad f i) := by
  unfold Mach.bumpQuad Mach.bumpByte
  rw [ite_self]
  dsimp only
  split
  · exact h
  · exact h.put hf _

/-- A field of another key reads the same after a byte of a counter. -/
theorem Mach.get_bumpQuad_ne (m : Mach) {f g : Fld} (i : Nat) (h : g.key ≠ f.key) : (m.bumpQuad f i).get g = m.get g := by
  unfold Mach.bumpQuad Mach.bumpByte
  rw [ite_self]
  dsimp only
  split
  · rfl
  · exact m.get_put_ne _ h

/-- An event after writes of the fields `fs`: it is issued, and beside it those fields alone change. -/
theorem OnlyFields.emits {fs : List Fld} {m m' : Mach} (h : OnlyFields fs m m') {cls : Nat} (n port arg : Nat) (hc : cls < 32) :
    Issues cls n port arg m (m'.emit cls n port arg) ∧ Eventful fs m (m'.emit cls n port arg) := by
  obtain ⟨same, keeps⟩ := h
  have issued := m'.emit2_issues n port arg 0 hc
  obtain ⟨frame, rest⟩ := m'.emit2_eventful cls n port arg 0
  rw [same] at issued frame
  rw [Mach.emit_eq, same]
  refine ⟨issued, frame, fun k hk => ?_⟩
  simp only [List.map_cons, List.mem_cons, not_or] at hk
  obtain ⟨pend, lost, outside⟩ := hk
  rw [← same, rest k (by simp [pend, lost]), keeps k outside]

theorem Eventful.acq {fs : List Fld} {m m' : Mach} (h : Eventful fs m m') : m'.acq = m.acq := by rw [h.1]

theorem Eventful.cfe {fs : List Fld} {m m' : Mach} (h : Eventful fs m m') : m'.cfe = m.cfe := by rw [h.1]

/-! ### Time passes -/

/-- Of the registers the passage of time changes TIS.STATUS.OVF alone (R114). -/
theorem Mach.get_advance (m : Mach) (n : Nat) {g : Fld} (h : g.key ≠ F.TIS_STATUS_OVF.key) : (m.advance n).get g = m.get g := by
  have ran (trim : Int) (up k n : Nat) : (m.runClocks trim up k n).get g = m.get g := by
    unfold Mach.runClocks
    dsimp only
    split
    · rfl
    · exact Mach.get_put_ne _ _ h
  unfold Mach.advance
  split
  · exact ran ..
  · exact ran ..

theorem Mach.get_reachNs (m : Mach) (time : Nat) {g : Fld} (h : g.key ≠ F.TIS_STATUS_OVF.key) : (m.reachNs time).get g = m.get g := by
  unfold Mach.reachNs
  split
  · exact m.get_advance _ h
  · rfl

/-! ### The common-mode monitor (R151, R152) -/

theorem contains_inputsOf (wide : Bool) (i : Nat) : (inputsOf wide).contains i = decide (i < if wide = true then 2 else 4) := by
  rw [Bool.eq_iff_iff, List.contains_iff_mem, decide_eq_true_eq]
  cases wide
  · simp [inputsOf]; omega
  · simp [inputsOf]; omega

/-- No event, no counter of faults and no wrap of the coarse count shares a field with CM_FAULT. -/
theorem cmFault_apart (p : Port) : let k := (F.AFE_CFE_STATUS_CM_FAULT (portIx p)).key
    k ≠ F.EVT_PEND.key ∧ k ≠ F.EVT_LOG_COUNT_LOST.key ∧ k ≠ (F.AFE_CFE_FAULT_CNT_BYTES (portIx p)).key ∧ k ≠ F.TIS_STATUS_OVF.key := by
  cases p <;> decide

/-- Whether an average of an input lies outside the window of CM_LO and CM_HI. -/
def Mach.cmOut (m : Mach) (p : Port) (x : Int) : Bool :=
  decide (x < 10 * m.get (F.AFE_CFE_CM_CM_LO (portIx p))) || decide ((10 * m.get (F.AFE_CFE_CM_CM_HI (portIx p)) : Int) < x)

theorem Mach.cmOut_iff (m : Mach) (p : Port) (x : Int) : m.cmOut p x = true ↔
    x < 10 * m.get (F.AFE_CFE_CM_CM_LO (portIx p)) ∨ (10 * m.get (F.AFE_CFE_CM_CM_HI (portIx p)) : Int) < x := by
  simp [Mach.cmOut]

/-- The marks of an input's fault begin with the first of the two blocks that end, and its time in the window now. -/
def Mach.cmMarked (m : Mach) (p : Port) (i : Nat) : Mach :=
  (m.modLog p fun l =>
    { l with cmf := ⟨i, m.blockPos p (blockOf (m.acqOf p).t0 (m.acqOf p).set.wide m.half - 2), none⟩ :: l.cmf }).cmSince p i

theorem Mach.cmMarked_cmf (m : Mach) (p : Port) (i : Nat) : ((m.cmMarked p i).acqOf p).log.cmf =
    ⟨i, m.blockPos p (blockOf (m.acqOf p).t0 (m.acqOf p).set.wide m.half - 2), none⟩ :: (m.acqOf p).log.cmf := by
  cases p <;> rfl

theorem Mach.cmMarked_since (m : Mach) (p : Port) (i : Nat) : ((m.cmMarked p i).cfe.at p).since = listPut (m.cfe.at p).since i m.now := by
  cases p <;> rfl

/-- The fault of an input is shown, counted and reported. -/
def Mach.cmReport (m : Mach) (p : Port) (i : Nat) : Mach :=
  ((m.putBit (F.AFE_CFE_STATUS_CM_FAULT (portIx p)) i true).bumpQuad (F.AFE_CFE_FAULT_CNT_BYTES (portIx p)) i).emit
    (6 + portIx p) 0 (evPort p) (evArg i 0 0)

theorem Mach.cmDeclare_eq (m : Mach) (p : Port) (i : Nat) (avg0 avg1 : Int) : m.cmDeclare p i avg0 avg1 =
    if m.blocksRun p && (inputsOf (m.wideband p)).contains i && bitOf (m.get (F.AFE_CFE_CM_MON_EN (portIx p))) i then
      if bitOf (m.get (F.AFE_CFE_STATUS_CM_FAULT (portIx p))) i then (if m.cmOut p avg0 || m.cmOut p avg1 then m.cmSince p i else m)
      else if m.cmOut p avg0 && m.cmOut p avg1 then (m.cmMarked p i).cmReport p i else m
    else m := rfl

section
variable {m : Mach} {p : Port} {i : Nat} {avg0 avg1 : Int}

theorem Mach.cmDeclare_outside (runs : m.blocksRun p = true) (used : i < if m.wideband p = true then 2 else 4)
    (mon : bitOf (m.get (F.AFE_CFE_CM_MON_EN (portIx p))) i = true) (well : bitOf (m.get (F.AFE_CFE_STATUS_CM_FAULT (portIx p))) i = false)
    (out0 : m.cmOut p avg0 = true) (out1 : m.cmOut p avg1 = true) : m.cmDeclare p i avg0 avg1 = (m.cmMarked p i).cmReport p i := by
  simp only [Mach.cmDeclare_eq, contains_inputsOf, runs, used, mon, well, out0, out1, decide_true, Bool.and_self, Bool.false_eq_true, if_true, if_false]

theorem Mach.cmDeclare_unmonitored (off : bitOf (m.get (F.AFE_CFE_CM_MON_EN (portIx p))) i = false) : m.cmDeclare p i avg0 avg1 = m := by
  simp [Mach.cmDeclare_eq, off]

/-- One average inside the window declares nothing. -/
theorem Mach.cmDeclare_inside (well : bitOf (m.get (F.AFE_CFE_STATUS_CM_FAULT (portIx p))) i = false)
    (inside : m.cmOut p avg0 = false ∨ m.cmOut p avg1 = false) : m.cmDeclare p i avg0 avg1 = m := by
  have never : (m.cmOut p avg0 && m.cmOut p avg1) = false := by obtain h | h := inside <;> simp [h]
  simp [Mach.cmDeclare_eq, well, never]

/-- An input in fault that stays inside its window keeps its time there. -/
theorem Mach.cmDeclare_recovers (fault : bitOf (m.get (F.AFE_CFE_STATUS_CM_FAULT (portIx p))) i = true)
    (in0 : m.cmOut p avg0 = false) (in1 : m.cmOut p avg1 = false) : m.cmDeclare p i avg0 avg1 = m := by
  simp [Mach.cmDeclare_eq, fault, in0, in1]

end

/-- What a report leaves (R151): the input's bit, and beside the event only the set of faults and its counters. -/
theorem Mach.cmReport_spec (m : Mach) (p : Port) (i : Nat) : let f := F.AFE_CFE_STATUS_CM_FAULT (portIx p)
    (∀ j < 4, bitOf ((m.cmReport p i).get f) j = if j = i then true else bitOf (m.get f) j) ∧
    Issues (6 + portIx p) 0 (evPort p) (evArg i 0 0) m (m.cmReport p i) ∧
    Eventful [f, F.AFE_CFE_FAULT_CNT_BYTES (portIx p)] m (m.cmReport p i) := by
  obtain ⟨pend, lost, count, -⟩ := cmFault_apart p
  have cls : 6 + portIx p < 32 := by cases p <;> decide
  refine ⟨fun j hj => ?_, ?_⟩
  · rw [Mach.cmReport, Mach.emit_eq, Mach.get_emit2 _ _ _ _ _ _ _ pend lost, Mach.get_bumpQuad_ne _ _ count]
    exact m.bitOf_get_putBit true hj
  · exact OnlyFields.emits (((OnlyFields.refl _ m).put (by simp) _).bumpQuad (by simp) i) 0 _ _ cls

theorem getElem?_listPut {α : Type} (v : α) : ∀ (l : List α) (i : Nat), i < l.length → (listPut l i v)[i]? = some v
  | _ :: _, 0, _ => rfl
  | _ :: t, i + 1, h => getElem?_listPut v t i (Nat.lt_of_succ_lt_succ h)

/-- The marks of an input's fault end with the first block at or after a position. -/
def Mach.cmUnmarked (m : Mach) (p : Port) (i h : Nat) : Mach :=
  m.modLog p fun l => { l with cmf := endMarks l.cmf i (m.blockPos p (blockFrom (m.acqOf p).t0 (m.acqOf p).set.wide h)) }

theorem Mach.cmEnd_fault {m : Mach} {p : Port} {i h : Nat} (fault : bitOf (m.get (F.AFE_CFE_STATUS_CM_FAULT (portIx p))) i = true) :
    m.cmEnd p i h = ((m.cmUnmarked p i h).putBit (F.AFE_CFE_STATUS_CM_FAULT (portIx p)) i false).emit (6 + portIx p) 1 (evPort p) (evArg i 0 0) :=
  if_pos fault

/-- What the end of a fault leaves (R152): the input's bit is clear, and beside the event and the marks nothing else changes. -/
theorem Mach.cmEnd_spec {m : Mach} {p : Port} {i h : Nat} (fault : bitOf (m.get (F.AFE_CFE_STATUS_CM_FAULT (portIx p))) i = true) :
    let f := F.AFE_CFE_STATUS_CM_FAULT (portIx p)
    (∀ j < 4, bitOf ((m.cmEnd p i h).get f) j = if j = i then false else bitOf (m.get f) j) ∧
    Issues (6 + portIx p) 1 (evPort p) (evArg i 0 0) m (m.cmEnd p i h) ∧ Eventful [f] { m with acq := (m.cmEnd p i h).acq } (m.cmEnd p i h) := by
  obtain ⟨pend, lost, -, -⟩ := cmFault_apart p
  have cls : 6 + portIx p < 32 := by cases p <;> decide
  have only : OnlyFields [F.AFE_CFE_STATUS_CM_FAULT (portIx p)] (m.cmUnmarked p i h)
      ((m.cmUnmarked p i h).putBit (F.AFE_CFE_STATUS_CM_FAULT (portIx p)) i false) := (OnlyFields.refl _ _).put (by simp) _
  obtain ⟨issued, frame⟩ := only.emits 1 (evPort p) (evArg i 0 0) cls
  rw [Mach.cmEnd_fault fault]
  refine ⟨fun j hj => ?_, issued, ?_⟩
  · rw [Mach.emit_eq, Mach.get_emit2 _ _ _ _ _ _ _ pend lost]
    exact (m.cmUnmarked p i h).bitOf_get_putBit false hj
  · rw [frame.acq]
    exact frame

/-- The recovery of an input in fault is the end of the fault, 1 ms after it came back to its window. -/
theorem Mach.cmRecovery_fault {m : Mach} {p : Port} {i : Nat} (runs : m.blocksRun p = true)
    (fault : bitOf (m.get (F.AFE_CFE_STATUS_CM_FAULT (portIx p))) i = true) :
    m.cmRecovery p i = (m.reachNs ((m.cfe.at p).since.getD i 0 + 1000000)).cmEnd p i (m.reachNs ((m.cfe.at p).since.getD i 0 + 1000000)).half := by
  simp only [Mach.cmRecovery, runs, fault, Bool.and_self, if_true]

theorem Mach.cmRecovery_well {m : Mach} {p : Port} {i : Nat} (well : bitOf (m.get (F.AFE_CFE_STATUS_CM_FAULT (portIx p))) i = false) :
    m.cmRecovery p i = m := by
  simp [Mach.cmRecovery, well]

/-! ### The bias outputs (R161, R163) -/

/-- The fields of an output's status, and those of the event unit, are apart. -/
theorem apdStatus_apart {o : Nat} (ho : o < 4) :
    let l := (F.AFE_APD_STATUS_LIMIT o).key; let v := (F.AFE_APD_STATUS_V_NOW o).key
    l ≠ v ∧ l ≠ F.EVT_PEND.key ∧ l ≠ F.EVT_LOG_COUNT_LOST.key ∧ v ≠ F.EVT_PEND.key ∧ v ≠ F.EVT_LOG_COUNT_LOST.key := by
  revert o
  decide

theorem Mach.apdLimit_limits {m : Mach} {o : Nat} (ho : o < 4) (off : m.on (F.AFE_APD_STATUS_LIMIT o) = false)
    (mode : m.get (F.AFE_APD_CTRL_MODE o) ≠ 0) : m.apdLimit o =
      ((m.put (F.AFE_APD_STATUS_LIMIT o) 1).put (F.AFE_APD_STATUS_V_NOW o) 0).emit (6 + o / 2) 3 (o / 2 + 1) (evArg o 0 0) :=
  if_pos ⟨ho, by rw [off]; rfl, mode⟩

theorem Mach.apdLimit_modeOff {m : Mach} {o : Nat} (mode : m.get (F.AFE_APD_CTRL_MODE o) = 0) : m.apdLimit o = m :=
  if_neg fun ⟨_, _, on⟩ => on mode

theorem Mach.rfeFault_run {m : Mach} {ch : Nat} (hc : ch < 4)
    (run : 64 ≤ if ch % 2 = 0 then (m.ramanOf (ixPort (ch / 2))).satST else (m.ramanOf (ixPort (ch / 2))).satAS) :
    m.rfeFault ch = (m.modRaman (ixPort (ch / 2)) fun r => if ch % 2 = 0 then { r with satST := 0 } else { r with satAS := 0 }).emit
      (6 + portIx (ixPort (ch / 2))) 2 (evPort (ixPort (ch / 2))) (evArg ch 0 0) :=
  if_pos ⟨hc, run⟩

theorem Mach.rfeFault_short {m : Mach} {ch : Nat}
    (short : (if ch % 2 = 0 then (m.ramanOf (ixPort (ch / 2))).satST else (m.ramanOf (ixPort (ch / 2))).satAS) < 64) : m.rfeFault ch = m :=
  if_neg fun ⟨_, run⟩ => Nat.not_lt.mpr run short

theorem Mach.apdSettleEnd_settling {m : Mach} {p : Port} (h : m.biasSettling p = true) : m.apdSettleEnd p =
    ((m.reachNs (m.ramanOf p).biasEnd).put (F.AFE_APD_STATUS_SETTLING (2 * portIx p)) 0).put (F.AFE_APD_STATUS_SETTLING (2 * portIx p + 1)) 0 :=
  if_pos h

theorem Mach.apdSettleEnd_settled {m : Mach} {p : Port} (h : m.biasSettling p = false) : m.apdSettleEnd p = m :=
  if_neg (by rw [h]; exact Bool.false_ne_true)

/-! ### A write of APD_STATUS -/

/-- APD_STATUS owns its fields: a write acts through LIMIT alone (R163). -/
theorem Mach.regWrite_apdStatus (m : Mach) (x : BusAccess) (r : RegRow) {o : Nat} (ho : o < 4) (w : Nat) :
    m.regWrite x r (unifyMc (F.AFE_APD_STATUS_LIMIT o).addr) (2 ^ 32 - 1) w none =
      if bitOf (w &&& (2 ^ 32 - 1)) 17 then m.apdLimitClear o else m := by
  match o, ho with
  | 0, _ => rfl
  | 1, _ => rfl
  | 2, _ => rfl
  | 3, _ => rfl

theorem apdStatus_maps {o : Nat} (ho : o < 4) : let a := (F.AFE_APD_STATUS_LIMIT o).addr
    targetOf a = .reg a ∧ (findRow (unifyMc a)).isSome = true ∧ a ≠ F.SYS_RESET_KEY.addr := by
  revert o
  decide

theorem Mach.writeBy_apdStatus {m : Mach} {who : Master} {o : Nat} {w : Word} (ho : o < 4)
    (may : MayAccess m who (F.AFE_APD_STATUS_LIMIT o).addr) (one : bitOf w.toNat 17 = true) :
    m.writeBy who (F.AFE_APD_STATUS_LIMIT o).addr w.toNat = (m.apdLimitClear o).done := by
  obtain ⟨target, row, key⟩ := apdStatus_maps ho
  obtain ⟨r, hr⟩ := Option.isSome_iff_exists.mp row
  have whole : w.toNat &&& (2 ^ 32 - 1) = w.toNat := by rw [Nat.and_two_pow_sub_one_eq_mod, Nat.mod_eq_of_lt w.isLt]
  rw [Mach.writeBy_of may target hr key, Mach.regWrite_apdStatus m _ r ho, whole, if_pos one]
  rfl

theorem Mach.done_ramanOf (m : Mach) (p : Port) : m.done.ramanOf p = m.ramanOf p := rfl

/-- A write of 1 to a LIMIT that is set (R163): the output waits for the next frame boundary. -/
theorem Mach.apdLimitClear_on {m : Mach} {o : Nat} (on : m.on (F.AFE_APD_STATUS_LIMIT o) = true) :
    m.apdLimitClear o = (m.put (F.AFE_APD_STATUS_LIMIT o) 0).modRaman (apdPort o) fun r => { r with rstFor := r.rstFor ++ [o] } :=
  if_pos on

theorem Mach.apdLimitClear_off {m : Mach} {o : Nat} (off : m.on (F.AFE_APD_STATUS_LIMIT o) = false) : m.apdLimitClear o = m :=
  if_neg (by rw [off]; exact Bool.false_ne_true)

/-! ### The faults of the inputs and of the bias outputs -/

section
variable {s : State} {p : Port} {i : Nat}

/-- CM_FAULT_DECLARE of two blocks outside the window (R151). -/
theorem completes_cmFaultDeclare (up : s.m.fabricUp = true) {avg0 avg1 : Int}
    (declares : s.m.cmDeclare p i avg0 avg1 = (s.m.cmMarked p i).cmReport p i) (hi : i < 4) : let f := F.AFE_CFE_STATUS_CM_FAULT (portIx p)
    Completes (.cmFaultDeclare p ⟨i, avg0, avg1⟩) s fun m =>
      bitOf (m.get f) i = true ∧ (∀ j < 4, j ≠ i → bitOf (m.get f) j = bitOf (s.m.get f) j) ∧
      (m.acqOf p).log.cmf = ⟨i, s.m.blockPos p (blockOf (s.m.acqOf p).t0 (s.m.acqOf p).set.wide s.m.half - 2), none⟩ :: (s.m.acqOf p).log.cmf ∧
      ((s.m.cfe.at p).since.length = 4 → (m.cfe.at p).since[i]? = some s.m.now) ∧ Issues (6 + portIx p) 0 (evPort p) (evArg i 0 0) s.m m ∧
      Eventful [f, F.AFE_CFE_FAULT_CNT_BYTES (portIx p)] { s.m with acq := m.acq, cfe := m.cfe } m := by
  intro f
  obtain ⟨bits, issued, frame⟩ := (s.m.cmMarked p i).cmReport_spec p i
  refine Completes.live up rfl declares ⟨?_, fun j hj other => ?_, ?_, fun four => ?_, issued, ?_⟩
  · rw [bits i hi, if_pos rfl]
  · rw [bits j hj, if_neg other]
    rfl
  · rw [Mach.acqOf, frame.acq]
    exact s.m.cmMarked_cmf p i
  · rw [frame.cfe, Mach.cmMarked_since]
    exact getElem?_listPut _ _ _ (Nat.lt_of_lt_of_eq hi four.symm)
  · rw [frame.acq, frame.cfe]
    exact frame

/-- CM_RECOVERY of an input in fault (R152). -/
theorem completes_cmRecovery (up : s.m.fabricUp = true) (runs : s.m.blocksRun p = true) : let f := F.AFE_CFE_STATUS_CM_FAULT (portIx p)
    bitOf (s.m.get f) i = true → s.m.get f < 16 → Completes (.cmRecovery p i) s fun m =>
      let w := s.m.reachNs ((s.m.cfe.at p).since.getD i 0 + 1000000)
      bitOf (m.get f) i = false ∧ (∀ j < 4, j ≠ i → bitOf (m.get f) j = bitOf (s.m.get f) j) ∧ Issues (6 + portIx p) 1 (evPort p) (evArg i 0 0) w m ∧
      Eventful [f] { w with acq := m.acq } m := by
  intro f fault four
  obtain ⟨-, -, -, wrap⟩ := cmFault_apart p
  have hi : i < 4 := (Nat.pow_lt_pow_iff_right (by decide)).mp (Nat.lt_of_le_of_lt (two_pow_le_of_bitOf fault) four)
  refine Completes.live up rfl (Mach.cmRecovery_fault runs fault) ?_
  intro w
  have same : w.get f = s.m.get f := s.m.get_reachNs _ wrap
  have still : bitOf (w.get f) i = true := by rw [same, fault]
  obtain ⟨bits, issued, frame⟩ := Mach.cmEnd_spec (h := w.half) still
  refine ⟨?_, fun j hj other => ?_, issued, frame⟩
  · exact (bits i hi).trans (if_pos rfl)
  · exact (bits j hj).trans ((if_neg other).trans (by rw [same]))

end

/-- APD_LIMIT of an output in a mode other than 0 (R163). -/
theorem completes_apdLimit {s : State} {o : Nat} (up : s.m.fabricUp = true) (ho : o < 4) (off : s.m.on (F.AFE_APD_STATUS_LIMIT o) = false)
    (mode : s.m.get (F.AFE_APD_CTRL_MODE o) ≠ 0) : Completes (.apdLimit o) s fun m =>
      m.get (F.AFE_APD_STATUS_LIMIT o) = 1 ∧ m.get (F.AFE_APD_STATUS_V_NOW o) = 0 ∧ Issues (6 + o / 2) 3 (o / 2 + 1) (evArg o 0 0) s.m m ∧
      Eventful [F.AFE_APD_STATUS_LIMIT o, F.AFE_APD_STATUS_V_NOW o] s.m m := by
  obtain ⟨apart, limitPend, limitLost, voltPend, voltLost⟩ := apdStatus_apart ho
  refine Completes.live up rfl (Mach.apdLimit_limits ho off mode) ⟨?_, ?_, ?_⟩
  · rw [Mach.emit_eq, Mach.get_emit2 _ _ _ _ _ _ _ limitPend limitLost, Mach.get_put_ne _ _ apart, Mach.get_put_same]
    rfl
  · rw [Mach.emit_eq, Mach.get_emit2 _ _ _ _ _ _ _ voltPend voltLost, Mach.get_put_same]
    rfl
  · exact OnlyFields.emits (((OnlyFields.refl _ s.m).put (by simp) _).put (by simp) _) 3 _ _ (by omega)

/-- APD_SETTLE_END of outputs that settle (R161). -/
theorem completes_apdSettleEnd {s : State} {p : Port} (up : s.m.fabricUp = true) (h : s.m.biasSettling p = true) :
    let fs := [F.AFE_APD_STATUS_SETTLING (2 * portIx p), F.AFE_APD_STATUS_SETTLING (2 * portIx p + 1)]
    Completes (.apdSettleEnd p) s fun m => (∀ f ∈ fs, m.get f = 0) ∧ OnlyFields fs (s.m.reachNs (s.m.ramanOf p).biasEnd) m := by
  intro fs
  refine Completes.live up rfl (Mach.apdSettleEnd_settling h) ⟨fun f hf => ?_, ?_⟩
  · rw [Mach.get_put, Mach.get_put]
    simp only [fs, List.mem_cons, List.not_mem_nil, or_false] at hf
    obtain rfl | rfl := hf <;> simp
  · exact ((OnlyFields.refl _ _).put (by simp [fs]) _).put (by simp [fs]) _

/-- APD_LIMIT_CLEAR: a write of 1 to LIMIT (R163). -/
theorem completes_apdLimitClear {s : State} {who : Master} {o : Nat} {w : Word} {m' : Mach} {P : Mach → Prop} (ho : o < 4)
    (may : MayAccess s.m who (F.AFE_APD_STATUS_LIMIT o).addr) (one : bitOf w.toNat 17 = true) (h : (s.m.apdLimitClear o).done = m')
    (boot : m'.boot = s.m.boot) (hp : P m') : Completes (.apdLimitClear who o w) s P :=
  Completes.saves (congrArg _ (if_pos ho)) ((Mach.writeBy_apdStatus ho may one).trans h) boot hp

/-- Settles O33: each clause is one case of its command. -/
theorem inputFaults : Obligations.InputFaults := by
  intro s
  refine ⟨fun up => ⟨fun p i runs => ?monitor, fun ch hc => ?rfe, fun o ho off => ?limit, fun p => ?settle⟩, fun who o w ho may one => ?clear⟩
  case monitor =>
    refine ⟨fun avg0 avg1 used mon well => ⟨fun out0 out1 _ => ?_, fun inside => ?_⟩, fun avg0 avg1 h => ?_, ?_, fun well => ?_⟩
    · have out0 := (s.m.cmOut_iff p avg0).mpr out0
      have out1 := (s.m.cmOut_iff p avg1).mpr out1
      have hi : i < 4 := Nat.lt_of_lt_of_le used (by split <;> decide)
      exact completes_cmFaultDeclare up (Mach.cmDeclare_outside runs used mon well out0 out1) hi
    · simp only [← Mach.cmOut_iff, Bool.not_eq_true] at inside
      exact Completes.live up rfl (Mach.cmDeclare_inside well inside) rfl
    · simp only [← Mach.cmOut_iff, Bool.not_eq_true] at h
      obtain unmonitored | ⟨fault, in0, in1⟩ := h
      · exact Completes.live up rfl (Mach.cmDeclare_unmonitored unmonitored) rfl
      · exact Completes.live up rfl (Mach.cmDeclare_recovers fault in0 in1) rfl
    · exact completes_cmRecovery up runs
    · exact Completes.live up rfl (Mach.cmRecovery_well well) rfl
  case rfe =>
    refine ⟨fun run => ?_, fun short => Completes.live up rfl (Mach.rfeFault_short short) rfl⟩
    have cls : 6 + portIx (ixPort (ch / 2)) < 32 := by cases ixPort (ch / 2) <;> decide
    exact Completes.live up rfl (Mach.rfeFault_run hc run) (OnlyFields.emits (OnlyFields.refl [] _) 2 _ _ cls)
  case limit =>
    exact ⟨completes_apdLimit up ho off, fun mode => Completes.live up rfl (Mach.apdLimit_modeOff mode) rfl⟩
  case settle =>
    exact ⟨completes_apdSettleEnd up, fun settled => Completes.live up rfl (Mach.apdSettleEnd_settled settled) rfl⟩
  case clear =>
    refine ⟨fun on => ?_, fun off => ?_⟩
    · refine completes_apdLimitClear ho may one (congrArg Mach.done (Mach.apdLimitClear_on on)) rfl ⟨?_, ?_, rfl, ?_⟩
      · exact Mach.get_put_same _ _ 0
      · rw [Mach.done_ramanOf, Mach.ramanOf_modRaman, if_pos rfl]
        rfl
      · exact ((OnlyFields.refl _ s.m).put (by simp) 0).2
    · exact completes_apdLimitClear ho may one (congrArg Mach.done (Mach.apdLimitClear_off off)) rfl rfl

/-! ### A gain code beyond its field -/

/-- A port with fixed gains at the end of its first block, whose gain code of X holds 4, one more than its two bits can. -/
def Mach.gainTooWide : Mach :=
  let m := Mach.runningWith [(F.ESC_STATUS_RUNNING 0, 1), (F.AFE_CFE_CTRL_FIXED 0, 1), (F.AFE_CFE_STATUS_GAIN_X 0, 4)]
  { m with clk := { m.clk with coarse := 16 } }

/-- A block of 16 samples of each input, all of code 0 and none with a clamp flag. -/
def quietBlock : List Half := List.replicate 32 0

theorem Mach.gainTooWide_block : (Mach.gainTooWide.rangerBlock .A .X quietBlock).get (gainFld .A .X) = 4 := by decide +kernel

/-- Refutes O32: its clause for fixed gains lacks the premise that the gain code fits the two bits of its field, which a state alone does not say of its fields. A
block under FIXED leaves the code 4 of `Mach.gainTooWide` as it stands, and the clause wants it cut to 0. -/
theorem not_rangers : ¬ Obligations.Rangers := by
  intro h
  let s := State.ofMach Mach.gainTooWide
  have up : s.m.fabricUp = true := by decide +kernel
  obtain ⟨-, evaluates, -⟩ := h s .A .X up
  obtain ⟨fixed, -⟩ := evaluates quietBlock (by decide +kernel)
  have kept := fixed (by decide +kernel)
  obtain ⟨-, code, -⟩ := kept.of_exec (t := s.live fun m => m.rangerBlock .A .X quietBlock) rfl
  rw [State.live_of s _ up, State.upd_m, show s.m = Mach.gainTooWide from rfl, Mach.gainTooWide_block] at code
  exact absurd code (by decide +kernel)

/-! ### A calibration state out of step -/

/-- A wake lets nothing but the die temperature convert, and CMD_STATUS.STATE shows a calibration (2) while none is in progress. -/
def Mach.calShown : Mach :=
  let m := Mach.runningWith [(F.CAL_CMD_STATUS_STATE, 2)]
  { m with hkc := { first := true } }

theorem Mach.calShown_slot (x : HkcConv) : ((Mach.calShown.hkcSlot x).syncCal).get F.CAL_CMD_STATUS_STATE = 0 := by
  have waits : Mach.calShown.hkcSlot x = Mach.calShown := rfl
  rw [waits]
  decide +kernel

/-- Refutes O34: a slot that serves nothing brings CMD_STATUS.STATE in step with calibration all the same, and the clause lacks the premise that it stands in step
before, which a state alone does not say. From `Mach.calShown` the slot clears STATE, and the clause wants nothing changed. -/
theorem not_housekeeping : ¬ Obligations.Housekeeping := by
  intro h
  let s := State.ofMach Mach.calShown
  let x : HkcConv := { code := 0, val := 0, broke := false }
  have up : s.m.fabricUp = true := by decide +kernel
  obtain ⟨-, running, -⟩ := h s
  obtain ⟨-, idle, -⟩ := running up
  have same := (idle x (.inr rfl)).of_exec (t := s.live fun m => (m.hkcSlot x).syncCal) rfl
  have cleared := congrArg (·.get F.CAL_CMD_STATUS_STATE) same
  rw [State.live_of s _ up, State.upd_m] at cleared
  exact absurd ((Mach.calShown_slot x).symm.trans cleared) (by decide +kernel)

end Sys2Proof.Machine
end
